-- ==== Sys2Proof/Word.lean ====
section
/-! DEFINITION. The machine's word types and plainest list helpers (00 R7, 06 R129). -/

namespace Sys2Proof

/-- A 64-bit register value. -/
abbrev Word := BitVec 64
/-- A byte of memory. -/
abbrev Byte := BitVec 8
/-- A grove mask: one bit per lane, lane L at bit L (08 R171). -/
abbrev LaneMask := BitVec 1024
/-- A byte mask of one 128-byte line: bit b covers byte b (04 R83). -/
abbrev ByteMask := BitVec 128
/-- The data of one 128-byte line: byte b in bits 8b+7 to 8b (00 R7). -/
abbrev LineBits := BitVec 1024

/-- Bits `hi` down to `lo` of a natural number. -/
def bits (w hi lo : Nat) : Nat := (w >>> lo) % 2 ^ (hi + 1 - lo)

/-- The signed reading of the low `n` bits of `v`. -/
def sextNat (n v : Nat) : Int :=
  if v % 2 ^ n < 2 ^ (n - 1) then (v % 2 ^ n : Nat) else (v % 2 ^ n : Nat) - (2 ^ n : Nat)

/-- An integer taken modulo `2^n`, as a natural number. -/
def wrap (n : Nat) (v : Int) : Nat := (v % (2 ^ n : Nat)).toNat

/-- Entry `i` of a register file, `d` past its end. -/
def vget {α : Type} {n : Nat} (v : Vector α n) (i : Nat) (d : α) : α := v[i]?.getD d

/-- Replaces entry `i` of a list by the value of `f` at it. -/
def updAt {α : Type} (l : List α) (i : Nat) (f : α → α) : List α := l.modify i f

end Sys2Proof
end

