-- ==== Sys2Proof/Syntax.lean ====
section
/-! DEFINITION. The instructions and steps of the Ubierna 9640: one constructor per row of the opcode table.
Rows with a word carry the fields of that word (10 R216, 14 R299); rows without one (steps of the device) carry the
agents or inputs that they concern; of these, the steps that a program needs in order to go on come first (the order
carries no meaning). -/

namespace Sys2Proof

/-- Who writes or reads a device register (18 R373, R380; 02 R55). -/
inductive Agent where
  /-- the elected owner -/
  | owner
  /-- firmware on the management core -/
  | firmware
  /-- the hypervisor function of partition `p` -/
  | hv (p : Nat)
  /-- a grove of partition `p` on a core -/
  | groveOf (p : Nat)
  /-- any other master, by its ID -/
  | master (id : Nat)
deriving DecidableEq, Repr, Inhabited

/-- One constructor per row of the opcode table. -/
inductive Instr where
  /-- NOP (R250). -/
  | nop
  /-- PFX (R21). -/
  | pfx (lit : BitVec 32)
  /-- BRA (R246). -/
  | bra (o : BitVec 16)
  /-- BRC_ANY (R246). -/
  | brcAny (n : BitVec 1) (p : BitVec 3) (o : BitVec 16)
  /-- BRC_ALL (R246). -/
  | brcAll (n : BitVec 1) (p : BitVec 3) (o : BitVec 16)
  /-- BRC_NONE (R246). -/
  | brcNone (n : BitVec 1) (p : BitVec 3) (o : BitVec 16)
  /-- BRD (R248). -/
  | brd (n : BitVec 1) (p : BitVec 3) (o : BitVec 16)
  /-- JOIN (R249). -/
  | join (i : BitVec 24)
  /-- CALL (R250). -/
  | call (i : BitVec 24)
  /-- RET (R250). -/
  | ret
  /-- JMPI (R250). -/
  | jmpi (a : BitVec 8)
  /-- EXIT (R251). -/
  | exitG
  /-- YIELD (R252). -/
  | yield
  /-- BRK (R256). -/
  | brk (i : BitVec 24)
  /-- TRAP (R256). -/
  | trap (i : BitVec 24)
  /-- ERET (R343). -/
  | eret
  /-- ERET_REPLAY (R257). -/
  | eretReplay
  /-- LAUNCH (R255). -/
  | launch (d : BitVec 8) (a : BitVec 8)
  /-- PHASE (R245). -/
  | phase (n : BitVec 4)
  /-- MODE (R225). -/
  | mode (g : BitVec 1) (h : BitVec 1) (p : BitVec 3) (r : BitVec 3) (t : BitVec 4)
  /-- CSRR (R244). -/
  | csrr (x : BitVec 8) (c : BitVec 16)
  /-- CSRW (R244). -/
  | csrw (x : BitVec 8) (c : BitVec 16)
  /-- BOUND (R176). -/
  | bound (b : BitVec 6)
  /-- ADD (R237). -/
  | add (d : BitVec 8) (a : BitVec 8) (b : BitVec 8)
  /-- SUB (R237). -/
  | sub (d : BitVec 8) (a : BitVec 8) (b : BitVec 8)
  /-- MUL (R237). -/
  | mul (d : BitVec 8) (a : BitVec 8) (b : BitVec 8)
  /-- MULH (R237). -/
  | mulh (d : BitVec 8) (a : BitVec 8) (b : BitVec 8)
  /-- MAD (R237). -/
  | mad (d : BitVec 8) (a : BitVec 8) (b : BitVec 8)
  /-- SHL (R237). -/
  | shl (d : BitVec 8) (a : BitVec 8) (b : BitVec 8)
  /-- SHR (R237). -/
  | shr (d : BitVec 8) (a : BitVec 8) (b : BitVec 8)
  /-- SRA (R237). -/
  | sra (d : BitVec 8) (a : BitVec 8) (b : BitVec 8)
  /-- FSHL (R237). -/
  | fshl (d : BitVec 8) (a : BitVec 8) (b : BitVec 8)
  /-- FSHR (R237). -/
  | fshr (d : BitVec 8) (a : BitVec 8) (b : BitVec 8)
  /-- AND (R237). -/
  | andV (d : BitVec 8) (a : BitVec 8) (b : BitVec 8)
  /-- OR (R237). -/
  | orV (d : BitVec 8) (a : BitVec 8) (b : BitVec 8)
  /-- XOR (R237). -/
  | xorV (d : BitVec 8) (a : BitVec 8) (b : BitVec 8)
  /-- ANDN (R237). -/
  | andn (d : BitVec 8) (a : BitVec 8) (b : BitVec 8)
  /-- NOT (R237). -/
  | notV (d : BitVec 8) (a : BitVec 8)
  /-- POPC (R237). -/
  | popc (d : BitVec 8) (a : BitVec 8)
  /-- CLZ (R237). -/
  | clz (d : BitVec 8) (a : BitVec 8)
  /-- CTZ (R237). -/
  | ctz (d : BitVec 8) (a : BitVec 8)
  /-- BREV (R237). -/
  | brev (d : BitVec 8) (a : BitVec 8)
  /-- BFX (R237). -/
  | bfx (d : BitVec 8) (a : BitVec 8) (b : BitVec 8)
  /-- BFI (R237). -/
  | bfi (d : BitVec 8) (a : BitVec 8) (b : BitVec 8)
  /-- MIN (R237). -/
  | minV (d : BitVec 8) (a : BitVec 8) (b : BitVec 8)
  /-- MAX (R237). -/
  | maxV (d : BitVec 8) (a : BitVec 8) (b : BitVec 8)
  /-- ABS (R237). -/
  | absV (d : BitVec 8) (a : BitVec 8)
  /-- NEG (R237). -/
  | negV (d : BitVec 8) (a : BitVec 8)
  /-- SEL (R237). -/
  | sel (d : BitVec 8) (a : BitVec 8) (b : BitVec 8)
  /-- CMP_EQ (R238). -/
  | cmpEq (d : BitVec 8) (a : BitVec 8) (b : BitVec 8)
  /-- CMP_NE (R238). -/
  | cmpNe (d : BitVec 8) (a : BitVec 8) (b : BitVec 8)
  /-- CMP_LT (R238). -/
  | cmpLt (d : BitVec 8) (a : BitVec 8) (b : BitVec 8)
  /-- CMP_LE (R238). -/
  | cmpLe (d : BitVec 8) (a : BitVec 8) (b : BitVec 8)
  /-- CMP_GT (R238). -/
  | cmpGt (d : BitVec 8) (a : BitVec 8) (b : BitVec 8)
  /-- CMP_GE (R238). -/
  | cmpGe (d : BitVec 8) (a : BitVec 8) (b : BitVec 8)
  /-- LI (R241). -/
  | li (d : BitVec 8) (i : BitVec 16)
  /-- LIH (R241). -/
  | lih (d : BitVec 8) (i : BitVec 16)
  /-- MOV (R237). -/
  | movV (d : BitVec 8) (a : BitVec 8)
  /-- LEA_1 (R242). -/
  | lea1 (d : BitVec 8) (a : BitVec 8) (b : BitVec 8)
  /-- LEA_2 (R242). -/
  | lea2 (d : BitVec 8) (a : BitVec 8) (b : BitVec 8)
  /-- LEA_3 (R242). -/
  | lea3 (d : BitVec 8) (a : BitVec 8) (b : BitVec 8)
  /-- SADD (R243). -/
  | sadd (d : BitVec 8) (a : BitVec 8) (b : BitVec 8)
  /-- SSUB (R243). -/
  | ssub (d : BitVec 8) (a : BitVec 8) (b : BitVec 8)
  /-- SMUL (R243). -/
  | smul (d : BitVec 8) (a : BitVec 8) (b : BitVec 8)
  /-- SSHL (R243). -/
  | sshl (d : BitVec 8) (a : BitVec 8) (b : BitVec 8)
  /-- SSHR (R243). -/
  | sshr (d : BitVec 8) (a : BitVec 8) (b : BitVec 8)
  /-- SSRA (R243). -/
  | ssra (d : BitVec 8) (a : BitVec 8) (b : BitVec 8)
  /-- SAND (R243). -/
  | sand (d : BitVec 8) (a : BitVec 8) (b : BitVec 8)
  /-- SOR (R243). -/
  | sor (d : BitVec 8) (a : BitVec 8) (b : BitVec 8)
  /-- SXOR (R243). -/
  | sxor (d : BitVec 8) (a : BitVec 8) (b : BitVec 8)
  /-- SMOV (R243). -/
  | smov (d : BitVec 8) (a : BitVec 8)
  /-- FADD (R259). -/
  | fadd (d : BitVec 8) (a : BitVec 8) (b : BitVec 8)
  /-- FSUB (R259). -/
  | fsub (d : BitVec 8) (a : BitVec 8) (b : BitVec 8)
  /-- FMUL (R259). -/
  | fmul (d : BitVec 8) (a : BitVec 8) (b : BitVec 8)
  /-- FMA (R259). -/
  | fma (d : BitVec 8) (a : BitVec 8) (b : BitVec 8)
  /-- FNMA (R259). -/
  | fnma (d : BitVec 8) (a : BitVec 8) (b : BitVec 8)
  /-- FMIN (R260). -/
  | fmin (d : BitVec 8) (a : BitVec 8) (b : BitVec 8)
  /-- FMAX (R260). -/
  | fmax (d : BitVec 8) (a : BitVec 8) (b : BitVec 8)
  /-- FABS (R259). -/
  | fabs (d : BitVec 8) (a : BitVec 8)
  /-- FNEG (R259). -/
  | fneg (d : BitVec 8) (a : BitVec 8)
  /-- FCMP_EQ (R261). -/
  | fcmpEq (d : BitVec 8) (a : BitVec 8) (b : BitVec 8)
  /-- FCMP_NE (R261). -/
  | fcmpNe (d : BitVec 8) (a : BitVec 8) (b : BitVec 8)
  /-- FCMP_LT (R261). -/
  | fcmpLt (d : BitVec 8) (a : BitVec 8) (b : BitVec 8)
  /-- FCMP_LE (R261). -/
  | fcmpLe (d : BitVec 8) (a : BitVec 8) (b : BitVec 8)
  /-- FCMP_GT (R261). -/
  | fcmpGt (d : BitVec 8) (a : BitVec 8) (b : BitVec 8)
  /-- FCMP_GE (R261). -/
  | fcmpGe (d : BitVec 8) (a : BitVec 8) (b : BitVec 8)
  /-- FCMP_UN (R261). -/
  | fcmpUn (d : BitVec 8) (a : BitVec 8) (b : BitVec 8)
  /-- FCLASS (R262). -/
  | fclass (d : BitVec 8) (a : BitVec 8)
  /-- FDIV (R263). -/
  | fdiv (d : BitVec 8) (a : BitVec 8) (b : BitVec 8)
  /-- FSQRT (R263). -/
  | fsqrt (d : BitVec 8) (a : BitVec 8)
  /-- FRCP (R263). -/
  | frcp (d : BitVec 8) (a : BitVec 8)
  /-- FRSQ (R263). -/
  | frsq (d : BitVec 8) (a : BitVec 8)
  /-- EXP2 (R263). -/
  | exp2 (d : BitVec 8) (a : BitVec 8)
  /-- LOG2 (R263). -/
  | log2 (d : BitVec 8) (a : BitVec 8)
  /-- SINPI (R263). -/
  | sinpi (d : BitVec 8) (a : BitVec 8)
  /-- COSPI (R263). -/
  | cospi (d : BitVec 8) (a : BitVec 8)
  /-- CVT_F (R265). -/
  | cvtF (d : BitVec 8) (a : BitVec 8) (s : BitVec 4)
  /-- CVT_I (R265). -/
  | cvtI (d : BitVec 8) (a : BitVec 8) (s : BitVec 4)
  /-- CVT8_SAT (R265). -/
  | cvt8Sat (d : BitVec 8) (a : BitVec 8) (s : BitVec 4)
  /-- CVT8_INF (R265). -/
  | cvt8Inf (d : BitVec 8) (a : BitVec 8) (s : BitVec 4)
  /-- CVTQ (R266). -/
  | cvtq (d : BitVec 8) (a : BitVec 8) (b : BitVec 8)
  /-- CVTA_SAT (R267). -/
  | cvtaSat (d : BitVec 8) (a : BitVec 8) (b : BitVec 8)
  /-- CVTA_INF (R267). -/
  | cvtaInf (d : BitVec 8) (a : BitVec 8) (b : BitVec 8)
  /-- FDOT (R268). -/
  | fdot (d : BitVec 8) (a : BitVec 8) (b : BitVec 8)
  /-- FDOT8 (R268). -/
  | fdot8 (d : BitVec 8) (a : BitVec 8) (b : BitVec 8)
  /-- SHFL (R270). -/
  | shfl (d : BitVec 8) (a : BitVec 8) (b : BitVec 8)
  /-- SHFL_UP (R270). -/
  | shflUp (d : BitVec 8) (a : BitVec 8) (b : BitVec 8)
  /-- SHFL_DN (R270). -/
  | shflDn (d : BitVec 8) (a : BitVec 8) (b : BitVec 8)
  /-- SHFL_X (R270). -/
  | shflX (d : BitVec 8) (a : BitVec 8) (b : BitVec 8)
  /-- BCAST (R270). -/
  | bcast (d : BitVec 8) (a : BitVec 8) (b : BitVec 8)
  /-- VOTE_ANY (R271). -/
  | voteAny (d : BitVec 8) (a : BitVec 8)
  /-- VOTE_ALL (R271). -/
  | voteAll (d : BitVec 8) (a : BitVec 8)
  /-- BALLOT (R271). -/
  | ballot (d : BitVec 8) (a : BitVec 8)
  /-- MATCH (R271). -/
  | matchV (d : BitVec 8) (a : BitVec 8)
  /-- RED_SUM (R272). -/
  | redSum (d : BitVec 8) (a : BitVec 8)
  /-- RED_MIN (R272). -/
  | redMin (d : BitVec 8) (a : BitVec 8)
  /-- RED_MAX (R272). -/
  | redMax (d : BitVec 8) (a : BitVec 8)
  /-- RED_AND (R272). -/
  | redAnd (d : BitVec 8) (a : BitVec 8)
  /-- RED_OR (R272). -/
  | redOr (d : BitVec 8) (a : BitVec 8)
  /-- RED_XOR (R272). -/
  | redXor (d : BitVec 8) (a : BitVec 8)
  /-- REDMI (R273). -/
  | redmi (d : BitVec 8) (a : BitVec 8)
  /-- REDMA (R273). -/
  | redma (d : BitVec 8) (a : BitVec 8)
  /-- SCAN_ADD (R274). -/
  | scanAdd (d : BitVec 8) (a : BitVec 8)
  /-- PERM (R275). -/
  | perm (d : BitVec 8) (a : BitVec 8) (b : BitVec 8)
  /-- PACK (R275). -/
  | pack (d : BitVec 8) (a : BitVec 8) (b : BitVec 8)
  /-- UNPACK (R275). -/
  | unpack (d : BitVec 8) (a : BitVec 8)
  /-- PAND (R239). -/
  | pand (d : BitVec 8) (a : BitVec 8) (b : BitVec 8)
  /-- POR (R239). -/
  | por (d : BitVec 8) (a : BitVec 8) (b : BitVec 8)
  /-- PXOR (R239). -/
  | pxor (d : BitVec 8) (a : BitVec 8) (b : BitVec 8)
  /-- PNOT (R239). -/
  | pnot (d : BitVec 8) (a : BitVec 8)
  /-- KPOP (R240). -/
  | kpop (d : BitVec 8) (a : BitVec 8)
  /-- LD (R279). -/
  | ld (d : BitVec 8) (b : BitVec 8) (o : BitVec 8)
  /-- ST (R279). -/
  | st (d : BitVec 8) (b : BitVec 8) (o : BitVec 8)
  /-- LDU (R279). -/
  | ldu (d : BitVec 8) (b : BitVec 8) (o : BitVec 8)
  /-- LDX (R283). -/
  | ldx (d : BitVec 8) (b : BitVec 8) (f : BitVec 1) (z : BitVec 2) (c : BitVec 4)
  /-- WAITA (R285). -/
  | waita (s : BitVec 1) (n : BitVec 4) (t : BitVec 16)
  /-- STM (R281). -/
  | stm (d : BitVec 8) (a : BitVec 8) (b : BitVec 8)
  /-- LDS (R279). -/
  | lds (d : BitVec 8) (b : BitVec 8) (o : BitVec 8)
  /-- STS (R279). -/
  | sts (d : BitVec 8) (b : BitVec 8) (o : BitVec 8)
  /-- LDA_GROVE (R280). -/
  | ldaGrove (d : BitVec 8) (b : BitVec 8) (o : BitVec 8)
  /-- LDA_STAND (R280). -/
  | ldaStand (d : BitVec 8) (b : BitVec 8) (o : BitVec 8)
  /-- LDA_CLUSTER (R280). -/
  | ldaCluster (d : BitVec 8) (b : BitVec 8) (o : BitVec 8)
  /-- LDA_DIE (R280). -/
  | ldaDie (d : BitVec 8) (b : BitVec 8) (o : BitVec 8)
  /-- LDA_PARTITION (R280). -/
  | ldaPartition (d : BitVec 8) (b : BitVec 8) (o : BitVec 8)
  /-- LDA_DEVICE (R280). -/
  | ldaDevice (d : BitVec 8) (b : BitVec 8) (o : BitVec 8)
  /-- LDA_SYSTEM (R280). -/
  | ldaSystem (d : BitVec 8) (b : BitVec 8) (o : BitVec 8)
  /-- STL_GROVE (R280). -/
  | stlGrove (d : BitVec 8) (b : BitVec 8) (o : BitVec 8)
  /-- STL_STAND (R280). -/
  | stlStand (d : BitVec 8) (b : BitVec 8) (o : BitVec 8)
  /-- STL_CLUSTER (R280). -/
  | stlCluster (d : BitVec 8) (b : BitVec 8) (o : BitVec 8)
  /-- STL_DIE (R280). -/
  | stlDie (d : BitVec 8) (b : BitVec 8) (o : BitVec 8)
  /-- STL_PARTITION (R280). -/
  | stlPartition (d : BitVec 8) (b : BitVec 8) (o : BitVec 8)
  /-- STL_DEVICE (R280). -/
  | stlDevice (d : BitVec 8) (b : BitVec 8) (o : BitVec 8)
  /-- STL_SYSTEM (R280). -/
  | stlSystem (d : BitVec 8) (b : BitVec 8) (o : BitVec 8)
  /-- LDC_GROVE (R280). -/
  | ldcGrove (d : BitVec 8) (b : BitVec 8) (o : BitVec 8)
  /-- LDC_STAND (R280). -/
  | ldcStand (d : BitVec 8) (b : BitVec 8) (o : BitVec 8)
  /-- LDC_CLUSTER (R280). -/
  | ldcCluster (d : BitVec 8) (b : BitVec 8) (o : BitVec 8)
  /-- LDC_DIE (R280). -/
  | ldcDie (d : BitVec 8) (b : BitVec 8) (o : BitVec 8)
  /-- LDC_PARTITION (R280). -/
  | ldcPartition (d : BitVec 8) (b : BitVec 8) (o : BitVec 8)
  /-- LDC_DEVICE (R280). -/
  | ldcDevice (d : BitVec 8) (b : BitVec 8) (o : BitVec 8)
  /-- LDC_SYSTEM (R280). -/
  | ldcSystem (d : BitVec 8) (b : BitVec 8) (o : BitVec 8)
  /-- ATOM_ADD (R286). -/
  | atomAdd (d : BitVec 8) (a : BitVec 8) (b : BitVec 8)
  /-- ATOM_MIN (R286). -/
  | atomMin (d : BitVec 8) (a : BitVec 8) (b : BitVec 8)
  /-- ATOM_MAX (R286). -/
  | atomMax (d : BitVec 8) (a : BitVec 8) (b : BitVec 8)
  /-- ATOM_AND (R286). -/
  | atomAnd (d : BitVec 8) (a : BitVec 8) (b : BitVec 8)
  /-- ATOM_OR (R286). -/
  | atomOr (d : BitVec 8) (a : BitVec 8) (b : BitVec 8)
  /-- ATOM_XOR (R286). -/
  | atomXor (d : BitVec 8) (a : BitVec 8) (b : BitVec 8)
  /-- ATOM_XCHG (R286). -/
  | atomXchg (d : BitVec 8) (a : BitVec 8) (b : BitVec 8)
  /-- ATOM_CAS (R286). -/
  | atomCas (d : BitVec 8) (a : BitVec 8) (b : BitVec 8)
  /-- ATOM_FADD (R286). -/
  | atomFadd (d : BitVec 8) (a : BitVec 8) (b : BitVec 8)
  /-- FENCE (R288). -/
  | fence (s : BitVec 3)
  /-- INV_RANGE (R291). -/
  | invRange (a : BitVec 8) (b : BitVec 8)
  /-- WB_RANGE (R290). -/
  | wbRange (a : BitVec 8) (b : BitVec 8)
  /-- SDEC (R165). -/
  | sdec (d : BitVec 6) (a : BitVec 6) (b : BitVec 6)
  /-- SENC (R165). -/
  | senc (d : BitVec 6) (a : BitVec 6) (b : BitVec 6)
  /-- SERR (R166). -/
  | serr (d : BitVec 6) (a : BitVec 6) (b : BitVec 6)
  /-- SBLK (R167). -/
  | sblk (d : BitVec 6) (a : BitVec 6) (b : BitVec 6)
  /-- CPY (R325). -/
  | cpy (d : BitVec 8) (a : BitVec 8) (b : BitVec 8)
  /-- CPYM (R329). -/
  | cpym (d : BitVec 8) (a : BitVec 8) (b : BitVec 8)
  /-- CPYX (R325). -/
  | cpyx (d : BitVec 8) (a : BitVec 8) (b : BitVec 8)
  /-- SEAL (R327). -/
  | seal
  /-- WAITB (R328). -/
  | waitb (s : BitVec 3) (n : BitVec 16)
  /-- DICT_LD (R331). -/
  | dictLd (k : BitVec 1) (a : BitVec 8)
  /-- CPY_RES (R337). -/
  | cpyRes
  /-- CPY_RES_ABANDON (R337). -/
  | cpyResAbandon
  /-- SPAWN (R253). -/
  | spawn (d : BitVec 8) (a : BitVec 8) (b : BitVec 8)
  /-- REBIN (R253). -/
  | rebin (d : BitVec 8) (b : BitVec 8)
  /-- FLOE_DEF (R293). -/
  | floeDef (n : BitVec 6) (a : BitVec 8) (b : BitVec 8)
  /-- FLOE_REL (R293). -/
  | floeRel (n : BitVec 6)
  /-- FLOE_ST (R293). -/
  | floeSt (d : BitVec 8) (n : BitVec 6)
  /-- BAR_ARR (R294). -/
  | barArr (n : BitVec 4)
  /-- BAR_WAIT (R294). -/
  | barWait (n : BitVec 4)
  /-- BAR_SYNC (R294). -/
  | barSync (n : BitVec 4)
  /-- TLWAIT (R296). -/
  | tlwait (s : BitVec 3) (t : BitVec 1) (r : BitVec 1) (n : BitVec 16)
  /-- TLRD (R296). -/
  | tlrd (t : BitVec 1) (d : BitVec 5) (w : BitVec 1)
  /-- PEEK (R366). -/
  | peek (d : BitVec 8) (a : BitVec 8) (b : BitVec 8)
  /-- POKE (R366). -/
  | poke (d : BitVec 8) (a : BitVec 8) (b : BitVec 8)
  /-- STEP (R367). -/
  | stepLane (x : BitVec 5) (m : BitVec 5)
  /-- STEP_RUN (R367). -/
  | stepRun (x : BitVec 5) (m : BitVec 5)
  /-- STEP_HALT (R367). -/
  | stepHalt (x : BitVec 5) (m : BitVec 5)
  /-- RIMEW (R368). -/
  | rimew (r : BitVec 2) (n : BitVec 4) (a : BitVec 8) (b : BitVec 8)
  /-- SAMP (R371). -/
  | samp (k : BitVec 5)
  /-- MNOP (R316). -/
  | mnop
  /-- MEND (R313). -/
  | mend
  /-- MEND_GO (R313). -/
  | mendGo
  /-- MJMP (R316). -/
  | mjmp (o : BitVec 23)
  /-- MLOOP (R316). -/
  | mloop (x : BitVec 3) (o : BitVec 23)
  /-- MBAR_ARR (R315). -/
  | mbarArr (n : BitVec 4)
  /-- MBAR_WAIT (R315). -/
  | mbarWait (n : BitVec 4)
  /-- MFENCE (R314). -/
  | mfence
  /-- MMODE (R304). -/
  | mmode (t : BitVec 4)
  /-- MREC_LD (R303). -/
  | mrecLd (q : BitVec 4) (s : BitVec 1) (x : BitVec 1) (n : BitVec 6) (p : BitVec 13)
  /-- MREC_SC (R303). -/
  | mrecSc (q : BitVec 4) (s : BitVec 1) (x : BitVec 1) (n : BitVec 6) (p : BitVec 13)
  /-- MZERO (R312). -/
  | mzero (c : BitVec 4)
  /-- MMA (R306). -/
  | mma (c : BitVec 4) (a : BitVec 4) (b : BitVec 4)
  /-- MMA_SP (R311). -/
  | mmaSp (c : BitVec 4) (a : BitVec 4) (b : BitVec 4) (m : BitVec 4)
  /-- XADD (R317). -/
  | xadd (d : BitVec 3) (a : BitVec 3) (s : BitVec 1) (i : BitVec 19)
  /-- XSUB (R317). -/
  | xsub (d : BitVec 3) (a : BitVec 3) (s : BitVec 1) (i : BitVec 19)
  /-- XMUL (R317). -/
  | xmul (d : BitVec 3) (a : BitVec 3) (s : BitVec 1) (i : BitVec 19)
  /-- XSHL (R317). -/
  | xshl (d : BitVec 3) (a : BitVec 3) (s : BitVec 1) (i : BitVec 19)
  /-- XSHR (R317). -/
  | xshr (d : BitVec 3) (a : BitVec 3) (s : BitVec 1) (i : BitVec 19)
  /-- XAND (R317). -/
  | xand (d : BitVec 3) (a : BitVec 3) (s : BitVec 1) (i : BitVec 19)
  /-- XIOR (R317). -/
  | xior (d : BitVec 3) (a : BitVec 3) (s : BitVec 1) (i : BitVec 19)
  /-- XXOR (R317). -/
  | xxor (d : BitVec 3) (a : BitVec 3) (s : BitVec 1) (i : BitVec 19)
  /-- XLI (R317). -/
  | xli (d : BitVec 3) (i : BitVec 23)
  /-- MATRIX_OPERATION_START (R308). -/
  | matrixOperationStart (core : Nat)
  /-- MATRIX_OPERATION_COMPLETE (R306). -/
  | matrixOperationComplete (core : Nat)
  /-- REG (R85). -/
  | regTaken (core line : Nat)
  /-- GRANT (R85). -/
  | grant (core line : Nat)
  /-- FWD (R88). -/
  | fwdRead (core line : Nat)
  /-- RECALL (R85). -/
  | recall (core line : Nat)
  /-- DATA (R85). -/
  | dataAnswer (core line : Nat)
  /-- WB (R87). -/
  | wbTaken (core line : Nat)
  /-- HOME_READ (R88); `fails` says that the line fails its check in memory (03 R81; log entry 14). -/
  | homeRead (core line : Nat) (fails : Bool)
  /-- FILL_REPLY (R95). -/
  | fillReply (core line : Nat)
  /-- ATOMIC_AT_HOME (R102). -/
  | atomicAtHome (core line : Nat)
  /-- GROUP_FILL_COMPLETE (R159). -/
  | groupFillComplete (base : Nat)
  /-- PORT_REQUEST (R76). -/
  | portRequest (core line : Nat)
  /-- LDX_REPLY (R283): with `send` the lane sends its reads, without it its reply is written. -/
  | ldxReply (uid slot id lane : Nat) (send : Bool)
  /-- DEPOSIT (R189). -/
  | deposit (uid slot : Nat)
  /-- BIN_LAUNCH (R191). -/
  | binLaunch (uid : Nat)
  /-- COPY_CHUNK (R326). -/
  | copyChunk (uid id : Nat)
  /-- TRAP_ENTRY (R342). -/
  | trapEntry (uid slot : Nat)
  /-- WALK (R35). -/
  | walkPage (die : Nat)
  /-- CLK (R213). -/
  | clkTick (ns : Nat)
  /-- MULTICAST_LANDING (R329). -/
  | multicastLanding (uid id recv : Nat)
  /-- PIN (R72). -/
  | pin (line : Nat)
  /-- LOST_REGISTRANT (R99). -/
  | lostRegistrant (core : Nat)
  /-- DEPART (R160). -/
  | depart (base : Nat)
  /-- HOST_READ (R373). -/
  | hostRead (addr len : Nat)
  /-- HOST_WRITE (R373). -/
  | hostWrite (addr : Nat) (bytes : List Byte)
  /-- HOST_ATOMICOP (R373). -/
  | hostAtomicop (addr size op : Nat) (x y : Word)
  /-- HOST_OWNERSHIP (R100). -/
  | hostOwnership (half : Nat)
  /-- HOST_READ_SHARED (R100). -/
  | hostReadShared (half : Nat)
  /-- PROBE (R101). -/
  | probe (core line tag : Nat)
  /-- HOST_INVALIDATE (R95). -/
  | hostInvalidate (line : Nat)
  /-- REMOTE_REQUEST (R375). -/
  | remoteRequest (write : Bool) (addr len : Nat) (bytes : List Byte)
  /-- PEER_TIMEOUT (R375). -/
  | peerTimeout (port lostWrites : Nat)
  /-- EXPANDER_REMOVED (R374). -/
  | expanderRemoved (port : Nat)
  /-- TOKEN_REFILL (R76). -/
  | tokenRefill
  /-- BWTOK_RESET (R184). -/
  | bwtokReset
  /-- REFRESH (R78). -/
  | refresh (stack bank : Nat)
  /-- CONVERSION_COMPLETE (R62). -/
  | conversionComplete (core : Nat)
  /-- BIN_TIMER_EXPIRY (R190). -/
  | binTimerExpiry (uid bin : Nat)
  /-- CHUNK_FAULT (R336). -/
  | chunkFault (uid id : Nat)
  /-- DICT_TABLE_LOADED (R331). -/
  | dictTableLoaded (uid id : Nat)
  /-- PREEMPT_DEADLINE (R348). -/
  | preemptDeadline (uid : Nat)
  /-- SAVE (R349). -/
  | saveStand (uid : Nat)
  /-- RESTORE (R352). -/
  | restoreStand (uid : Nat)
  /-- DISPATCHER_PREEMPT (R346). -/
  | dispatcherPreempt (part clnum : Nat)
  /-- DRIFT_INTERVAL (R193). -/
  | driftInterval (cluster : Nat) (temps : List Nat)
  /-- DRIFT_SWAP (R193). -/
  | driftSwap (cluster : Nat)
  /-- HOST_LAUNCH (R200). -/
  | hostLaunch (agent : Agent) (part : Nat) (value : Word)
  /-- BATCH_SEND (R203). -/
  | batchSend
  /-- PLACEMENT (R205). -/
  | placement (die : Nat)
  /-- BATCH_RETURN (R204). -/
  | batchReturn (die : Nat)
  /-- FREE_SLOT_REPORT (R202). -/
  | freeSlotReport (die : Nat)
  /-- TLBI_ALL (R40). -/
  | tlbiAll (agent : Agent) (part : Nat)
  /-- TLBI_ASID (R40). -/
  | tlbiAsid (agent : Agent) (part : Nat)
  /-- TLBI_PAGE (R40). -/
  | tlbiPage (agent : Agent) (part : Nat)
  /-- TLBI_PAGE_ALL_ASID (R40). -/
  | tlbiPageAllAsid (agent : Agent) (part : Nat)
  /-- TLBI_COMPLETE (R40). -/
  | tlbiComplete (part : Nat)
  /-- WINDOW_ENABLE (R50). -/
  | windowEnable (agent : Agent) (n : Nat) (value : Word)
  /-- WINDOW_DISABLE (R53). -/
  | windowDisable (agent : Agent) (n : Nat)
  /-- WINDOW_DISABLE_DONE (R53). -/
  | windowDisableDone (n : Nat)
  /-- PREEMPT_SET (R347). -/
  | preemptSet (agent : Agent) (part clnum : Nat) (sub : Bool)
  /-- PREEMPT_CLEAR (R347). -/
  | preemptClear (agent : Agent) (part clnum : Nat) (sub : Bool)
  /-- PREEMPT_FORCE (R347). -/
  | preemptForce (agent : Agent) (part clnum : Nat) (sub : Bool)
  /-- OCC_CLEAR (R214). -/
  | occClear (agent : Agent) (part : Nat)
  /-- PROBEMIS_READ (R101). -/
  | probemisRead (agent : Agent) (part : Nat)
  /-- LAUNCHST_READ (R200). -/
  | launchstRead (agent : Agent) (part : Nat)
  /-- ERRCNT_READ (R376). -/
  | errcntRead (agent : Agent)
  /-- XFERCNT_READ (R376). -/
  | xfercntRead (agent : Agent)
  /-- MDROP_READ (R376). -/
  | mdropRead (agent : Agent)
  /-- TRACEPTR_WRITE (R369). -/
  | traceptrWrite (agent : Agent) (part : Nat) (value : Word)
  /-- OWNER_CLAIM (R380). -/
  | ownerClaim (ids : List Nat)
  /-- OWNER_NEXT (R380). -/
  | ownerNext (agent : Agent) (next : Nat)
  /-- OWNER_TIMEOUT (R380). -/
  | ownerTimeout
  /-- PARTITION_CREATE (R381). -/
  | partitionCreate (agent : Agent) (part halves : Nat)
  /-- PARTITION_RESET (R381). -/
  | partitionReset (agent : Agent) (part : Nat)
  /-- PARTITION_REMOVE (R381). -/
  | partitionRemove (agent : Agent) (part : Nat)
  /-- PARTITION_OP_COMPLETE (R381). -/
  | partitionOpComplete (part : Nat)
  /-- POWER_UP (R377). -/
  | powerUp
  /-- FIRMWARE_START (R377). -/
  | firmwareStart (value : Word)
  /-- FIRMWARE_VERIFIED (R377). -/
  | firmwareVerified (keyOk sigOk versionOk : Bool)
  /-- LIVE_UPDATE (R379). -/
  | liveUpdate (value : Word)
  /-- RECALIBRATE (R382). -/
  | recalibrate (agent : Agent) (stack : Nat)
  /-- RETIRE_CORE (R382). -/
  | retireCore (agent : Agent) (core : Nat)
  /-- RETIRE_CHANNEL (R382). -/
  | retireChannel (agent : Agent) (channel : Nat)
  /-- READ_COUNTERS (R382). -/
  | readCounters (agent : Agent)
  /-- FATAL_ERROR (R383). -/
  | fatalError (cause : Nat)
  /-- THROTTLE_EVENT (R384). -/
  | throttleEvent (die kind newState : Nat)
  /-- POWER_WINDOW_END (R371). -/
  | powerWindowEnd (part : Nat)
  /-- REGISTER_WRITE (R55). -/
  | registerWrite (agent : Agent) (addr size : Nat) (value : Word)
  /-- HOST_LINK_ACKNOWLEDGE (R92). -/
  | hostLinkAcknowledge (status : Nat)
  /-- HOST_RECALL_DATA (R100). -/
  | hostRecallData (half : Nat) (bytes : List Byte)
  /-- SERVICE_OPERATION_COMPLETE (R382). -/
  | serviceOperationComplete
deriving DecidableEq, Repr, Inhabited

/-- A debug operation that reaches the device through the management core (17 R363): what `peek`, `poke`, `step`, `step.run`,
`step.halt` and `rimew` do. -/
inductive DbgOp where
  | peek (target selector : Word)
  | poke (target selector value : Word)
  | step (target which : Word)
  | run (target : Word)
  | halt (target : Word)
  | rimew (target : Word) (number register : Nat) (value : Word)
deriving DecidableEq, Repr, Inhabited

/-- What comes from outside the rows of the opcode table. -/
inductive Input where
  /-- firmware loads memory, or a device register (05 R104) -/
  | firmwareLoad (addr len : Nat)
  /-- firmware stores to memory (05 R104) -/
  | firmwareStore (addr : Nat) (bytes : List Byte)
  /-- the host stores to its own memory (05 R126) -/
  | hostStore (addr : Nat) (bytes : List Byte)
  /-- bits of a memory line change, so that its check fails at its next read (03 R81; log entry 14) -/
  | corrupt (line : Nat)
  /-- firmware sets granules' entries of its key table (03 R79) -/
  | granuleKey (granule count key : Nat)
  /-- firmware sets MAXOPEN of the controllers whose stacks it recalibrates (03 R78; 18 R378) -/
  | maxOpen (n : Nat)
  /-- at power-up the expander of a second-tier port reports its capacity, 0 when it fails training (18 R374) -/
  | expander (port bytes : Nat)
  /-- the module's power in W is measured (18 R384) -/
  | power (watts : Nat)
  /-- an agent that is no grove reads a register: 4 or 8 bytes (02 R38, R55; 18 R373, R376, R380) -/
  | regRead (agent : Agent) (addr size : Nat)
  /-- a master or firmware reads a word of the mailbox's data area (18 R376, R382) -/
  | mboxRead (agent : Agent) (index : Nat)
  /-- system software writes the staging window, at an offset (18 R377) -/
  | stagingWrite (offset : Nat) (bytes : List Byte)
  /-- system software reads the staging window (18 R377) -/
  | stagingRead (offset len : Nat)
  /-- an atomic of another module: an operation of 13 R286 on an element of this module's memory (13 R287; 18 R375) -/
  | remoteAtomic (op addr size : Nat) (x y : Word) (type rnd : Nat)
  /-- an offset between two counters of TIME is measured: 0 to 5 for a pair of dies, 8 + q for the peer on port q (17 R372) -/
  | skew (pair : Nat) (offset : BitVec 40)
  /-- the owner or firmware debugs a stand of a partition (17 R363) -/
  | debug (agent : Agent) (part : Nat) (op : DbgOp)
deriving DecidableEq, Repr, Inhabited

/-- Who moves next (model's own scheduling data; log entry 3). -/
inductive Turn where
  /-- grove `slot` of stand `uid` goes on with its instruction, or starts its next one when a port takes it -/
  | grove (uid slot : Nat)
  /-- the core's issue ports choose a ready grove (09 R211) -/
  | issue (core : Nat)
  /-- the matrix sequencer of stand `uid` runs its next word (14 R298) -/
  | seq (uid : Nat)
  /-- a step of the device or an input from outside comes about -/
  | event (i : Instr)
  /-- another input comes about -/
  | input (i : Input)
deriving DecidableEq, Repr, Inhabited

end Sys2Proof
end

