-- ==== Sys2Proof/Machine/Operands.lean ====
section
/-! DEFINITION. Element types, operand bytes, their classes, and the checks a word passes before it acts
(10 R218 to R223). -/

namespace Sys2Proof

/-- The width in bits of an element of MODE.TYPE (10 R224; 06 R129). -/
def typeBits (t : Nat) : Nat :=
  match t with
  | 0 => 8 | 1 => 16 | 2 => 32 | 3 => 64
  | 4 => 8 | 5 => 16 | 6 => 32 | 7 => 64
  | 8 => 16 | 9 => 16 | 10 => 32 | 11 => 64
  | 12 => 8 | 13 => 8 | 14 => 4
  | _ => 64

/-- Elements per 64-bit register (10 R230). -/
def typeCount (t : Nat) : Nat := 64 / typeBits t

/-- Signed integer types. -/
def typeSigned (t : Nat) : Bool := decide (t < 4)

/-- i8 to n64 (11 R237, Int). -/
def intTypes : List Nat := List.range 8

/-- f16, bf16, f32, f64 (12 R258). -/
def floatTypes : List Nat := [8, 9, 10, 11]

/-- Whether a type is one of f16, bf16, f32, f64. -/
def isFloat (t : Nat) : Bool := decide (8 ≤ t ∧ t ≤ 11)

/-- The scale of an M-format offset: i4x counts 1 (13 R276). -/
def esize (t : Nat) : Nat := if t = 14 then 1 else typeBits t / 8

/-- Operand classes (10 R219); `vreg`, `vsrcImm`, `geom` and `scalar` are the narrower sets of 07 R164, 11 R253,
12 R266, 13 R282 and 11 R250, R255. -/
inductive Cls where
  | vsrc | vdst | vreg | vsrcImm | geom | base | usrc | udst | scalar | pred | mask | tile
deriving DecidableEq, Repr

/-- The width codes a byte admits: any; one code; that of another byte or a special source, which has no width of its
own and supplies every element of the other byte's group (01 R20, 11 R236; log entry 88 for 12 R270, R272, R274). -/
inductive Widths where
  | any
  | one (c : Nat)
  | like (d : BitVec 8)
deriving DecidableEq, Repr

structure Opd where
  byte : BitVec 8
  cls : Cls
  widths : Widths
deriving DecidableEq, Repr

/-- Width code and register number of an operand byte (10 R218). -/
def opCode (b : BitVec 8) : Nat := b.toNat / 64
def opNum (b : BitVec 8) : Nat := b.toNat % 64
/-- Registers of the group a byte names. -/
def opW (b : BitVec 8) : Nat := 2 ^ opCode b

/-- The register numbers of a class (10 R219). -/
def Cls.admits (c : Cls) (n : Nat) : Bool :=
  match c with
  | .vsrc => true
  | .vdst => decide (n ≤ 56)
  | .vreg => decide (n ≤ 55)
  | .vsrcImm => decide (n ≠ 57 ∧ n ≠ 59)
  | .geom => decide (n = 58 ∨ 60 ≤ n)
  | .base => decide (n ≤ 55 ∨ 60 ≤ n)
  | .usrc => decide (n ≤ 31 ∨ n = 56 ∨ n = 58)
  | .udst => decide (n ≤ 31)
  | .scalar => decide (n ≤ 31)
  | .pred => decide (n ≤ 7)
  | .mask => decide (n ≤ 7)
  | .tile => decide (n ≤ 15)

/-- Whether a class names vector registers. -/
def Cls.isVec (c : Cls) : Bool :=
  match c with
  | .vsrc | .vdst | .vreg | .vsrcImm | .base => true
  | .geom | .usrc | .udst | .scalar | .pred | .mask | .tile => false

/-- Whether a class takes special sources 56 to 63 (10 R218). -/
def Cls.hasSpecial (c : Cls) : Bool :=
  match c with
  | .vsrc | .vdst | .vreg | .vsrcImm | .base | .geom => true
  | .usrc | .udst | .scalar | .pred | .mask | .tile => false

/-- The width code is admitted (10 R218, R219, 0x03). -/
def Opd.widthOk (o : Opd) : Bool :=
  (match o.widths with
   | .any => true
   | .one c => opCode o.byte == c
   | .like d => opCode o.byte == opCode d || (opCode o.byte == 0 && decide (56 ≤ opNum o.byte))) &&
  !(o.cls.hasSpecial && decide (56 ≤ opNum o.byte) && opCode o.byte != 0)

/-- The group is aligned and ends at v55 at most (10 R218, 0x04). -/
def Opd.groupOk (o : Opd) : Bool :=
  !o.cls.isVec || decide (56 ≤ opNum o.byte) ||
    (opNum o.byte % opW o.byte == 0 && decide (opNum o.byte + opW o.byte ≤ 56))

/-- The number lies in the class (10 R219, 0x05). -/
def Opd.classOk (o : Opd) : Bool := o.cls.admits (opNum o.byte)

/-- The byte names `imm` in a class that admits it (01 R21; log entry 25). -/
def Opd.isImm (o : Opd) : Bool := opNum o.byte == 58 && o.cls.admits 58

/-- Access of a register number of 11 R244: 0 unlisted, 1 read only, 2 read and write. -/
def csrKind (n : Nat) : Nat :=
  if n = 0 ∨ n = 1 ∨ n = 0x20 ∨ n = 0x31 then 2
  else if n = 2 ∨ n = 3 ∨ (0x10 ≤ n ∧ n ≤ 0x19) ∨ n = 0x30 ∨ n = 0x32 ∨ n = 0x33 ∨ n = 0x40 then 1
  else 0

/-- The operand bytes an instruction names, with their classes and widths (10 R219 and the instruction's own rule). -/
def Instr.operands (i : Instr) : List Opd :=
  match i with
  | .nop => []
  | .pfx _ => []
  | .bra _ => []
  | .brcAny _ _ _ => []
  | .brcAll _ _ _ => []
  | .brcNone _ _ _ => []
  | .brd _ _ _ => []
  | .join _ => []
  | .call _ => []
  | .ret => []
  | .jmpi a => [⟨a, .scalar, .one 0⟩]
  | .exitG => []
  | .yield => []
  | .brk _ => []
  | .trap _ => []
  | .eret => []
  | .eretReplay => []
  | .launch d a => [⟨d, .udst, .one 0⟩, ⟨a, .scalar, .one 0⟩]
  | .phase _ => []
  | .mode _ _ _ _ _ => []
  | .csrr _ _ => []
  | .csrw _ _ => []
  | .bound _ => []
  | .add d a b => [⟨d, .vdst, .any⟩, ⟨a, .vsrc, .like d⟩, ⟨b, .vsrc, .like d⟩]
  | .sub d a b => [⟨d, .vdst, .any⟩, ⟨a, .vsrc, .like d⟩, ⟨b, .vsrc, .like d⟩]
  | .mul d a b => [⟨d, .vdst, .any⟩, ⟨a, .vsrc, .like d⟩, ⟨b, .vsrc, .like d⟩]
  | .mulh d a b => [⟨d, .vdst, .any⟩, ⟨a, .vsrc, .like d⟩, ⟨b, .vsrc, .like d⟩]
  | .mad d a b => [⟨d, .vdst, .any⟩, ⟨a, .vsrc, .like d⟩, ⟨b, .vsrc, .like d⟩]
  | .shl d a b => [⟨d, .vdst, .any⟩, ⟨a, .vsrc, .like d⟩, ⟨b, .vsrc, .like d⟩]
  | .shr d a b => [⟨d, .vdst, .any⟩, ⟨a, .vsrc, .like d⟩, ⟨b, .vsrc, .like d⟩]
  | .sra d a b => [⟨d, .vdst, .any⟩, ⟨a, .vsrc, .like d⟩, ⟨b, .vsrc, .like d⟩]
  | .fshl d a b => [⟨d, .vdst, .any⟩, ⟨a, .vsrc, .like d⟩, ⟨b, .vsrc, .like d⟩]
  | .fshr d a b => [⟨d, .vdst, .any⟩, ⟨a, .vsrc, .like d⟩, ⟨b, .vsrc, .like d⟩]
  | .andV d a b => [⟨d, .vdst, .any⟩, ⟨a, .vsrc, .like d⟩, ⟨b, .vsrc, .like d⟩]
  | .orV d a b => [⟨d, .vdst, .any⟩, ⟨a, .vsrc, .like d⟩, ⟨b, .vsrc, .like d⟩]
  | .xorV d a b => [⟨d, .vdst, .any⟩, ⟨a, .vsrc, .like d⟩, ⟨b, .vsrc, .like d⟩]
  | .andn d a b => [⟨d, .vdst, .any⟩, ⟨a, .vsrc, .like d⟩, ⟨b, .vsrc, .like d⟩]
  | .notV d a => [⟨d, .vdst, .any⟩, ⟨a, .vsrc, .like d⟩]
  | .popc d a => [⟨d, .vdst, .any⟩, ⟨a, .vsrc, .like d⟩]
  | .clz d a => [⟨d, .vdst, .any⟩, ⟨a, .vsrc, .like d⟩]
  | .ctz d a => [⟨d, .vdst, .any⟩, ⟨a, .vsrc, .like d⟩]
  | .brev d a => [⟨d, .vdst, .any⟩, ⟨a, .vsrc, .like d⟩]
  | .bfx d a b => [⟨d, .vdst, .any⟩, ⟨a, .vsrc, .like d⟩, ⟨b, .vsrc, .like d⟩]
  | .bfi d a b => [⟨d, .vdst, .any⟩, ⟨a, .vsrc, .like d⟩, ⟨b, .vsrc, .like d⟩]
  | .minV d a b => [⟨d, .vdst, .any⟩, ⟨a, .vsrc, .like d⟩, ⟨b, .vsrc, .like d⟩]
  | .maxV d a b => [⟨d, .vdst, .any⟩, ⟨a, .vsrc, .like d⟩, ⟨b, .vsrc, .like d⟩]
  | .absV d a => [⟨d, .vdst, .any⟩, ⟨a, .vsrc, .like d⟩]
  | .negV d a => [⟨d, .vdst, .any⟩, ⟨a, .vsrc, .like d⟩]
  | .sel d a b => [⟨d, .vdst, .any⟩, ⟨a, .vsrc, .like d⟩, ⟨b, .vsrc, .like d⟩]
  | .cmpEq d a b => [⟨d, .pred, .one 0⟩, ⟨a, .vsrc, .any⟩, ⟨b, .vsrc, .like a⟩]
  | .cmpNe d a b => [⟨d, .pred, .one 0⟩, ⟨a, .vsrc, .any⟩, ⟨b, .vsrc, .like a⟩]
  | .cmpLt d a b => [⟨d, .pred, .one 0⟩, ⟨a, .vsrc, .any⟩, ⟨b, .vsrc, .like a⟩]
  | .cmpLe d a b => [⟨d, .pred, .one 0⟩, ⟨a, .vsrc, .any⟩, ⟨b, .vsrc, .like a⟩]
  | .cmpGt d a b => [⟨d, .pred, .one 0⟩, ⟨a, .vsrc, .any⟩, ⟨b, .vsrc, .like a⟩]
  | .cmpGe d a b => [⟨d, .pred, .one 0⟩, ⟨a, .vsrc, .any⟩, ⟨b, .vsrc, .like a⟩]
  | .li d _ => [⟨d, .vdst, .any⟩]
  | .lih d _ => [⟨d, .vdst, .any⟩]
  | .movV d a => [⟨d, .vdst, .any⟩, ⟨a, .vsrc, .like d⟩]
  | .lea1 d a b => [⟨d, .vdst, .one 0⟩, ⟨a, .vsrc, .one 0⟩, ⟨b, .vsrc, .one 0⟩]
  | .lea2 d a b => [⟨d, .vdst, .one 0⟩, ⟨a, .vsrc, .one 0⟩, ⟨b, .vsrc, .one 0⟩]
  | .lea3 d a b => [⟨d, .vdst, .one 0⟩, ⟨a, .vsrc, .one 0⟩, ⟨b, .vsrc, .one 0⟩]
  | .sadd d a b => [⟨d, .udst, .one 0⟩, ⟨a, .usrc, .one 0⟩, ⟨b, .usrc, .one 0⟩]
  | .ssub d a b => [⟨d, .udst, .one 0⟩, ⟨a, .usrc, .one 0⟩, ⟨b, .usrc, .one 0⟩]
  | .smul d a b => [⟨d, .udst, .one 0⟩, ⟨a, .usrc, .one 0⟩, ⟨b, .usrc, .one 0⟩]
  | .sshl d a b => [⟨d, .udst, .one 0⟩, ⟨a, .usrc, .one 0⟩, ⟨b, .usrc, .one 0⟩]
  | .sshr d a b => [⟨d, .udst, .one 0⟩, ⟨a, .usrc, .one 0⟩, ⟨b, .usrc, .one 0⟩]
  | .ssra d a b => [⟨d, .udst, .one 0⟩, ⟨a, .usrc, .one 0⟩, ⟨b, .usrc, .one 0⟩]
  | .sand d a b => [⟨d, .udst, .one 0⟩, ⟨a, .usrc, .one 0⟩, ⟨b, .usrc, .one 0⟩]
  | .sor d a b => [⟨d, .udst, .one 0⟩, ⟨a, .usrc, .one 0⟩, ⟨b, .usrc, .one 0⟩]
  | .sxor d a b => [⟨d, .udst, .one 0⟩, ⟨a, .usrc, .one 0⟩, ⟨b, .usrc, .one 0⟩]
  | .smov d a => [⟨d, .udst, .one 0⟩, ⟨a, .usrc, .one 0⟩]
  | .fadd d a b => [⟨d, .vdst, .any⟩, ⟨a, .vsrc, .like d⟩, ⟨b, .vsrc, .like d⟩]
  | .fsub d a b => [⟨d, .vdst, .any⟩, ⟨a, .vsrc, .like d⟩, ⟨b, .vsrc, .like d⟩]
  | .fmul d a b => [⟨d, .vdst, .any⟩, ⟨a, .vsrc, .like d⟩, ⟨b, .vsrc, .like d⟩]
  | .fma d a b => [⟨d, .vdst, .any⟩, ⟨a, .vsrc, .like d⟩, ⟨b, .vsrc, .like d⟩]
  | .fnma d a b => [⟨d, .vdst, .any⟩, ⟨a, .vsrc, .like d⟩, ⟨b, .vsrc, .like d⟩]
  | .fmin d a b => [⟨d, .vdst, .any⟩, ⟨a, .vsrc, .like d⟩, ⟨b, .vsrc, .like d⟩]
  | .fmax d a b => [⟨d, .vdst, .any⟩, ⟨a, .vsrc, .like d⟩, ⟨b, .vsrc, .like d⟩]
  | .fabs d a => [⟨d, .vdst, .any⟩, ⟨a, .vsrc, .like d⟩]
  | .fneg d a => [⟨d, .vdst, .any⟩, ⟨a, .vsrc, .like d⟩]
  | .fcmpEq d a b => [⟨d, .pred, .one 0⟩, ⟨a, .vsrc, .any⟩, ⟨b, .vsrc, .like a⟩]
  | .fcmpNe d a b => [⟨d, .pred, .one 0⟩, ⟨a, .vsrc, .any⟩, ⟨b, .vsrc, .like a⟩]
  | .fcmpLt d a b => [⟨d, .pred, .one 0⟩, ⟨a, .vsrc, .any⟩, ⟨b, .vsrc, .like a⟩]
  | .fcmpLe d a b => [⟨d, .pred, .one 0⟩, ⟨a, .vsrc, .any⟩, ⟨b, .vsrc, .like a⟩]
  | .fcmpGt d a b => [⟨d, .pred, .one 0⟩, ⟨a, .vsrc, .any⟩, ⟨b, .vsrc, .like a⟩]
  | .fcmpGe d a b => [⟨d, .pred, .one 0⟩, ⟨a, .vsrc, .any⟩, ⟨b, .vsrc, .like a⟩]
  | .fcmpUn d a b => [⟨d, .pred, .one 0⟩, ⟨a, .vsrc, .any⟩, ⟨b, .vsrc, .like a⟩]
  | .fclass d a => [⟨d, .vdst, .any⟩, ⟨a, .vsrc, .like d⟩]
  | .fdiv d a b => [⟨d, .vdst, .any⟩, ⟨a, .vsrc, .like d⟩, ⟨b, .vsrc, .like d⟩]
  | .fsqrt d a => [⟨d, .vdst, .any⟩, ⟨a, .vsrc, .like d⟩]
  | .frcp d a => [⟨d, .vdst, .any⟩, ⟨a, .vsrc, .like d⟩]
  | .frsq d a => [⟨d, .vdst, .any⟩, ⟨a, .vsrc, .like d⟩]
  | .exp2 d a => [⟨d, .vdst, .any⟩, ⟨a, .vsrc, .like d⟩]
  | .log2 d a => [⟨d, .vdst, .any⟩, ⟨a, .vsrc, .like d⟩]
  | .sinpi d a => [⟨d, .vdst, .any⟩, ⟨a, .vsrc, .like d⟩]
  | .cospi d a => [⟨d, .vdst, .any⟩, ⟨a, .vsrc, .like d⟩]
  | .cvtF d a _ => [⟨d, .vdst, .any⟩, ⟨a, .vsrc, .any⟩]
  | .cvtI d a _ => [⟨d, .vdst, .any⟩, ⟨a, .vsrc, .any⟩]
  | .cvt8Sat d a _ => [⟨d, .vdst, .any⟩, ⟨a, .vsrc, .any⟩]
  | .cvt8Inf d a _ => [⟨d, .vdst, .any⟩, ⟨a, .vsrc, .any⟩]
  | .cvtq d a b => [⟨d, .vdst, .one 1⟩, ⟨a, .vsrc, .one 3⟩, ⟨b, .vsrcImm, .one 0⟩]
  | .cvtaSat d a b => [⟨d, .vdst, .any⟩, ⟨a, .tile, .one 0⟩, ⟨b, .vsrc, .one 0⟩]
  | .cvtaInf d a b => [⟨d, .vdst, .any⟩, ⟨a, .tile, .one 0⟩, ⟨b, .vsrc, .one 0⟩]
  | .fdot d a b => [⟨d, .vdst, .any⟩, ⟨a, .vsrc, .like d⟩, ⟨b, .vsrc, .like d⟩]
  | .fdot8 d a b => [⟨d, .vdst, .any⟩, ⟨a, .vsrc, .like d⟩, ⟨b, .vsrc, .like d⟩]
  | .shfl d a b => [⟨d, .vdst, .any⟩, ⟨a, .vsrc, .like d⟩, ⟨b, .vsrc, .one 0⟩]
  | .shflUp d a b => [⟨d, .vdst, .any⟩, ⟨a, .vsrc, .like d⟩, ⟨b, .vsrc, .one 0⟩]
  | .shflDn d a b => [⟨d, .vdst, .any⟩, ⟨a, .vsrc, .like d⟩, ⟨b, .vsrc, .one 0⟩]
  | .shflX d a b => [⟨d, .vdst, .any⟩, ⟨a, .vsrc, .like d⟩, ⟨b, .vsrc, .one 0⟩]
  | .bcast d a b => [⟨d, .vdst, .any⟩, ⟨a, .vsrc, .like d⟩, ⟨b, .vsrc, .one 0⟩]
  | .voteAny d a => [⟨d, .pred, .one 0⟩, ⟨a, .pred, .one 0⟩]
  | .voteAll d a => [⟨d, .pred, .one 0⟩, ⟨a, .pred, .one 0⟩]
  | .ballot d a => [⟨d, .mask, .one 0⟩, ⟨a, .pred, .one 0⟩]
  | .matchV d a => [⟨d, .vdst, .one 0⟩, ⟨a, .vsrc, .any⟩]
  | .redSum d a => [⟨d, .vdst, .any⟩, ⟨a, .vsrc, .like d⟩]
  | .redMin d a => [⟨d, .vdst, .any⟩, ⟨a, .vsrc, .like d⟩]
  | .redMax d a => [⟨d, .vdst, .any⟩, ⟨a, .vsrc, .like d⟩]
  | .redAnd d a => [⟨d, .vdst, .any⟩, ⟨a, .vsrc, .like d⟩]
  | .redOr d a => [⟨d, .vdst, .any⟩, ⟨a, .vsrc, .like d⟩]
  | .redXor d a => [⟨d, .vdst, .any⟩, ⟨a, .vsrc, .like d⟩]
  | .redmi d a => [⟨d, .vdst, .one 1⟩, ⟨a, .vsrc, .one 0⟩]
  | .redma d a => [⟨d, .vdst, .one 1⟩, ⟨a, .vsrc, .one 0⟩]
  | .scanAdd d a => [⟨d, .vdst, .any⟩, ⟨a, .vsrc, .like d⟩]
  | .perm d a b => [⟨d, .vdst, .one 0⟩, ⟨a, .vsrc, .one 0⟩, ⟨b, .vsrc, .one 0⟩]
  | .pack d a b => [⟨d, .vdst, .one 0⟩, ⟨a, .vsrc, .one 0⟩, ⟨b, .vsrc, .one 0⟩]
  | .unpack d a => [⟨d, .vdst, .one 1⟩, ⟨a, .vsrc, .one 0⟩]
  | .pand d a b => [⟨d, .pred, .one 0⟩, ⟨a, .pred, .one 0⟩, ⟨b, .pred, .one 0⟩]
  | .por d a b => [⟨d, .pred, .one 0⟩, ⟨a, .pred, .one 0⟩, ⟨b, .pred, .one 0⟩]
  | .pxor d a b => [⟨d, .pred, .one 0⟩, ⟨a, .pred, .one 0⟩, ⟨b, .pred, .one 0⟩]
  | .pnot d a => [⟨d, .pred, .one 0⟩, ⟨a, .pred, .one 0⟩]
  | .kpop d a => [⟨d, .udst, .one 0⟩, ⟨a, .mask, .one 0⟩]
  | .ld d b _ => [⟨d, .vdst, .any⟩, ⟨b, .base, .one 0⟩]
  | .st d b _ => [⟨d, .vsrc, .any⟩, ⟨b, .base, .one 0⟩]
  | .ldu d b _ => [⟨d, .vdst, .any⟩, ⟨b, .base, .one 0⟩]
  | .ldx d b f _ _ => [if f = 0 then ⟨d, .vdst, .any⟩ else ⟨d, .vsrcImm, .one 0⟩, ⟨b, .base, .one 0⟩]
  | .waita _ _ _ => []
  | .stm d a b => [⟨d, .vsrc, .any⟩, ⟨a, .base, .one 0⟩, ⟨b, .vsrc, .one 0⟩]
  | .lds d b _ => [⟨d, .vdst, .any⟩, ⟨b, .base, .one 0⟩]
  | .sts d b _ => [⟨d, .vsrc, .any⟩, ⟨b, .base, .one 0⟩]
  | .ldaGrove d b _ => [⟨d, .vdst, .one 0⟩, ⟨b, .base, .one 0⟩]
  | .ldaStand d b _ => [⟨d, .vdst, .one 0⟩, ⟨b, .base, .one 0⟩]
  | .ldaCluster d b _ => [⟨d, .vdst, .one 0⟩, ⟨b, .base, .one 0⟩]
  | .ldaDie d b _ => [⟨d, .vdst, .one 0⟩, ⟨b, .base, .one 0⟩]
  | .ldaPartition d b _ => [⟨d, .vdst, .one 0⟩, ⟨b, .base, .one 0⟩]
  | .ldaDevice d b _ => [⟨d, .vdst, .one 0⟩, ⟨b, .base, .one 0⟩]
  | .ldaSystem d b _ => [⟨d, .vdst, .one 0⟩, ⟨b, .base, .one 0⟩]
  | .stlGrove d b _ => [⟨d, .vsrc, .one 0⟩, ⟨b, .base, .one 0⟩]
  | .stlStand d b _ => [⟨d, .vsrc, .one 0⟩, ⟨b, .base, .one 0⟩]
  | .stlCluster d b _ => [⟨d, .vsrc, .one 0⟩, ⟨b, .base, .one 0⟩]
  | .stlDie d b _ => [⟨d, .vsrc, .one 0⟩, ⟨b, .base, .one 0⟩]
  | .stlPartition d b _ => [⟨d, .vsrc, .one 0⟩, ⟨b, .base, .one 0⟩]
  | .stlDevice d b _ => [⟨d, .vsrc, .one 0⟩, ⟨b, .base, .one 0⟩]
  | .stlSystem d b _ => [⟨d, .vsrc, .one 0⟩, ⟨b, .base, .one 0⟩]
  | .ldcGrove d b _ => [⟨d, .vdst, .one 0⟩, ⟨b, .base, .one 0⟩]
  | .ldcStand d b _ => [⟨d, .vdst, .one 0⟩, ⟨b, .base, .one 0⟩]
  | .ldcCluster d b _ => [⟨d, .vdst, .one 0⟩, ⟨b, .base, .one 0⟩]
  | .ldcDie d b _ => [⟨d, .vdst, .one 0⟩, ⟨b, .base, .one 0⟩]
  | .ldcPartition d b _ => [⟨d, .vdst, .one 0⟩, ⟨b, .base, .one 0⟩]
  | .ldcDevice d b _ => [⟨d, .vdst, .one 0⟩, ⟨b, .base, .one 0⟩]
  | .ldcSystem d b _ => [⟨d, .vdst, .one 0⟩, ⟨b, .base, .one 0⟩]
  | .atomAdd d a b => [⟨d, .vdst, .one 0⟩, ⟨a, .base, .one 0⟩, ⟨b, .vsrc, .one 0⟩]
  | .atomMin d a b => [⟨d, .vdst, .one 0⟩, ⟨a, .base, .one 0⟩, ⟨b, .vsrc, .one 0⟩]
  | .atomMax d a b => [⟨d, .vdst, .one 0⟩, ⟨a, .base, .one 0⟩, ⟨b, .vsrc, .one 0⟩]
  | .atomAnd d a b => [⟨d, .vdst, .one 0⟩, ⟨a, .base, .one 0⟩, ⟨b, .vsrc, .one 0⟩]
  | .atomOr d a b => [⟨d, .vdst, .one 0⟩, ⟨a, .base, .one 0⟩, ⟨b, .vsrc, .one 0⟩]
  | .atomXor d a b => [⟨d, .vdst, .one 0⟩, ⟨a, .base, .one 0⟩, ⟨b, .vsrc, .one 0⟩]
  | .atomXchg d a b => [⟨d, .vdst, .one 0⟩, ⟨a, .base, .one 0⟩, ⟨b, .vsrc, .one 0⟩]
  | .atomCas d a b => [⟨d, .vdst, .one 0⟩, ⟨a, .base, .one 0⟩, ⟨b, .vsrc, .one 1⟩]
  | .atomFadd d a b => [⟨d, .vdst, .one 0⟩, ⟨a, .base, .one 0⟩, ⟨b, .vsrc, .one 0⟩]
  | .fence _ => []
  | .invRange a b => [⟨a, .base, .one 0⟩, ⟨b, .vsrc, .one 0⟩]
  | .wbRange a b => [⟨a, .base, .one 0⟩, ⟨b, .vsrc, .one 0⟩]
  | .sdec d a b => [⟨0#2 ++ d, .vreg, .one 0⟩, ⟨0#2 ++ a, .vreg, .one 0⟩, ⟨0#2 ++ b, .geom, .one 0⟩]
  | .senc d a b => [⟨0#2 ++ d, .vreg, .one 0⟩, ⟨0#2 ++ a, .vreg, .one 0⟩, ⟨0#2 ++ b, .geom, .one 0⟩]
  | .serr d a b => [⟨0#2 ++ d, .vreg, .one 0⟩, ⟨0#2 ++ a, .vsrc, .one 0⟩, ⟨0#2 ++ b, .geom, .one 0⟩]
  | .sblk d a b => [⟨0#2 ++ d, .vreg, .one 0⟩, ⟨0#2 ++ a, .vsrc, .one 0⟩, ⟨0#2 ++ b, .geom, .one 0⟩]
  | .cpy d a b => [⟨d, .usrc, .one 0⟩, ⟨a, .usrc, .one 0⟩, ⟨b, .usrc, .one 0⟩]
  | .cpym d a b => [⟨d, .usrc, .one 0⟩, ⟨a, .usrc, .one 0⟩, ⟨b, .usrc, .one 0⟩]
  | .cpyx d a b => [⟨d, .usrc, .one 0⟩, ⟨a, .usrc, .one 0⟩, ⟨b, .usrc, .one 0⟩]
  | .seal => []
  | .waitb _ _ => []
  | .dictLd _ a => [⟨a, .usrc, .one 0⟩]
  | .cpyRes => []
  | .cpyResAbandon => []
  | .spawn d a b => [⟨d, .usrc, .one 0⟩, ⟨a, .vreg, .one 0⟩, ⟨b, .usrc, .one 0⟩]
  | .rebin d b => [⟨d, .usrc, .one 0⟩, ⟨b, .usrc, .one 0⟩]
  | .floeDef _ a b => [⟨a, .usrc, .one 0⟩, ⟨b, .usrc, .one 0⟩]
  | .floeRel _ => []
  | .floeSt d _ => [⟨d, .udst, .one 0⟩]
  | .barArr _ => []
  | .barWait _ => []
  | .barSync _ => []
  | .tlwait _ _ _ _ => []
  | .tlrd _ _ _ => []
  | .peek d a b => [⟨d, .udst, .one 0⟩, ⟨a, .usrc, .one 0⟩, ⟨b, .usrc, .one 0⟩]
  | .poke d a b => [⟨d, .usrc, .one 0⟩, ⟨a, .usrc, .one 0⟩, ⟨b, .usrc, .one 0⟩]
  | .stepLane _ _ => []
  | .stepRun _ _ => []
  | .stepHalt _ _ => []
  | .rimew _ _ a b => [⟨a, .usrc, .one 0⟩, ⟨b, .usrc, .one 0⟩]
  | .samp _ => []
  | .mnop => []
  | .mend => []
  | .mendGo => []
  | .mjmp _ => []
  | .mloop _ _ => []
  | .mbarArr _ => []
  | .mbarWait _ => []
  | .mfence => []
  | .mmode _ => []
  | .mrecLd _ _ _ _ _ => []
  | .mrecSc _ _ _ _ _ => []
  | .mzero _ => []
  | .mma _ _ _ => []
  | .mmaSp _ _ _ _ => []
  | .xadd _ _ _ _ => []
  | .xsub _ _ _ _ => []
  | .xmul _ _ _ _ => []
  | .xshl _ _ _ _ => []
  | .xshr _ _ _ _ => []
  | .xand _ _ _ _ => []
  | .xior _ _ _ _ => []
  | .xxor _ _ _ _ => []
  | .xli _ _ => []
  | .matrixOperationStart _ => []
  | .matrixOperationComplete _ => []
  | .pin _ => []
  | .regTaken _ _ => []
  | .grant _ _ => []
  | .fwdRead _ _ => []
  | .recall _ _ => []
  | .dataAnswer _ _ => []
  | .wbTaken _ _ => []
  | .homeRead _ _ _ => []
  | .fillReply _ _ => []
  | .atomicAtHome _ _ => []
  | .lostRegistrant _ => []
  | .groupFillComplete _ => []
  | .depart _ => []
  | .hostRead _ _ => []
  | .hostWrite _ _ => []
  | .hostAtomicop _ _ _ _ _ => []
  | .hostOwnership _ => []
  | .hostReadShared _ => []
  | .probe _ _ _ => []
  | .hostInvalidate _ => []
  | .remoteRequest _ _ _ _ => []
  | .peerTimeout _ _ => []
  | .expanderRemoved _ => []
  | .portRequest _ _ => []
  | .tokenRefill => []
  | .bwtokReset => []
  | .refresh _ _ => []
  | .conversionComplete _ => []
  | .ldxReply _ _ _ _ _ => []
  | .deposit _ _ => []
  | .binTimerExpiry _ _ => []
  | .binLaunch _ => []
  | .copyChunk _ _ => []
  | .multicastLanding _ _ _ => []
  | .chunkFault _ _ => []
  | .dictTableLoaded _ _ => []
  | .trapEntry _ _ => []
  | .preemptDeadline _ => []
  | .saveStand _ => []
  | .restoreStand _ => []
  | .dispatcherPreempt _ _ => []
  | .driftInterval _ _ => []
  | .driftSwap _ => []
  | .hostLaunch _ _ _ => []
  | .batchSend => []
  | .placement _ => []
  | .batchReturn _ => []
  | .freeSlotReport _ => []
  | .tlbiAll _ _ => []
  | .tlbiAsid _ _ => []
  | .tlbiPage _ _ => []
  | .tlbiPageAllAsid _ _ => []
  | .tlbiComplete _ => []
  | .walkPage _ => []
  | .windowEnable _ _ _ => []
  | .windowDisable _ _ => []
  | .windowDisableDone _ => []
  | .preemptSet _ _ _ _ => []
  | .preemptClear _ _ _ _ => []
  | .preemptForce _ _ _ _ => []
  | .occClear _ _ => []
  | .probemisRead _ _ => []
  | .launchstRead _ _ => []
  | .errcntRead _ => []
  | .xfercntRead _ => []
  | .mdropRead _ => []
  | .traceptrWrite _ _ _ => []
  | .ownerClaim _ => []
  | .ownerNext _ _ => []
  | .ownerTimeout => []
  | .partitionCreate _ _ _ => []
  | .partitionReset _ _ => []
  | .partitionRemove _ _ => []
  | .partitionOpComplete _ => []
  | .powerUp => []
  | .firmwareStart _ => []
  | .firmwareVerified _ _ _ => []
  | .liveUpdate _ => []
  | .recalibrate _ _ => []
  | .retireCore _ _ => []
  | .retireChannel _ _ => []
  | .readCounters _ => []
  | .fatalError _ => []
  | .throttleEvent _ _ _ => []
  | .powerWindowEnd _ => []
  | .registerWrite _ _ _ _ => []
  | .hostLinkAcknowledge _ => []
  | .hostRecallData _ _ => []
  | .serviceOperationComplete => []
  | .clkTick _ => []

/-- The element types an instruction admits; none where MODE.TYPE does not restrict it (10 R222, 0x21). -/
def Instr.types (i : Instr) : Option (List Nat) :=
  match i with
  | .nop => none
  | .pfx _ => none
  | .bra _ => none
  | .brcAny _ _ _ => none
  | .brcAll _ _ _ => none
  | .brcNone _ _ _ => none
  | .brd _ _ _ => none
  | .join _ => none
  | .call _ => none
  | .ret => none
  | .jmpi _ => none
  | .exitG => none
  | .yield => none
  | .brk _ => none
  | .trap _ => none
  | .eret => none
  | .eretReplay => none
  | .launch _ _ => none
  | .phase _ => none
  | .mode _ _ _ _ _ => none
  | .csrr _ _ => none
  | .csrw _ _ => none
  | .bound _ => none
  | .add _ _ _ => some intTypes
  | .sub _ _ _ => some intTypes
  | .mul _ _ _ => some intTypes
  | .mulh _ _ _ => some intTypes
  | .mad _ _ _ => some intTypes
  | .shl _ _ _ => some intTypes
  | .shr _ _ _ => some intTypes
  | .sra _ _ _ => some intTypes
  | .fshl _ _ _ => some intTypes
  | .fshr _ _ _ => some intTypes
  | .andV _ _ _ => none
  | .orV _ _ _ => none
  | .xorV _ _ _ => none
  | .andn _ _ _ => none
  | .notV _ _ => none
  | .popc _ _ => some intTypes
  | .clz _ _ => some intTypes
  | .ctz _ _ => some intTypes
  | .brev _ _ => some intTypes
  | .bfx _ _ _ => some [1, 2, 3, 5, 6, 7]
  | .bfi _ _ _ => some [1, 2, 3, 5, 6, 7]
  | .minV _ _ _ => some intTypes
  | .maxV _ _ _ => some intTypes
  | .absV _ _ => some [0, 1, 2, 3]
  | .negV _ _ => some intTypes
  | .sel _ _ _ => none
  | .cmpEq _ _ _ => some intTypes
  | .cmpNe _ _ _ => some intTypes
  | .cmpLt _ _ _ => some intTypes
  | .cmpLe _ _ _ => some intTypes
  | .cmpGt _ _ _ => some intTypes
  | .cmpGe _ _ _ => some intTypes
  | .li _ _ => some intTypes
  | .lih _ _ => some [2, 3, 6, 7]
  | .movV _ _ => none
  | .lea1 _ _ _ => some [3, 7]
  | .lea2 _ _ _ => some [3, 7]
  | .lea3 _ _ _ => some [3, 7]
  | .sadd _ _ _ => none
  | .ssub _ _ _ => none
  | .smul _ _ _ => none
  | .sshl _ _ _ => none
  | .sshr _ _ _ => none
  | .ssra _ _ _ => none
  | .sand _ _ _ => none
  | .sor _ _ _ => none
  | .sxor _ _ _ => none
  | .smov _ _ => none
  | .fadd _ _ _ => some floatTypes
  | .fsub _ _ _ => some floatTypes
  | .fmul _ _ _ => some floatTypes
  | .fma _ _ _ => some floatTypes
  | .fnma _ _ _ => some floatTypes
  | .fmin _ _ _ => some floatTypes
  | .fmax _ _ _ => some floatTypes
  | .fabs _ _ => some floatTypes
  | .fneg _ _ => some floatTypes
  | .fcmpEq _ _ _ => some floatTypes
  | .fcmpNe _ _ _ => some floatTypes
  | .fcmpLt _ _ _ => some floatTypes
  | .fcmpLe _ _ _ => some floatTypes
  | .fcmpGt _ _ _ => some floatTypes
  | .fcmpGe _ _ _ => some floatTypes
  | .fcmpUn _ _ _ => some floatTypes
  | .fclass _ _ => some floatTypes
  | .fdiv _ _ _ => some floatTypes
  | .fsqrt _ _ => some floatTypes
  | .frcp _ _ => some floatTypes
  | .frsq _ _ => some floatTypes
  | .exp2 _ _ => some floatTypes
  | .log2 _ _ => some floatTypes
  | .sinpi _ _ => some floatTypes
  | .cospi _ _ => some floatTypes
  | .cvtF _ _ _ => some floatTypes
  | .cvtI _ _ _ => some intTypes
  | .cvt8Sat _ _ _ => some [12, 13]
  | .cvt8Inf _ _ _ => some [12, 13]
  | .cvtq _ _ _ => some [14]
  | .cvtaSat _ _ _ => some (List.range 14)
  | .cvtaInf _ _ _ => some (List.range 14)
  | .fdot _ _ _ => some [9]
  | .fdot8 _ _ _ => some [12, 13]
  | .shfl _ _ _ => none
  | .shflUp _ _ _ => none
  | .shflDn _ _ _ => none
  | .shflX _ _ _ => none
  | .bcast _ _ _ => none
  | .voteAny _ _ => none
  | .voteAll _ _ => none
  | .ballot _ _ => none
  | .matchV _ _ => none
  | .redSum _ _ => some (intTypes ++ floatTypes)
  | .redMin _ _ => some (intTypes ++ floatTypes)
  | .redMax _ _ => some (intTypes ++ floatTypes)
  | .redAnd _ _ => none
  | .redOr _ _ => none
  | .redXor _ _ => none
  | .redmi _ _ => some (intTypes ++ floatTypes)
  | .redma _ _ => some (intTypes ++ floatTypes)
  | .scanAdd _ _ => some (intTypes ++ floatTypes)
  | .perm _ _ _ => none
  | .pack _ _ _ => some [14, 0, 1, 2, 4, 5, 6]
  | .unpack _ _ => some [14, 0, 1, 2, 4, 5, 6]
  | .pand _ _ _ => none
  | .por _ _ _ => none
  | .pxor _ _ _ => none
  | .pnot _ _ => none
  | .kpop _ _ => none
  | .ld _ _ _ => none
  | .st _ _ _ => none
  | .ldu _ _ _ => none
  | .ldx _ _ _ _ _ => none
  | .waita _ _ _ => none
  | .stm _ _ _ => none
  | .lds _ _ _ => none
  | .sts _ _ _ => none
  | .ldaGrove _ _ _ => none
  | .ldaStand _ _ _ => none
  | .ldaCluster _ _ _ => none
  | .ldaDie _ _ _ => none
  | .ldaPartition _ _ _ => none
  | .ldaDevice _ _ _ => none
  | .ldaSystem _ _ _ => none
  | .stlGrove _ _ _ => none
  | .stlStand _ _ _ => none
  | .stlCluster _ _ _ => none
  | .stlDie _ _ _ => none
  | .stlPartition _ _ _ => none
  | .stlDevice _ _ _ => none
  | .stlSystem _ _ _ => none
  | .ldcGrove _ _ _ => none
  | .ldcStand _ _ _ => none
  | .ldcCluster _ _ _ => none
  | .ldcDie _ _ _ => none
  | .ldcPartition _ _ _ => none
  | .ldcDevice _ _ _ => none
  | .ldcSystem _ _ _ => none
  | .atomAdd _ _ _ => some [2, 6, 3, 7]
  | .atomMin _ _ _ => some [2, 6, 3, 7]
  | .atomMax _ _ _ => some [2, 6, 3, 7]
  | .atomAnd _ _ _ => some [2, 6, 3, 7]
  | .atomOr _ _ _ => some [2, 6, 3, 7]
  | .atomXor _ _ _ => some [2, 6, 3, 7]
  | .atomXchg _ _ _ => some [2, 6, 3, 7, 10, 11]
  | .atomCas _ _ _ => some [2, 6, 3, 7, 10, 11]
  | .atomFadd _ _ _ => some [10, 11]
  | .fence _ => none
  | .invRange _ _ => none
  | .wbRange _ _ => none
  | .sdec _ _ _ => some [10, 11]
  | .senc _ _ _ => some [10, 11]
  | .serr _ _ _ => some [10, 11]
  | .sblk _ _ _ => none
  | .cpy _ _ _ => none
  | .cpym _ _ _ => none
  | .cpyx _ _ _ => none
  | .seal => none
  | .waitb _ _ => none
  | .dictLd _ _ => none
  | .cpyRes => none
  | .cpyResAbandon => none
  | .spawn _ _ _ => none
  | .rebin _ _ => none
  | .floeDef _ _ _ => none
  | .floeRel _ => none
  | .floeSt _ _ => none
  | .barArr _ => none
  | .barWait _ => none
  | .barSync _ => none
  | .tlwait _ _ _ _ => none
  | .tlrd _ _ _ => none
  | .peek _ _ _ => none
  | .poke _ _ _ => none
  | .stepLane _ _ => none
  | .stepRun _ _ => none
  | .stepHalt _ _ => none
  | .rimew _ _ _ _ => none
  | .samp _ => none
  | .mnop => none
  | .mend => none
  | .mendGo => none
  | .mjmp _ => none
  | .mloop _ _ => none
  | .mbarArr _ => none
  | .mbarWait _ => none
  | .mfence => none
  | .mmode _ => none
  | .mrecLd _ _ _ _ _ => none
  | .mrecSc _ _ _ _ _ => none
  | .mzero _ => none
  | .mma _ _ _ => none
  | .mmaSp _ _ _ _ => none
  | .xadd _ _ _ _ => none
  | .xsub _ _ _ _ => none
  | .xmul _ _ _ _ => none
  | .xshl _ _ _ _ => none
  | .xshr _ _ _ _ => none
  | .xand _ _ _ _ => none
  | .xior _ _ _ _ => none
  | .xxor _ _ _ _ => none
  | .xli _ _ => none
  | .matrixOperationStart _ => none
  | .matrixOperationComplete _ => none
  | .pin _ => none
  | .regTaken _ _ => none
  | .grant _ _ => none
  | .fwdRead _ _ => none
  | .recall _ _ => none
  | .dataAnswer _ _ => none
  | .wbTaken _ _ => none
  | .homeRead _ _ _ => none
  | .fillReply _ _ => none
  | .atomicAtHome _ _ => none
  | .lostRegistrant _ => none
  | .groupFillComplete _ => none
  | .depart _ => none
  | .hostRead _ _ => none
  | .hostWrite _ _ => none
  | .hostAtomicop _ _ _ _ _ => none
  | .hostOwnership _ => none
  | .hostReadShared _ => none
  | .probe _ _ _ => none
  | .hostInvalidate _ => none
  | .remoteRequest _ _ _ _ => none
  | .peerTimeout _ _ => none
  | .expanderRemoved _ => none
  | .portRequest _ _ => none
  | .tokenRefill => none
  | .bwtokReset => none
  | .refresh _ _ => none
  | .conversionComplete _ => none
  | .ldxReply _ _ _ _ _ => none
  | .deposit _ _ => none
  | .binTimerExpiry _ _ => none
  | .binLaunch _ => none
  | .copyChunk _ _ => none
  | .multicastLanding _ _ _ => none
  | .chunkFault _ _ => none
  | .dictTableLoaded _ _ => none
  | .trapEntry _ _ => none
  | .preemptDeadline _ => none
  | .saveStand _ => none
  | .restoreStand _ => none
  | .dispatcherPreempt _ _ => none
  | .driftInterval _ _ => none
  | .driftSwap _ => none
  | .hostLaunch _ _ _ => none
  | .batchSend => none
  | .placement _ => none
  | .batchReturn _ => none
  | .freeSlotReport _ => none
  | .tlbiAll _ _ => none
  | .tlbiAsid _ _ => none
  | .tlbiPage _ _ => none
  | .tlbiPageAllAsid _ _ => none
  | .tlbiComplete _ => none
  | .walkPage _ => none
  | .windowEnable _ _ _ => none
  | .windowDisable _ _ => none
  | .windowDisableDone _ => none
  | .preemptSet _ _ _ _ => none
  | .preemptClear _ _ _ _ => none
  | .preemptForce _ _ _ _ => none
  | .occClear _ _ => none
  | .probemisRead _ _ => none
  | .launchstRead _ _ => none
  | .errcntRead _ => none
  | .xfercntRead _ => none
  | .mdropRead _ => none
  | .traceptrWrite _ _ _ => none
  | .ownerClaim _ => none
  | .ownerNext _ _ => none
  | .ownerTimeout => none
  | .partitionCreate _ _ _ => none
  | .partitionReset _ _ => none
  | .partitionRemove _ _ => none
  | .partitionOpComplete _ => none
  | .powerUp => none
  | .firmwareStart _ => none
  | .firmwareVerified _ _ _ => none
  | .liveUpdate _ => none
  | .recalibrate _ _ => none
  | .retireCore _ _ => none
  | .retireChannel _ _ => none
  | .readCounters _ => none
  | .fatalError _ => none
  | .throttleEvent _ _ _ => none
  | .powerWindowEnd _ => none
  | .registerWrite _ _ _ _ => none
  | .hostLinkAcknowledge _ => none
  | .hostRecallData _ _ => none
  | .serviceOperationComplete => none
  | .clkTick _ => none

/-- Instructions checked at every execution: B, J and S formats, those of 05 R111, and those that act whatever the
mask (10 R223). A load, lda, stl or ldc without an enabled lane is not among them (log entry 132). -/
def Instr.always (i : Instr) : Bool :=
  match i with
  | .nop => true
  | .pfx _ => true
  | .bra _ => true
  | .brcAny _ _ _ => true
  | .brcAll _ _ _ => true
  | .brcNone _ _ _ => true
  | .brd _ _ _ => true
  | .join _ => true
  | .call _ => true
  | .ret => true
  | .jmpi _ => true
  | .exitG => true
  | .yield => true
  | .brk _ => true
  | .trap _ => true
  | .eret => true
  | .eretReplay => true
  | .launch _ _ => false
  | .phase _ => true
  | .mode _ _ _ _ _ => true
  | .csrr _ _ => true
  | .csrw _ _ => true
  | .bound _ => true
  | .add _ _ _ => false
  | .sub _ _ _ => false
  | .mul _ _ _ => false
  | .mulh _ _ _ => false
  | .mad _ _ _ => false
  | .shl _ _ _ => false
  | .shr _ _ _ => false
  | .sra _ _ _ => false
  | .fshl _ _ _ => false
  | .fshr _ _ _ => false
  | .andV _ _ _ => false
  | .orV _ _ _ => false
  | .xorV _ _ _ => false
  | .andn _ _ _ => false
  | .notV _ _ => false
  | .popc _ _ => false
  | .clz _ _ => false
  | .ctz _ _ => false
  | .brev _ _ => false
  | .bfx _ _ _ => false
  | .bfi _ _ _ => false
  | .minV _ _ _ => false
  | .maxV _ _ _ => false
  | .absV _ _ => false
  | .negV _ _ => false
  | .sel _ _ _ => false
  | .cmpEq _ _ _ => false
  | .cmpNe _ _ _ => false
  | .cmpLt _ _ _ => false
  | .cmpLe _ _ _ => false
  | .cmpGt _ _ _ => false
  | .cmpGe _ _ _ => false
  | .li _ _ => false
  | .lih _ _ => false
  | .movV _ _ => false
  | .lea1 _ _ _ => false
  | .lea2 _ _ _ => false
  | .lea3 _ _ _ => false
  | .sadd _ _ _ => true
  | .ssub _ _ _ => true
  | .smul _ _ _ => true
  | .sshl _ _ _ => true
  | .sshr _ _ _ => true
  | .ssra _ _ _ => true
  | .sand _ _ _ => true
  | .sor _ _ _ => true
  | .sxor _ _ _ => true
  | .smov _ _ => true
  | .fadd _ _ _ => false
  | .fsub _ _ _ => false
  | .fmul _ _ _ => false
  | .fma _ _ _ => false
  | .fnma _ _ _ => false
  | .fmin _ _ _ => false
  | .fmax _ _ _ => false
  | .fabs _ _ => false
  | .fneg _ _ => false
  | .fcmpEq _ _ _ => false
  | .fcmpNe _ _ _ => false
  | .fcmpLt _ _ _ => false
  | .fcmpLe _ _ _ => false
  | .fcmpGt _ _ _ => false
  | .fcmpGe _ _ _ => false
  | .fcmpUn _ _ _ => false
  | .fclass _ _ => false
  | .fdiv _ _ _ => false
  | .fsqrt _ _ => false
  | .frcp _ _ => false
  | .frsq _ _ => false
  | .exp2 _ _ => false
  | .log2 _ _ => false
  | .sinpi _ _ => false
  | .cospi _ _ => false
  | .cvtF _ _ _ => false
  | .cvtI _ _ _ => false
  | .cvt8Sat _ _ _ => false
  | .cvt8Inf _ _ _ => false
  | .cvtq _ _ _ => false
  | .cvtaSat _ _ _ => false
  | .cvtaInf _ _ _ => false
  | .fdot _ _ _ => false
  | .fdot8 _ _ _ => false
  | .shfl _ _ _ => false
  | .shflUp _ _ _ => false
  | .shflDn _ _ _ => false
  | .shflX _ _ _ => false
  | .bcast _ _ _ => false
  | .voteAny _ _ => false
  | .voteAll _ _ => false
  | .ballot _ _ => false
  | .matchV _ _ => false
  | .redSum _ _ => false
  | .redMin _ _ => false
  | .redMax _ _ => false
  | .redAnd _ _ => false
  | .redOr _ _ => false
  | .redXor _ _ => false
  | .redmi _ _ => false
  | .redma _ _ => false
  | .scanAdd _ _ => false
  | .perm _ _ _ => false
  | .pack _ _ _ => false
  | .unpack _ _ => false
  | .pand _ _ _ => false
  | .por _ _ _ => false
  | .pxor _ _ _ => false
  | .pnot _ _ => false
  | .kpop _ _ => true
  | .ld _ _ _ => false
  | .st _ _ _ => false
  | .ldu _ _ _ => false
  | .ldx _ _ _ _ _ => true
  | .waita _ _ _ => true
  | .stm _ _ _ => false
  | .lds _ _ _ => false
  | .sts _ _ _ => false
  | .ldaGrove _ _ _ => false
  | .ldaStand _ _ _ => false
  | .ldaCluster _ _ _ => false
  | .ldaDie _ _ _ => false
  | .ldaPartition _ _ _ => false
  | .ldaDevice _ _ _ => false
  | .ldaSystem _ _ _ => false
  | .stlGrove _ _ _ => false
  | .stlStand _ _ _ => false
  | .stlCluster _ _ _ => false
  | .stlDie _ _ _ => false
  | .stlPartition _ _ _ => false
  | .stlDevice _ _ _ => false
  | .stlSystem _ _ _ => false
  | .ldcGrove _ _ _ => false
  | .ldcStand _ _ _ => false
  | .ldcCluster _ _ _ => false
  | .ldcDie _ _ _ => false
  | .ldcPartition _ _ _ => false
  | .ldcDevice _ _ _ => false
  | .ldcSystem _ _ _ => false
  | .atomAdd _ _ _ => false
  | .atomMin _ _ _ => false
  | .atomMax _ _ _ => false
  | .atomAnd _ _ _ => false
  | .atomOr _ _ _ => false
  | .atomXor _ _ _ => false
  | .atomXchg _ _ _ => false
  | .atomCas _ _ _ => false
  | .atomFadd _ _ _ => false
  | .fence _ => true
  | .invRange _ _ => false
  | .wbRange _ _ => false
  | .sdec _ _ _ => false
  | .senc _ _ _ => false
  | .serr _ _ _ => false
  | .sblk _ _ _ => false
  | .cpy _ _ _ => true
  | .cpym _ _ _ => true
  | .cpyx _ _ _ => true
  | .seal => true
  | .waitb _ _ => true
  | .dictLd _ _ => true
  | .cpyRes => true
  | .cpyResAbandon => true
  | .spawn _ _ _ => false
  | .rebin _ _ => false
  | .floeDef _ _ _ => true
  | .floeRel _ => true
  | .floeSt _ _ => true
  | .barArr _ => true
  | .barWait _ => true
  | .barSync _ => true
  | .tlwait _ _ _ _ => true
  | .tlrd _ _ _ => true
  | .peek _ _ _ => true
  | .poke _ _ _ => true
  | .stepLane _ _ => true
  | .stepRun _ _ => true
  | .stepHalt _ _ => true
  | .rimew _ _ _ _ => true
  | .samp _ => true
  | .mnop => false
  | .mend => false
  | .mendGo => false
  | .mjmp _ => false
  | .mloop _ _ => false
  | .mbarArr _ => false
  | .mbarWait _ => false
  | .mfence => false
  | .mmode _ => false
  | .mrecLd _ _ _ _ _ => false
  | .mrecSc _ _ _ _ _ => false
  | .mzero _ => false
  | .mma _ _ _ => false
  | .mmaSp _ _ _ _ => false
  | .xadd _ _ _ _ => false
  | .xsub _ _ _ _ => false
  | .xmul _ _ _ _ => false
  | .xshl _ _ _ _ => false
  | .xshr _ _ _ _ => false
  | .xand _ _ _ _ => false
  | .xior _ _ _ _ => false
  | .xxor _ _ _ _ => false
  | .xli _ _ => false
  | .matrixOperationStart _ => false
  | .matrixOperationComplete _ => false
  | .pin _ => false
  | .regTaken _ _ => false
  | .grant _ _ => false
  | .fwdRead _ _ => false
  | .recall _ _ => false
  | .dataAnswer _ _ => false
  | .wbTaken _ _ => false
  | .homeRead _ _ _ => false
  | .fillReply _ _ => false
  | .atomicAtHome _ _ => false
  | .lostRegistrant _ => false
  | .groupFillComplete _ => false
  | .depart _ => false
  | .hostRead _ _ => false
  | .hostWrite _ _ => false
  | .hostAtomicop _ _ _ _ _ => false
  | .hostOwnership _ => false
  | .hostReadShared _ => false
  | .probe _ _ _ => false
  | .hostInvalidate _ => false
  | .remoteRequest _ _ _ _ => false
  | .peerTimeout _ _ => false
  | .expanderRemoved _ => false
  | .portRequest _ _ => false
  | .tokenRefill => false
  | .bwtokReset => false
  | .refresh _ _ => false
  | .conversionComplete _ => false
  | .ldxReply _ _ _ _ _ => false
  | .deposit _ _ => false
  | .binTimerExpiry _ _ => false
  | .binLaunch _ => false
  | .copyChunk _ _ => false
  | .multicastLanding _ _ _ => false
  | .chunkFault _ _ => false
  | .dictTableLoaded _ _ => false
  | .trapEntry _ _ => false
  | .preemptDeadline _ => false
  | .saveStand _ => false
  | .restoreStand _ => false
  | .dispatcherPreempt _ _ => false
  | .driftInterval _ _ => false
  | .driftSwap _ => false
  | .hostLaunch _ _ _ => false
  | .batchSend => false
  | .placement _ => false
  | .batchReturn _ => false
  | .freeSlotReport _ => false
  | .tlbiAll _ _ => false
  | .tlbiAsid _ _ => false
  | .tlbiPage _ _ => false
  | .tlbiPageAllAsid _ _ => false
  | .tlbiComplete _ => false
  | .walkPage _ => false
  | .windowEnable _ _ _ => false
  | .windowDisable _ _ => false
  | .windowDisableDone _ => false
  | .preemptSet _ _ _ _ => false
  | .preemptClear _ _ _ _ => false
  | .preemptForce _ _ _ _ => false
  | .occClear _ _ => false
  | .probemisRead _ _ => false
  | .launchstRead _ _ => false
  | .errcntRead _ => false
  | .xfercntRead _ => false
  | .mdropRead _ => false
  | .traceptrWrite _ _ _ => false
  | .ownerClaim _ => false
  | .ownerNext _ _ => false
  | .ownerTimeout => false
  | .partitionCreate _ _ _ => false
  | .partitionReset _ _ => false
  | .partitionRemove _ _ => false
  | .partitionOpComplete _ => false
  | .powerUp => false
  | .firmwareStart _ => false
  | .firmwareVerified _ _ _ => false
  | .liveUpdate _ => false
  | .recalibrate _ _ => false
  | .retireCore _ _ => false
  | .retireChannel _ _ => false
  | .readCounters _ => false
  | .fatalError _ => false
  | .throttleEvent _ _ _ => false
  | .powerWindowEnd _ => false
  | .registerWrite _ _ _ _ => false
  | .hostLinkAcknowledge _ => false
  | .hostRecallData _ _ => false
  | .serviceOperationComplete => false
  | .clkTick _ => false

/-- A Reserved field inside a field of the table is not 0 (10 R222, 0x02; 13 R282, R285, R295; 14 R303, R317). -/
def Instr.reservedBad (i : Instr) : Bool :=
  match i with
  | .nop => false
  | .pfx _ => false
  | .bra _ => false
  | .brcAny _ _ _ => false
  | .brcAll _ _ _ => false
  | .brcNone _ _ _ => false
  | .brd _ _ _ => false
  | .join _ => false
  | .call _ => false
  | .ret => false
  | .jmpi _ => false
  | .exitG => false
  | .yield => false
  | .brk _ => false
  | .trap _ => false
  | .eret => false
  | .eretReplay => false
  | .launch _ _ => false
  | .phase _ => false
  | .mode _ _ _ _ _ => false
  | .csrr _ _ => false
  | .csrw _ _ => false
  | .bound _ => false
  | .add _ _ _ => false
  | .sub _ _ _ => false
  | .mul _ _ _ => false
  | .mulh _ _ _ => false
  | .mad _ _ _ => false
  | .shl _ _ _ => false
  | .shr _ _ _ => false
  | .sra _ _ _ => false
  | .fshl _ _ _ => false
  | .fshr _ _ _ => false
  | .andV _ _ _ => false
  | .orV _ _ _ => false
  | .xorV _ _ _ => false
  | .andn _ _ _ => false
  | .notV _ _ => false
  | .popc _ _ => false
  | .clz _ _ => false
  | .ctz _ _ => false
  | .brev _ _ => false
  | .bfx _ _ _ => false
  | .bfi _ _ _ => false
  | .minV _ _ _ => false
  | .maxV _ _ _ => false
  | .absV _ _ => false
  | .negV _ _ => false
  | .sel _ _ _ => false
  | .cmpEq _ _ _ => false
  | .cmpNe _ _ _ => false
  | .cmpLt _ _ _ => false
  | .cmpLe _ _ _ => false
  | .cmpGt _ _ _ => false
  | .cmpGe _ _ _ => false
  | .li _ _ => false
  | .lih _ _ => false
  | .movV _ _ => false
  | .lea1 _ _ _ => false
  | .lea2 _ _ _ => false
  | .lea3 _ _ _ => false
  | .sadd _ _ _ => false
  | .ssub _ _ _ => false
  | .smul _ _ _ => false
  | .sshl _ _ _ => false
  | .sshr _ _ _ => false
  | .ssra _ _ _ => false
  | .sand _ _ _ => false
  | .sor _ _ _ => false
  | .sxor _ _ _ => false
  | .smov _ _ => false
  | .fadd _ _ _ => false
  | .fsub _ _ _ => false
  | .fmul _ _ _ => false
  | .fma _ _ _ => false
  | .fnma _ _ _ => false
  | .fmin _ _ _ => false
  | .fmax _ _ _ => false
  | .fabs _ _ => false
  | .fneg _ _ => false
  | .fcmpEq _ _ _ => false
  | .fcmpNe _ _ _ => false
  | .fcmpLt _ _ _ => false
  | .fcmpLe _ _ _ => false
  | .fcmpGt _ _ _ => false
  | .fcmpGe _ _ _ => false
  | .fcmpUn _ _ _ => false
  | .fclass _ _ => false
  | .fdiv _ _ _ => false
  | .fsqrt _ _ => false
  | .frcp _ _ => false
  | .frsq _ _ => false
  | .exp2 _ _ => false
  | .log2 _ _ => false
  | .sinpi _ _ => false
  | .cospi _ _ => false
  | .cvtF _ _ _ => false
  | .cvtI _ _ _ => false
  | .cvt8Sat _ _ _ => false
  | .cvt8Inf _ _ _ => false
  | .cvtq _ _ _ => false
  | .cvtaSat _ _ _ => false
  | .cvtaInf _ _ _ => false
  | .fdot _ _ _ => false
  | .fdot8 _ _ _ => false
  | .shfl _ _ _ => false
  | .shflUp _ _ _ => false
  | .shflDn _ _ _ => false
  | .shflX _ _ _ => false
  | .bcast _ _ _ => false
  | .voteAny _ _ => false
  | .voteAll _ _ => false
  | .ballot _ _ => false
  | .matchV _ _ => false
  | .redSum _ _ => false
  | .redMin _ _ => false
  | .redMax _ _ => false
  | .redAnd _ _ => false
  | .redOr _ _ => false
  | .redXor _ _ => false
  | .redmi _ _ => false
  | .redma _ _ => false
  | .scanAdd _ _ => false
  | .perm _ _ _ => false
  | .pack _ _ _ => false
  | .unpack _ _ => false
  | .pand _ _ _ => false
  | .por _ _ _ => false
  | .pxor _ _ _ => false
  | .pnot _ _ => false
  | .kpop _ _ => false
  | .ld _ _ _ => false
  | .st _ _ _ => false
  | .ldu _ _ _ => false
  | .ldx _ _ f z _ => decide (f = 0#1 ∧ z ≠ 0)
  | .waita s _ t => decide (s = 1#1 ∧ t.extractLsb' 5 11 ≠ 0)
  | .stm _ _ _ => false
  | .lds _ _ _ => false
  | .sts _ _ _ => false
  | .ldaGrove _ _ _ => false
  | .ldaStand _ _ _ => false
  | .ldaCluster _ _ _ => false
  | .ldaDie _ _ _ => false
  | .ldaPartition _ _ _ => false
  | .ldaDevice _ _ _ => false
  | .ldaSystem _ _ _ => false
  | .stlGrove _ _ _ => false
  | .stlStand _ _ _ => false
  | .stlCluster _ _ _ => false
  | .stlDie _ _ _ => false
  | .stlPartition _ _ _ => false
  | .stlDevice _ _ _ => false
  | .stlSystem _ _ _ => false
  | .ldcGrove _ _ _ => false
  | .ldcStand _ _ _ => false
  | .ldcCluster _ _ _ => false
  | .ldcDie _ _ _ => false
  | .ldcPartition _ _ _ => false
  | .ldcDevice _ _ _ => false
  | .ldcSystem _ _ _ => false
  | .atomAdd _ _ _ => false
  | .atomMin _ _ _ => false
  | .atomMax _ _ _ => false
  | .atomAnd _ _ _ => false
  | .atomOr _ _ _ => false
  | .atomXor _ _ _ => false
  | .atomXchg _ _ _ => false
  | .atomCas _ _ _ => false
  | .atomFadd _ _ _ => false
  | .fence _ => false
  | .invRange _ _ => false
  | .wbRange _ _ => false
  | .sdec _ _ _ => false
  | .senc _ _ _ => false
  | .serr _ _ _ => false
  | .sblk _ _ _ => false
  | .cpy _ _ _ => false
  | .cpym _ _ _ => false
  | .cpyx _ _ _ => false
  | .seal => false
  | .waitb _ _ => false
  | .dictLd _ _ => false
  | .cpyRes => false
  | .cpyResAbandon => false
  | .spawn _ _ _ => false
  | .rebin _ _ => false
  | .floeDef _ _ _ => false
  | .floeRel _ => false
  | .floeSt _ _ => false
  | .barArr _ => false
  | .barWait _ => false
  | .barSync _ => false
  | .tlwait _ _ r n => decide (r = 1#1 ∧ n.extractLsb' 5 11 ≠ 0)
  | .tlrd _ _ _ => false
  | .peek _ _ _ => false
  | .poke _ _ _ => false
  | .stepLane _ _ => false
  | .stepRun _ _ => false
  | .stepHalt _ _ => false
  | .rimew _ _ _ _ => false
  | .samp _ => false
  | .mnop => false
  | .mend => false
  | .mendGo => false
  | .mjmp _ => false
  | .mloop _ _ => false
  | .mbarArr _ => false
  | .mbarWait _ => false
  | .mfence => false
  | .mmode _ => false
  | .mrecLd _ s x n p => decide ((s = 1#1 ∧ n.extractLsb' 3 3 ≠ 0) ∨ (x = 1#1 ∧ p.extractLsb' 3 10 ≠ 0))
  | .mrecSc _ s x n p => decide ((s = 1#1 ∧ n.extractLsb' 3 3 ≠ 0) ∨ (x = 1#1 ∧ p.extractLsb' 3 10 ≠ 0))
  | .mzero _ => false
  | .mma _ _ _ => false
  | .mmaSp _ _ _ _ => false
  | .xadd _ _ s i => decide (s = 1#1 ∧ i.extractLsb' 3 16 ≠ 0)
  | .xsub _ _ s i => decide (s = 1#1 ∧ i.extractLsb' 3 16 ≠ 0)
  | .xmul _ _ s i => decide (s = 1#1 ∧ i.extractLsb' 3 16 ≠ 0)
  | .xshl _ _ s i => decide (s = 1#1 ∧ i.extractLsb' 3 16 ≠ 0)
  | .xshr _ _ s i => decide (s = 1#1 ∧ i.extractLsb' 3 16 ≠ 0)
  | .xand _ _ s i => decide (s = 1#1 ∧ i.extractLsb' 3 16 ≠ 0)
  | .xior _ _ s i => decide (s = 1#1 ∧ i.extractLsb' 3 16 ≠ 0)
  | .xxor _ _ s i => decide (s = 1#1 ∧ i.extractLsb' 3 16 ≠ 0)
  | .xli _ _ => false
  | .matrixOperationStart _ => false
  | .matrixOperationComplete _ => false
  | .pin _ => false
  | .regTaken _ _ => false
  | .grant _ _ => false
  | .fwdRead _ _ => false
  | .recall _ _ => false
  | .dataAnswer _ _ => false
  | .wbTaken _ _ => false
  | .homeRead _ _ _ => false
  | .fillReply _ _ => false
  | .atomicAtHome _ _ => false
  | .lostRegistrant _ => false
  | .groupFillComplete _ => false
  | .depart _ => false
  | .hostRead _ _ => false
  | .hostWrite _ _ => false
  | .hostAtomicop _ _ _ _ _ => false
  | .hostOwnership _ => false
  | .hostReadShared _ => false
  | .probe _ _ _ => false
  | .hostInvalidate _ => false
  | .remoteRequest _ _ _ _ => false
  | .peerTimeout _ _ => false
  | .expanderRemoved _ => false
  | .portRequest _ _ => false
  | .tokenRefill => false
  | .bwtokReset => false
  | .refresh _ _ => false
  | .conversionComplete _ => false
  | .ldxReply _ _ _ _ _ => false
  | .deposit _ _ => false
  | .binTimerExpiry _ _ => false
  | .binLaunch _ => false
  | .copyChunk _ _ => false
  | .multicastLanding _ _ _ => false
  | .chunkFault _ _ => false
  | .dictTableLoaded _ _ => false
  | .trapEntry _ _ => false
  | .preemptDeadline _ => false
  | .saveStand _ => false
  | .restoreStand _ => false
  | .dispatcherPreempt _ _ => false
  | .driftInterval _ _ => false
  | .driftSwap _ => false
  | .hostLaunch _ _ _ => false
  | .batchSend => false
  | .placement _ => false
  | .batchReturn _ => false
  | .freeSlotReport _ => false
  | .tlbiAll _ _ => false
  | .tlbiAsid _ _ => false
  | .tlbiPage _ _ => false
  | .tlbiPageAllAsid _ _ => false
  | .tlbiComplete _ => false
  | .walkPage _ => false
  | .windowEnable _ _ _ => false
  | .windowDisable _ _ => false
  | .windowDisableDone _ => false
  | .preemptSet _ _ _ _ => false
  | .preemptClear _ _ _ _ => false
  | .preemptForce _ _ _ _ => false
  | .occClear _ _ => false
  | .probemisRead _ _ => false
  | .launchstRead _ _ => false
  | .errcntRead _ => false
  | .xfercntRead _ => false
  | .mdropRead _ => false
  | .traceptrWrite _ _ _ => false
  | .ownerClaim _ => false
  | .ownerNext _ _ => false
  | .ownerTimeout => false
  | .partitionCreate _ _ _ => false
  | .partitionReset _ _ => false
  | .partitionRemove _ _ => false
  | .partitionOpComplete _ => false
  | .powerUp => false
  | .firmwareStart _ => false
  | .firmwareVerified _ _ _ => false
  | .liveUpdate _ => false
  | .recalibrate _ _ => false
  | .retireCore _ _ => false
  | .retireChannel _ _ => false
  | .readCounters _ => false
  | .fatalError _ => false
  | .throttleEvent _ _ _ => false
  | .powerWindowEnd _ => false
  | .registerWrite _ _ _ _ => false
  | .hostLinkAcknowledge _ => false
  | .hostRecallData _ _ => false
  | .serviceOperationComplete => false
  | .clkTick _ => false

/-- A field value lies outside the range that the description admits (10 R222, 0x07). -/
def Instr.valueBad (i : Instr) : Bool :=
  match i with
  | .nop => false
  | .pfx _ => false
  | .bra _ => false
  | .brcAny _ _ _ => false
  | .brcAll _ _ _ => false
  | .brcNone _ _ _ => false
  | .brd _ _ _ => false
  | .join _ => false
  | .call _ => false
  | .ret => false
  | .jmpi _ => false
  | .exitG => false
  | .yield => false
  | .brk _ => false
  | .trap _ => false
  | .eret => false
  | .eretReplay => false
  | .launch _ _ => false
  | .phase _ => false
  | .mode _ _ _ r t => decide (t = 15#4 ∨ 5 ≤ r.toNat)
  | .csrr _ c => decide (csrKind c.toNat = 0)
  | .csrw _ c => decide (csrKind c.toNat ≠ 2)
  | .bound b => decide (b = 0)
  | .add _ _ _ => false
  | .sub _ _ _ => false
  | .mul _ _ _ => false
  | .mulh _ _ _ => false
  | .mad _ _ _ => false
  | .shl _ _ _ => false
  | .shr _ _ _ => false
  | .sra _ _ _ => false
  | .fshl _ _ _ => false
  | .fshr _ _ _ => false
  | .andV _ _ _ => false
  | .orV _ _ _ => false
  | .xorV _ _ _ => false
  | .andn _ _ _ => false
  | .notV _ _ => false
  | .popc _ _ => false
  | .clz _ _ => false
  | .ctz _ _ => false
  | .brev _ _ => false
  | .bfx _ _ _ => false
  | .bfi _ _ _ => false
  | .minV _ _ _ => false
  | .maxV _ _ _ => false
  | .absV _ _ => false
  | .negV _ _ => false
  | .sel _ _ _ => false
  | .cmpEq _ _ _ => false
  | .cmpNe _ _ _ => false
  | .cmpLt _ _ _ => false
  | .cmpLe _ _ _ => false
  | .cmpGt _ _ _ => false
  | .cmpGe _ _ _ => false
  | .li _ _ => false
  | .lih _ _ => false
  | .movV _ _ => false
  | .lea1 _ _ _ => false
  | .lea2 _ _ _ => false
  | .lea3 _ _ _ => false
  | .sadd _ _ _ => false
  | .ssub _ _ _ => false
  | .smul _ _ _ => false
  | .sshl _ _ _ => false
  | .sshr _ _ _ => false
  | .ssra _ _ _ => false
  | .sand _ _ _ => false
  | .sor _ _ _ => false
  | .sxor _ _ _ => false
  | .smov _ _ => false
  | .fadd _ _ _ => false
  | .fsub _ _ _ => false
  | .fmul _ _ _ => false
  | .fma _ _ _ => false
  | .fnma _ _ _ => false
  | .fmin _ _ _ => false
  | .fmax _ _ _ => false
  | .fabs _ _ => false
  | .fneg _ _ => false
  | .fcmpEq _ _ _ => false
  | .fcmpNe _ _ _ => false
  | .fcmpLt _ _ _ => false
  | .fcmpLe _ _ _ => false
  | .fcmpGt _ _ _ => false
  | .fcmpGe _ _ _ => false
  | .fcmpUn _ _ _ => false
  | .fclass _ _ => false
  | .fdiv _ _ _ => false
  | .fsqrt _ _ => false
  | .frcp _ _ => false
  | .frsq _ _ => false
  | .exp2 _ _ => false
  | .log2 _ _ => false
  | .sinpi _ _ => false
  | .cospi _ _ => false
  | .cvtF _ _ s => decide (s.toNat ≥ 14)
  | .cvtI _ _ s => decide (s.toNat < 8 ∨ 13 < s.toNat)
  | .cvt8Sat _ _ s => decide (s.toNat < 8 ∨ 13 < s.toNat)
  | .cvt8Inf _ _ s => decide (s.toNat < 8 ∨ 13 < s.toNat)
  | .cvtq _ _ _ => false
  | .cvtaSat _ _ _ => false
  | .cvtaInf _ _ _ => false
  | .fdot _ _ _ => false
  | .fdot8 _ _ _ => false
  | .shfl _ _ _ => false
  | .shflUp _ _ _ => false
  | .shflDn _ _ _ => false
  | .shflX _ _ _ => false
  | .bcast _ _ _ => false
  | .voteAny _ _ => false
  | .voteAll _ _ => false
  | .ballot _ _ => false
  | .matchV _ _ => false
  | .redSum _ _ => false
  | .redMin _ _ => false
  | .redMax _ _ => false
  | .redAnd _ _ => false
  | .redOr _ _ => false
  | .redXor _ _ => false
  | .redmi _ _ => false
  | .redma _ _ => false
  | .scanAdd _ _ => false
  | .perm _ _ _ => false
  | .pack _ _ _ => false
  | .unpack _ _ => false
  | .pand _ _ _ => false
  | .por _ _ _ => false
  | .pxor _ _ _ => false
  | .pnot _ _ => false
  | .kpop _ _ => false
  | .ld _ _ _ => false
  | .st _ _ _ => false
  | .ldu _ _ _ => false
  | .ldx _ _ _ _ _ => false
  | .waita _ _ _ => false
  | .stm _ _ _ => false
  | .lds _ _ _ => false
  | .sts _ _ _ => false
  | .ldaGrove _ _ _ => false
  | .ldaStand _ _ _ => false
  | .ldaCluster _ _ _ => false
  | .ldaDie _ _ _ => false
  | .ldaPartition _ _ _ => false
  | .ldaDevice _ _ _ => false
  | .ldaSystem _ _ _ => false
  | .stlGrove _ _ _ => false
  | .stlStand _ _ _ => false
  | .stlCluster _ _ _ => false
  | .stlDie _ _ _ => false
  | .stlPartition _ _ _ => false
  | .stlDevice _ _ _ => false
  | .stlSystem _ _ _ => false
  | .ldcGrove _ _ _ => false
  | .ldcStand _ _ _ => false
  | .ldcCluster _ _ _ => false
  | .ldcDie _ _ _ => false
  | .ldcPartition _ _ _ => false
  | .ldcDevice _ _ _ => false
  | .ldcSystem _ _ _ => false
  | .atomAdd _ _ _ => false
  | .atomMin _ _ _ => false
  | .atomMax _ _ _ => false
  | .atomAnd _ _ _ => false
  | .atomOr _ _ _ => false
  | .atomXor _ _ _ => false
  | .atomXchg _ _ _ => false
  | .atomCas _ _ _ => false
  | .atomFadd _ _ _ => false
  | .fence s => decide (s = 7#3)
  | .invRange _ _ => false
  | .wbRange _ _ => false
  | .sdec _ _ _ => false
  | .senc _ _ _ => false
  | .serr _ _ _ => false
  | .sblk _ _ _ => false
  | .cpy _ _ _ => false
  | .cpym _ _ _ => false
  | .cpyx _ _ _ => false
  | .seal => false
  | .waitb s _ => decide (s = 7#3)
  | .dictLd _ _ => false
  | .cpyRes => false
  | .cpyResAbandon => false
  | .spawn _ _ _ => false
  | .rebin _ _ => false
  | .floeDef _ _ _ => false
  | .floeRel _ => false
  | .floeSt _ _ => false
  | .barArr _ => false
  | .barWait _ => false
  | .barSync _ => false
  | .tlwait s _ _ _ => decide (s = 7#3)
  | .tlrd _ _ _ => false
  | .peek _ _ _ => false
  | .poke _ _ _ => false
  | .stepLane _ _ => false
  | .stepRun _ _ => false
  | .stepHalt _ _ => false
  | .rimew _ _ _ _ => false
  | .samp k => decide (k ≠ 0 ∧ (k.toNat < 8 ∨ 20 < k.toNat))
  | .mnop => false
  | .mend => false
  | .mendGo => false
  | .mjmp _ => false
  | .mloop _ _ => false
  | .mbarArr _ => false
  | .mbarWait _ => false
  | .mfence => false
  | .mmode _ => false
  | .mrecLd _ _ _ _ _ => false
  | .mrecSc _ _ _ _ _ => false
  | .mzero _ => false
  | .mma _ _ _ => false
  | .mmaSp _ _ _ _ => false
  | .xadd _ _ _ _ => false
  | .xsub _ _ _ _ => false
  | .xmul _ _ _ _ => false
  | .xshl _ _ _ _ => false
  | .xshr _ _ _ _ => false
  | .xand _ _ _ _ => false
  | .xior _ _ _ _ => false
  | .xxor _ _ _ _ => false
  | .xli _ _ => false
  | .matrixOperationStart _ => false
  | .matrixOperationComplete _ => false
  | .pin _ => false
  | .regTaken _ _ => false
  | .grant _ _ => false
  | .fwdRead _ _ => false
  | .recall _ _ => false
  | .dataAnswer _ _ => false
  | .wbTaken _ _ => false
  | .homeRead _ _ _ => false
  | .fillReply _ _ => false
  | .atomicAtHome _ _ => false
  | .lostRegistrant _ => false
  | .groupFillComplete _ => false
  | .depart _ => false
  | .hostRead _ _ => false
  | .hostWrite _ _ => false
  | .hostAtomicop _ _ _ _ _ => false
  | .hostOwnership _ => false
  | .hostReadShared _ => false
  | .probe _ _ _ => false
  | .hostInvalidate _ => false
  | .remoteRequest _ _ _ _ => false
  | .peerTimeout _ _ => false
  | .expanderRemoved _ => false
  | .portRequest _ _ => false
  | .tokenRefill => false
  | .bwtokReset => false
  | .refresh _ _ => false
  | .conversionComplete _ => false
  | .ldxReply _ _ _ _ _ => false
  | .deposit _ _ => false
  | .binTimerExpiry _ _ => false
  | .binLaunch _ => false
  | .copyChunk _ _ => false
  | .multicastLanding _ _ _ => false
  | .chunkFault _ _ => false
  | .dictTableLoaded _ _ => false
  | .trapEntry _ _ => false
  | .preemptDeadline _ => false
  | .saveStand _ => false
  | .restoreStand _ => false
  | .dispatcherPreempt _ _ => false
  | .driftInterval _ _ => false
  | .driftSwap _ => false
  | .hostLaunch _ _ _ => false
  | .batchSend => false
  | .placement _ => false
  | .batchReturn _ => false
  | .freeSlotReport _ => false
  | .tlbiAll _ _ => false
  | .tlbiAsid _ _ => false
  | .tlbiPage _ _ => false
  | .tlbiPageAllAsid _ _ => false
  | .tlbiComplete _ => false
  | .walkPage _ => false
  | .windowEnable _ _ _ => false
  | .windowDisable _ _ => false
  | .windowDisableDone _ => false
  | .preemptSet _ _ _ _ => false
  | .preemptClear _ _ _ _ => false
  | .preemptForce _ _ _ _ => false
  | .occClear _ _ => false
  | .probemisRead _ _ => false
  | .launchstRead _ _ => false
  | .errcntRead _ => false
  | .xfercntRead _ => false
  | .mdropRead _ => false
  | .traceptrWrite _ _ _ => false
  | .ownerClaim _ => false
  | .ownerNext _ _ => false
  | .ownerTimeout => false
  | .partitionCreate _ _ _ => false
  | .partitionReset _ _ => false
  | .partitionRemove _ _ => false
  | .partitionOpComplete _ => false
  | .powerUp => false
  | .firmwareStart _ => false
  | .firmwareVerified _ _ _ => false
  | .liveUpdate _ => false
  | .recalibrate _ _ => false
  | .retireCore _ _ => false
  | .retireChannel _ _ => false
  | .readCounters _ => false
  | .fatalError _ => false
  | .throttleEvent _ _ _ => false
  | .powerWindowEnd _ => false
  | .registerWrite _ _ _ _ => false
  | .hostLinkAcknowledge _ => false
  | .hostRecallData _ _ => false
  | .serviceOperationComplete => false
  | .clkTick _ => false

/-- A scalar number in an x field lies outside its set (11 R244, 0x05). -/
def Instr.scalarBad (i : Instr) : Bool :=
  match i with
  | .csrr x _ => decide (31 < x.toNat)
  | .csrw x _ => decide (31 < x.toNat ∧ x.toNat ≠ 56)
  | _ => false

/-- The first of the details 0x02, 0x03, 0x04, 0x05 and 0x07 that holds of an instruction whatever the state
(10 R222, R223). -/
def Instr.illegalDetail (i : Instr) : Option Nat :=
  if i.reservedBad then some 0x02
  else if !i.operands.all Opd.widthOk then some 0x03
  else if !i.operands.all Opd.groupOk then some 0x04
  else if !i.operands.all Opd.classOk || i.scalarBad then some 0x05
  else if i.valueBad then some 0x07
  else none

/-- The instruction names `imm` (01 R21). -/
def Instr.namesImm (i : Instr) : Bool := i.operands.any Opd.isImm

end Sys2Proof
end

