-- ==== Sys2Proof/WellFormed.lean ====
section
/-! DEFINITION. Well-formed instructions: those whose word passes every check that does not depend on the state
(10 R222). -/

namespace Sys2Proof

/-- The instruction's word breaks none of the rules 0x02, 0x03, 0x04, 0x05 and 0x07 of 10 R222. -/
def Instr.wellFormed (i : Instr) : Bool := i.illegalDetail.isNone

end Sys2Proof
end

