-- ==== Sys2Proof/Decode.lean ====
section
/-! DEFINITION. Decoding of grove-stream and matrix-stream words (10 R216, R228; 14 R299, R300), and the encoder. -/

namespace Sys2Proof

/-- Why a word is no instruction. Each carries the instruction that the word would be without the fault: the opcode is
undefined (R222 0x01), a Reserved bit is set (0x02), a width code is not admitted (0x03), a field value lies outside
its range (0x07), or the bytes end. -/
inductive DecErr where
  | undefinedOpcode
  | reserved (i : Instr)
  | width (i : Instr)
  | value (i : Instr)
  | truncated
deriving DecidableEq, Repr

/-- The `n` bits of a word from bit `lo` up. -/
abbrev fld (w : BitVec 32) (lo n : Nat) : BitVec n := w.extractLsb' lo n

/-- Opcodes 0x00 to 0x0F of the grove stream (10 R228). -/
def decodeGrove0 (op : Nat) (w lit : BitVec 32) : Except DecErr Instr :=
  match op with
  | 0x0 => if fld w 0 24 = 0 then .ok .nop else .error (.reserved .nop)
  | 0x1 => if fld w 0 24 = 0 then .ok (.pfx lit) else .error (.reserved (.pfx lit))
  | 0x2 => if fld w 16 8 = 0 then .ok (.bra (fld w 0 16)) else .error (.reserved (.bra (fld w 0 16)))
  | 0x3 => if fld w 16 2 = 0 then
      (match (fld w 22 2 : BitVec 2).toNat with
       | 0 => .ok (.brcAny (fld w 21 1) (fld w 18 3) (fld w 0 16))
       | 1 => .ok (.brcAll (fld w 21 1) (fld w 18 3) (fld w 0 16))
       | 2 => .ok (.brcNone (fld w 21 1) (fld w 18 3) (fld w 0 16))
       | _ => .error (.value (.brcAny (fld w 21 1) (fld w 18 3) (fld w 0 16))))
    else .error (.reserved (.brcAny (fld w 21 1) (fld w 18 3) (fld w 0 16)))
  | 0x4 => if fld w 16 2 = 0 then
      (if fld w 22 2 = 0 then .ok (.brd (fld w 21 1) (fld w 18 3) (fld w 0 16)) else .error (.value (.brd (fld w 21 1) (fld w 18 3) (fld w 0 16))))
    else .error (.reserved (.brd (fld w 21 1) (fld w 18 3) (fld w 0 16)))
  | 0x5 => .ok (.join (fld w 0 24))
  | 0x6 => .ok (.call (fld w 0 24))
  | 0x7 => if fld w 0 24 = 0 then .ok .ret else .error (.reserved .ret)
  | 0x8 => if fld w 16 8 = 0 ∧ fld w 0 8 = 0 then .ok (.jmpi (fld w 8 8)) else .error (.reserved (.jmpi (fld w 8 8)))
  | 0x9 => if fld w 0 24 = 0 then .ok .exitG else .error (.reserved .exitG)
  | 0xA => if fld w 0 24 = 0 then .ok .yield else .error (.reserved .yield)
  | 0xB => .ok (.brk (fld w 0 24))
  | 0xC => .ok (.trap (fld w 0 24))
  | 0xD => if fld w 0 24 = 0 then .ok .eret else .error (.reserved .eret)
  | 0xE => if fld w 0 24 = 0 then .ok .eretReplay else .error (.reserved .eretReplay)
  | 0xF => if fld w 0 8 = 0 then .ok (.launch (fld w 16 8) (fld w 8 8)) else .error (.reserved (.launch (fld w 16 8) (fld w 8 8)))
  | _ => .error .undefinedOpcode

/-- Opcodes 0x10 to 0x1F of the grove stream (10 R228). -/
def decodeGrove1 (op : Nat) (w : BitVec 32) : Except DecErr Instr :=
  match op with
  | 0x0 => if fld w 4 20 = 0 then .ok (.phase (fld w 0 4)) else .error (.reserved (.phase (fld w 0 4)))
  | 0x1 => if fld w 13 11 = 0 ∧ fld w 7 1 = 0 then .ok (.mode (fld w 12 1) (fld w 11 1) (fld w 8 3) (fld w 4 3) (fld w 0 4)) else .error (.reserved (.mode (fld w 12 1) (fld w 11 1) (fld w 8 3) (fld w 4 3) (fld w 0 4)))
  | 0x2 => .ok (.csrr (fld w 16 8) (fld w 0 16))
  | 0x3 => .ok (.csrw (fld w 16 8) (fld w 0 16))
  | 0xC => if fld w 6 18 = 0 then .ok (.bound (fld w 0 6)) else .error (.reserved (.bound (fld w 0 6)))
  | _ => .error .undefinedOpcode

/-- Opcodes 0x20 to 0x2F of the grove stream (10 R228). -/
def decodeGrove2 (op : Nat) (w : BitVec 32) : Except DecErr Instr :=
  match op with
  | 0x0 => .ok (.add (fld w 16 8) (fld w 8 8) (fld w 0 8))
  | 0x1 => .ok (.sub (fld w 16 8) (fld w 8 8) (fld w 0 8))
  | 0x2 => .ok (.mul (fld w 16 8) (fld w 8 8) (fld w 0 8))
  | 0x3 => .ok (.mulh (fld w 16 8) (fld w 8 8) (fld w 0 8))
  | 0x4 => .ok (.mad (fld w 16 8) (fld w 8 8) (fld w 0 8))
  | 0x5 => .ok (.shl (fld w 16 8) (fld w 8 8) (fld w 0 8))
  | 0x6 => .ok (.shr (fld w 16 8) (fld w 8 8) (fld w 0 8))
  | 0x7 => .ok (.sra (fld w 16 8) (fld w 8 8) (fld w 0 8))
  | 0x8 => .ok (.fshl (fld w 16 8) (fld w 8 8) (fld w 0 8))
  | 0x9 => .ok (.fshr (fld w 16 8) (fld w 8 8) (fld w 0 8))
  | 0xA => .ok (.andV (fld w 16 8) (fld w 8 8) (fld w 0 8))
  | 0xB => .ok (.orV (fld w 16 8) (fld w 8 8) (fld w 0 8))
  | 0xC => .ok (.xorV (fld w 16 8) (fld w 8 8) (fld w 0 8))
  | 0xD => .ok (.andn (fld w 16 8) (fld w 8 8) (fld w 0 8))
  | 0xE => if fld w 0 8 = 0 then .ok (.notV (fld w 16 8) (fld w 8 8)) else .error (.reserved (.notV (fld w 16 8) (fld w 8 8)))
  | 0xF => if fld w 0 8 = 0 then .ok (.popc (fld w 16 8) (fld w 8 8)) else .error (.reserved (.popc (fld w 16 8) (fld w 8 8)))
  | _ => .error .undefinedOpcode

/-- Opcodes 0x30 to 0x3F of the grove stream (10 R228). -/
def decodeGrove3 (op : Nat) (w : BitVec 32) : Except DecErr Instr :=
  match op with
  | 0x0 => if fld w 0 8 = 0 then .ok (.clz (fld w 16 8) (fld w 8 8)) else .error (.reserved (.clz (fld w 16 8) (fld w 8 8)))
  | 0x1 => if fld w 0 8 = 0 then .ok (.ctz (fld w 16 8) (fld w 8 8)) else .error (.reserved (.ctz (fld w 16 8) (fld w 8 8)))
  | 0x2 => if fld w 0 8 = 0 then .ok (.brev (fld w 16 8) (fld w 8 8)) else .error (.reserved (.brev (fld w 16 8) (fld w 8 8)))
  | 0x3 => .ok (.bfx (fld w 16 8) (fld w 8 8) (fld w 0 8))
  | 0x4 => .ok (.bfi (fld w 16 8) (fld w 8 8) (fld w 0 8))
  | 0x5 => .ok (.minV (fld w 16 8) (fld w 8 8) (fld w 0 8))
  | 0x6 => .ok (.maxV (fld w 16 8) (fld w 8 8) (fld w 0 8))
  | 0x7 => if fld w 0 8 = 0 then .ok (.absV (fld w 16 8) (fld w 8 8)) else .error (.reserved (.absV (fld w 16 8) (fld w 8 8)))
  | 0x8 => if fld w 0 8 = 0 then .ok (.negV (fld w 16 8) (fld w 8 8)) else .error (.reserved (.negV (fld w 16 8) (fld w 8 8)))
  | 0x9 => .ok (.sel (fld w 16 8) (fld w 8 8) (fld w 0 8))
  | 0xA => .ok (.cmpEq (fld w 16 8) (fld w 8 8) (fld w 0 8))
  | 0xB => .ok (.cmpNe (fld w 16 8) (fld w 8 8) (fld w 0 8))
  | 0xC => .ok (.cmpLt (fld w 16 8) (fld w 8 8) (fld w 0 8))
  | 0xD => .ok (.cmpLe (fld w 16 8) (fld w 8 8) (fld w 0 8))
  | 0xE => .ok (.cmpGt (fld w 16 8) (fld w 8 8) (fld w 0 8))
  | 0xF => .ok (.cmpGe (fld w 16 8) (fld w 8 8) (fld w 0 8))
  | _ => .error .undefinedOpcode

/-- Opcodes 0x40 to 0x4F of the grove stream (10 R228). -/
def decodeGrove4 (op : Nat) (w : BitVec 32) : Except DecErr Instr :=
  match op with
  | 0x0 => .ok (.li (fld w 16 8) (fld w 0 16))
  | 0x1 => .ok (.lih (fld w 16 8) (fld w 0 16))
  | 0x2 => if fld w 0 8 = 0 then .ok (.movV (fld w 16 8) (fld w 8 8)) else .error (.reserved (.movV (fld w 16 8) (fld w 8 8)))
  | 0x3 => .ok (.lea1 (fld w 16 8) (fld w 8 8) (fld w 0 8))
  | 0x4 => .ok (.lea2 (fld w 16 8) (fld w 8 8) (fld w 0 8))
  | 0x5 => .ok (.lea3 (fld w 16 8) (fld w 8 8) (fld w 0 8))
  | 0x6 => .ok (.sadd (fld w 16 8) (fld w 8 8) (fld w 0 8))
  | 0x7 => .ok (.ssub (fld w 16 8) (fld w 8 8) (fld w 0 8))
  | 0x8 => .ok (.smul (fld w 16 8) (fld w 8 8) (fld w 0 8))
  | 0x9 => .ok (.sshl (fld w 16 8) (fld w 8 8) (fld w 0 8))
  | 0xA => .ok (.sshr (fld w 16 8) (fld w 8 8) (fld w 0 8))
  | 0xB => .ok (.ssra (fld w 16 8) (fld w 8 8) (fld w 0 8))
  | 0xC => .ok (.sand (fld w 16 8) (fld w 8 8) (fld w 0 8))
  | 0xD => .ok (.sor (fld w 16 8) (fld w 8 8) (fld w 0 8))
  | 0xE => .ok (.sxor (fld w 16 8) (fld w 8 8) (fld w 0 8))
  | 0xF => if fld w 0 8 = 0 then .ok (.smov (fld w 16 8) (fld w 8 8)) else .error (.reserved (.smov (fld w 16 8) (fld w 8 8)))
  | _ => .error .undefinedOpcode

/-- Opcodes 0x50 to 0x5F of the grove stream (10 R228). -/
def decodeGrove5 (op : Nat) (w : BitVec 32) : Except DecErr Instr :=
  match op with
  | 0x0 => .ok (.fadd (fld w 16 8) (fld w 8 8) (fld w 0 8))
  | 0x1 => .ok (.fsub (fld w 16 8) (fld w 8 8) (fld w 0 8))
  | 0x2 => .ok (.fmul (fld w 16 8) (fld w 8 8) (fld w 0 8))
  | 0x3 => .ok (.fma (fld w 16 8) (fld w 8 8) (fld w 0 8))
  | 0x4 => .ok (.fnma (fld w 16 8) (fld w 8 8) (fld w 0 8))
  | 0x5 => .ok (.fmin (fld w 16 8) (fld w 8 8) (fld w 0 8))
  | 0x6 => .ok (.fmax (fld w 16 8) (fld w 8 8) (fld w 0 8))
  | 0x7 => if fld w 0 8 = 0 then .ok (.fabs (fld w 16 8) (fld w 8 8)) else .error (.reserved (.fabs (fld w 16 8) (fld w 8 8)))
  | 0x8 => if fld w 0 8 = 0 then .ok (.fneg (fld w 16 8) (fld w 8 8)) else .error (.reserved (.fneg (fld w 16 8) (fld w 8 8)))
  | 0x9 => .ok (.fcmpEq (fld w 16 8) (fld w 8 8) (fld w 0 8))
  | 0xA => .ok (.fcmpNe (fld w 16 8) (fld w 8 8) (fld w 0 8))
  | 0xB => .ok (.fcmpLt (fld w 16 8) (fld w 8 8) (fld w 0 8))
  | 0xC => .ok (.fcmpLe (fld w 16 8) (fld w 8 8) (fld w 0 8))
  | 0xD => .ok (.fcmpGt (fld w 16 8) (fld w 8 8) (fld w 0 8))
  | 0xE => .ok (.fcmpGe (fld w 16 8) (fld w 8 8) (fld w 0 8))
  | 0xF => .ok (.fcmpUn (fld w 16 8) (fld w 8 8) (fld w 0 8))
  | _ => .error .undefinedOpcode

/-- Opcodes 0x60 to 0x6F of the grove stream (10 R228). -/
def decodeGrove6 (op : Nat) (w : BitVec 32) : Except DecErr Instr :=
  match op with
  | 0x0 => if fld w 0 8 = 0 then .ok (.fclass (fld w 16 8) (fld w 8 8)) else .error (.reserved (.fclass (fld w 16 8) (fld w 8 8)))
  | 0x1 => .ok (.fdiv (fld w 16 8) (fld w 8 8) (fld w 0 8))
  | 0x2 => if fld w 0 8 = 0 then .ok (.fsqrt (fld w 16 8) (fld w 8 8)) else .error (.reserved (.fsqrt (fld w 16 8) (fld w 8 8)))
  | 0x3 => if fld w 0 8 = 0 then .ok (.frcp (fld w 16 8) (fld w 8 8)) else .error (.reserved (.frcp (fld w 16 8) (fld w 8 8)))
  | 0x4 => if fld w 0 8 = 0 then .ok (.frsq (fld w 16 8) (fld w 8 8)) else .error (.reserved (.frsq (fld w 16 8) (fld w 8 8)))
  | 0x5 => if fld w 0 8 = 0 then .ok (.exp2 (fld w 16 8) (fld w 8 8)) else .error (.reserved (.exp2 (fld w 16 8) (fld w 8 8)))
  | 0x6 => if fld w 0 8 = 0 then .ok (.log2 (fld w 16 8) (fld w 8 8)) else .error (.reserved (.log2 (fld w 16 8) (fld w 8 8)))
  | 0x7 => if fld w 0 8 = 0 then .ok (.sinpi (fld w 16 8) (fld w 8 8)) else .error (.reserved (.sinpi (fld w 16 8) (fld w 8 8)))
  | 0x8 => if fld w 0 8 = 0 then .ok (.cospi (fld w 16 8) (fld w 8 8)) else .error (.reserved (.cospi (fld w 16 8) (fld w 8 8)))
  | 0x9 => if fld w 4 4 = 0 then .ok (.cvtF (fld w 16 8) (fld w 8 8) (fld w 0 4)) else .error (.reserved (.cvtF (fld w 16 8) (fld w 8 8) (fld w 0 4)))
  | 0xA => if fld w 4 4 = 0 then .ok (.cvtI (fld w 16 8) (fld w 8 8) (fld w 0 4)) else .error (.reserved (.cvtI (fld w 16 8) (fld w 8 8) (fld w 0 4)))
  | 0xB => if fld w 4 4 = 0 then .ok (.cvt8Sat (fld w 16 8) (fld w 8 8) (fld w 0 4)) else .error (.reserved (.cvt8Sat (fld w 16 8) (fld w 8 8) (fld w 0 4)))
  | 0xC => if fld w 4 4 = 0 then .ok (.cvt8Inf (fld w 16 8) (fld w 8 8) (fld w 0 4)) else .error (.reserved (.cvt8Inf (fld w 16 8) (fld w 8 8) (fld w 0 4)))
  | 0xD => .ok (.cvtq (fld w 16 8) (fld w 8 8) (fld w 0 8))
  | 0xE => .ok (.cvtaSat (fld w 16 8) (fld w 8 8) (fld w 0 8))
  | 0xF => .ok (.cvtaInf (fld w 16 8) (fld w 8 8) (fld w 0 8))
  | _ => .error .undefinedOpcode

/-- Opcodes 0x70 to 0x7F of the grove stream (10 R228). -/
def decodeGrove7 (op : Nat) (w : BitVec 32) : Except DecErr Instr :=
  match op with
  | 0x0 => .ok (.fdot (fld w 16 8) (fld w 8 8) (fld w 0 8))
  | 0x1 => .ok (.fdot8 (fld w 16 8) (fld w 8 8) (fld w 0 8))
  | _ => .error .undefinedOpcode

/-- Opcodes 0x80 to 0x8F of the grove stream (10 R228). -/
def decodeGrove8 (op : Nat) (w : BitVec 32) : Except DecErr Instr :=
  match op with
  | 0x0 => .ok (.shfl (fld w 16 8) (fld w 8 8) (fld w 0 8))
  | 0x1 => .ok (.shflUp (fld w 16 8) (fld w 8 8) (fld w 0 8))
  | 0x2 => .ok (.shflDn (fld w 16 8) (fld w 8 8) (fld w 0 8))
  | 0x3 => .ok (.shflX (fld w 16 8) (fld w 8 8) (fld w 0 8))
  | 0x4 => .ok (.bcast (fld w 16 8) (fld w 8 8) (fld w 0 8))
  | 0x5 => if fld w 0 8 = 0 then .ok (.voteAny (fld w 16 8) (fld w 8 8)) else .error (.reserved (.voteAny (fld w 16 8) (fld w 8 8)))
  | 0x6 => if fld w 0 8 = 0 then .ok (.voteAll (fld w 16 8) (fld w 8 8)) else .error (.reserved (.voteAll (fld w 16 8) (fld w 8 8)))
  | 0x7 => if fld w 0 8 = 0 then .ok (.ballot (fld w 16 8) (fld w 8 8)) else .error (.reserved (.ballot (fld w 16 8) (fld w 8 8)))
  | 0x8 => if fld w 0 8 = 0 then .ok (.matchV (fld w 16 8) (fld w 8 8)) else .error (.reserved (.matchV (fld w 16 8) (fld w 8 8)))
  | 0x9 => if fld w 0 8 = 0 then .ok (.redSum (fld w 16 8) (fld w 8 8)) else .error (.reserved (.redSum (fld w 16 8) (fld w 8 8)))
  | 0xA => if fld w 0 8 = 0 then .ok (.redMin (fld w 16 8) (fld w 8 8)) else .error (.reserved (.redMin (fld w 16 8) (fld w 8 8)))
  | 0xB => if fld w 0 8 = 0 then .ok (.redMax (fld w 16 8) (fld w 8 8)) else .error (.reserved (.redMax (fld w 16 8) (fld w 8 8)))
  | 0xC => if fld w 0 8 = 0 then .ok (.redAnd (fld w 16 8) (fld w 8 8)) else .error (.reserved (.redAnd (fld w 16 8) (fld w 8 8)))
  | 0xD => if fld w 0 8 = 0 then .ok (.redOr (fld w 16 8) (fld w 8 8)) else .error (.reserved (.redOr (fld w 16 8) (fld w 8 8)))
  | 0xE => if fld w 0 8 = 0 then .ok (.redXor (fld w 16 8) (fld w 8 8)) else .error (.reserved (.redXor (fld w 16 8) (fld w 8 8)))
  | 0xF => if fld w 0 8 = 0 then .ok (.redmi (fld w 16 8) (fld w 8 8)) else .error (.reserved (.redmi (fld w 16 8) (fld w 8 8)))
  | _ => .error .undefinedOpcode

/-- Opcodes 0x90 to 0x9F of the grove stream (10 R228). -/
def decodeGrove9 (op : Nat) (w : BitVec 32) : Except DecErr Instr :=
  match op with
  | 0x0 => if fld w 0 8 = 0 then .ok (.redma (fld w 16 8) (fld w 8 8)) else .error (.reserved (.redma (fld w 16 8) (fld w 8 8)))
  | 0x1 => if fld w 0 8 = 0 then .ok (.scanAdd (fld w 16 8) (fld w 8 8)) else .error (.reserved (.scanAdd (fld w 16 8) (fld w 8 8)))
  | 0x2 => .ok (.perm (fld w 16 8) (fld w 8 8) (fld w 0 8))
  | 0x3 => .ok (.pack (fld w 16 8) (fld w 8 8) (fld w 0 8))
  | 0x4 => if fld w 0 8 = 0 then .ok (.unpack (fld w 16 8) (fld w 8 8)) else .error (.reserved (.unpack (fld w 16 8) (fld w 8 8)))
  | 0x5 => .ok (.pand (fld w 16 8) (fld w 8 8) (fld w 0 8))
  | 0x6 => .ok (.por (fld w 16 8) (fld w 8 8) (fld w 0 8))
  | 0x7 => .ok (.pxor (fld w 16 8) (fld w 8 8) (fld w 0 8))
  | 0x8 => if fld w 0 8 = 0 then .ok (.pnot (fld w 16 8) (fld w 8 8)) else .error (.reserved (.pnot (fld w 16 8) (fld w 8 8)))
  | 0x9 => if fld w 0 8 = 0 then .ok (.kpop (fld w 16 8) (fld w 8 8)) else .error (.reserved (.kpop (fld w 16 8) (fld w 8 8)))
  | _ => .error .undefinedOpcode

/-- Opcodes 0xA0 to 0xAF of the grove stream (10 R228). -/
def decodeGroveA (op : Nat) (w : BitVec 32) : Except DecErr Instr :=
  match op with
  | 0x0 => .ok (.ld (fld w 16 8) (fld w 8 8) (fld w 0 8))
  | 0x1 => .ok (.st (fld w 16 8) (fld w 8 8) (fld w 0 8))
  | 0x2 => .ok (.ldu (fld w 16 8) (fld w 8 8) (fld w 0 8))
  | 0x3 => if fld w 4 1 = 0 then .ok (.ldx (fld w 16 8) (fld w 8 8) (fld w 7 1) (fld w 5 2) (fld w 0 4)) else .error (.reserved (.ldx (fld w 16 8) (fld w 8 8) (fld w 7 1) (fld w 5 2) (fld w 0 4)))
  | 0x4 => if fld w 20 3 = 0 then .ok (.waita (fld w 23 1) (fld w 16 4) (fld w 0 16)) else .error (.reserved (.waita (fld w 23 1) (fld w 16 4) (fld w 0 16)))
  | 0x5 => .ok (.stm (fld w 16 8) (fld w 8 8) (fld w 0 8))
  | 0x6 => .ok (.lds (fld w 16 8) (fld w 8 8) (fld w 0 8))
  | 0x7 => .ok (.sts (fld w 16 8) (fld w 8 8) (fld w 0 8))
  | 0x8 => .ok (.ldaGrove (fld w 16 8) (fld w 8 8) (fld w 0 8))
  | 0x9 => .ok (.ldaStand (fld w 16 8) (fld w 8 8) (fld w 0 8))
  | 0xA => .ok (.ldaCluster (fld w 16 8) (fld w 8 8) (fld w 0 8))
  | 0xB => .ok (.ldaDie (fld w 16 8) (fld w 8 8) (fld w 0 8))
  | 0xC => .ok (.ldaPartition (fld w 16 8) (fld w 8 8) (fld w 0 8))
  | 0xD => .ok (.ldaDevice (fld w 16 8) (fld w 8 8) (fld w 0 8))
  | 0xE => .ok (.ldaSystem (fld w 16 8) (fld w 8 8) (fld w 0 8))
  | 0xF => .ok (.stlGrove (fld w 16 8) (fld w 8 8) (fld w 0 8))
  | _ => .error .undefinedOpcode

/-- Opcodes 0xB0 to 0xBF of the grove stream (10 R228). -/
def decodeGroveB (op : Nat) (w : BitVec 32) : Except DecErr Instr :=
  match op with
  | 0x0 => .ok (.stlStand (fld w 16 8) (fld w 8 8) (fld w 0 8))
  | 0x1 => .ok (.stlCluster (fld w 16 8) (fld w 8 8) (fld w 0 8))
  | 0x2 => .ok (.stlDie (fld w 16 8) (fld w 8 8) (fld w 0 8))
  | 0x3 => .ok (.stlPartition (fld w 16 8) (fld w 8 8) (fld w 0 8))
  | 0x4 => .ok (.stlDevice (fld w 16 8) (fld w 8 8) (fld w 0 8))
  | 0x5 => .ok (.stlSystem (fld w 16 8) (fld w 8 8) (fld w 0 8))
  | 0x6 => .ok (.ldcGrove (fld w 16 8) (fld w 8 8) (fld w 0 8))
  | 0x7 => .ok (.ldcStand (fld w 16 8) (fld w 8 8) (fld w 0 8))
  | 0x8 => .ok (.ldcCluster (fld w 16 8) (fld w 8 8) (fld w 0 8))
  | 0x9 => .ok (.ldcDie (fld w 16 8) (fld w 8 8) (fld w 0 8))
  | 0xA => .ok (.ldcPartition (fld w 16 8) (fld w 8 8) (fld w 0 8))
  | 0xB => .ok (.ldcDevice (fld w 16 8) (fld w 8 8) (fld w 0 8))
  | 0xC => .ok (.ldcSystem (fld w 16 8) (fld w 8 8) (fld w 0 8))
  | 0xD => .ok (.atomAdd (fld w 16 8) (fld w 8 8) (fld w 0 8))
  | 0xE => .ok (.atomMin (fld w 16 8) (fld w 8 8) (fld w 0 8))
  | 0xF => .ok (.atomMax (fld w 16 8) (fld w 8 8) (fld w 0 8))
  | _ => .error .undefinedOpcode

/-- Opcodes 0xC0 to 0xCF of the grove stream (10 R228). -/
def decodeGroveC (op : Nat) (w : BitVec 32) : Except DecErr Instr :=
  match op with
  | 0x0 => .ok (.atomAnd (fld w 16 8) (fld w 8 8) (fld w 0 8))
  | 0x1 => .ok (.atomOr (fld w 16 8) (fld w 8 8) (fld w 0 8))
  | 0x2 => .ok (.atomXor (fld w 16 8) (fld w 8 8) (fld w 0 8))
  | 0x3 => .ok (.atomXchg (fld w 16 8) (fld w 8 8) (fld w 0 8))
  | 0x4 => .ok (.atomCas (fld w 16 8) (fld w 8 8) (fld w 0 8))
  | 0x5 => .ok (.atomFadd (fld w 16 8) (fld w 8 8) (fld w 0 8))
  | 0x6 => if fld w 19 5 = 0 ∧ fld w 0 16 = 0 then .ok (.fence (fld w 16 3)) else .error (.reserved (.fence (fld w 16 3)))
  | 0x7 => if fld w 16 8 = 0 then .ok (.invRange (fld w 8 8) (fld w 0 8)) else .error (.reserved (.invRange (fld w 8 8) (fld w 0 8)))
  | 0x8 => if fld w 16 8 = 0 then .ok (.wbRange (fld w 8 8) (fld w 0 8)) else .error (.reserved (.wbRange (fld w 8 8) (fld w 0 8)))
  | _ => .error .undefinedOpcode

/-- Opcodes 0xD0 to 0xDF of the grove stream (10 R228). -/
def decodeGroveD (op : Nat) (w : BitVec 32) : Except DecErr Instr :=
  match op with
  | 0x0 => if fld w 22 2 = 0 ∧ fld w 14 2 = 0 ∧ fld w 6 2 = 0 then .ok (.sdec (fld w 16 6) (fld w 8 6) (fld w 0 6)) else .error (.width (.sdec (fld w 16 6) (fld w 8 6) (fld w 0 6)))
  | 0x1 => if fld w 22 2 = 0 ∧ fld w 14 2 = 0 ∧ fld w 6 2 = 0 then .ok (.senc (fld w 16 6) (fld w 8 6) (fld w 0 6)) else .error (.width (.senc (fld w 16 6) (fld w 8 6) (fld w 0 6)))
  | 0x2 => if fld w 22 2 = 0 ∧ fld w 14 2 = 0 ∧ fld w 6 2 = 0 then .ok (.serr (fld w 16 6) (fld w 8 6) (fld w 0 6)) else .error (.width (.serr (fld w 16 6) (fld w 8 6) (fld w 0 6)))
  | 0x3 => if fld w 22 2 = 0 ∧ fld w 14 2 = 0 ∧ fld w 6 2 = 0 then .ok (.sblk (fld w 16 6) (fld w 8 6) (fld w 0 6)) else .error (.width (.sblk (fld w 16 6) (fld w 8 6) (fld w 0 6)))
  | 0x4 => .ok (.cpy (fld w 16 8) (fld w 8 8) (fld w 0 8))
  | 0x5 => .ok (.cpym (fld w 16 8) (fld w 8 8) (fld w 0 8))
  | 0x6 => .ok (.cpyx (fld w 16 8) (fld w 8 8) (fld w 0 8))
  | 0x7 => if fld w 0 24 = 0 then .ok .seal else .error (.reserved .seal)
  | 0x8 => if fld w 19 5 = 0 then .ok (.waitb (fld w 16 3) (fld w 0 16)) else .error (.reserved (.waitb (fld w 16 3) (fld w 0 16)))
  | 0x9 => if fld w 17 7 = 0 ∧ fld w 0 8 = 0 then .ok (.dictLd (fld w 16 1) (fld w 8 8)) else .error (.reserved (.dictLd (fld w 16 1) (fld w 8 8)))
  | 0xA => if fld w 1 23 = 0 then (if fld w 0 1 = 0 then .ok .cpyRes else .ok .cpyResAbandon)
    else .error (.reserved .cpyRes)
  | _ => .error .undefinedOpcode

/-- Opcodes 0xE0 to 0xEF of the grove stream (10 R228). -/
def decodeGroveE (op : Nat) (w : BitVec 32) : Except DecErr Instr :=
  match op with
  | 0x0 => .ok (.spawn (fld w 16 8) (fld w 8 8) (fld w 0 8))
  | 0x1 => if fld w 8 8 = 0 then .ok (.rebin (fld w 16 8) (fld w 0 8)) else .error (.reserved (.rebin (fld w 16 8) (fld w 0 8)))
  | 0x2 => if fld w 22 2 = 0 then .ok (.floeDef (fld w 16 6) (fld w 8 8) (fld w 0 8)) else .error (.reserved (.floeDef (fld w 16 6) (fld w 8 8) (fld w 0 8)))
  | 0x3 => if fld w 22 2 = 0 ∧ fld w 0 16 = 0 then .ok (.floeRel (fld w 16 6)) else .error (.reserved (.floeRel (fld w 16 6)))
  | 0x4 => if fld w 14 2 = 0 ∧ fld w 0 8 = 0 then .ok (.floeSt (fld w 16 8) (fld w 8 6)) else .error (.reserved (.floeSt (fld w 16 8) (fld w 8 6)))
  | 0x5 => if fld w 20 4 = 0 ∧ fld w 0 16 = 0 then .ok (.barArr (fld w 16 4)) else .error (.reserved (.barArr (fld w 16 4)))
  | 0x6 => if fld w 20 4 = 0 ∧ fld w 0 16 = 0 then .ok (.barWait (fld w 16 4)) else .error (.reserved (.barWait (fld w 16 4)))
  | 0x7 => if fld w 20 4 = 0 ∧ fld w 0 16 = 0 then .ok (.barSync (fld w 16 4)) else .error (.reserved (.barSync (fld w 16 4)))
  | 0x8 => if fld w 16 3 = 0 then .ok (.tlwait (fld w 21 3) (fld w 20 1) (fld w 19 1) (fld w 0 16)) else .error (.reserved (.tlwait (fld w 21 3) (fld w 20 1) (fld w 19 1) (fld w 0 16)))
  | 0x9 => if fld w 22 2 = 0 ∧ fld w 1 15 = 0 then .ok (.tlrd (fld w 21 1) (fld w 16 5) (fld w 0 1)) else .error (.reserved (.tlrd (fld w 21 1) (fld w 16 5) (fld w 0 1)))
  | _ => .error .undefinedOpcode

/-- Opcodes 0xF0 to 0xFF of the grove stream (10 R228). -/
def decodeGroveF (op : Nat) (w : BitVec 32) : Except DecErr Instr :=
  match op with
  | 0x0 => .ok (.peek (fld w 16 8) (fld w 8 8) (fld w 0 8))
  | 0x1 => .ok (.poke (fld w 16 8) (fld w 8 8) (fld w 0 8))
  | 0x2 => if fld w 21 3 = 0 ∧ fld w 5 9 = 0 then
      (match (fld w 14 2 : BitVec 2).toNat with
       | 0 => .ok (.stepLane (fld w 16 5) (fld w 0 5))
       | 1 => .ok (.stepHalt (fld w 16 5) (fld w 0 5))
       | 2 => .ok (.stepRun (fld w 16 5) (fld w 0 5))
       | _ => .error (.value (.stepLane (fld w 16 5) (fld w 0 5))))
    else .error (.reserved (.stepLane (fld w 16 5) (fld w 0 5)))
  | 0x3 => if fld w 22 2 = 0 then .ok (.rimew (fld w 20 2) (fld w 16 4) (fld w 8 8) (fld w 0 8)) else .error (.reserved (.rimew (fld w 20 2) (fld w 16 4) (fld w 8 8) (fld w 0 8)))
  | 0x4 => if fld w 16 8 = 0 then
      (if fld w 5 11 = 0 then .ok (.samp (fld w 0 5)) else .error (.value (.samp (fld w 0 5))))
    else .error (.reserved (.samp (fld w 0 5)))
  | _ => .error .undefinedOpcode

/-- One grove-stream word; `lit` is the word after it, the literal of a `pfx` (10 R221). -/
def decodeGrove (w lit : BitVec 32) : Except DecErr Instr :=
  let op := (fld w 24 4).toNat
  match (fld w 28 4).toNat with
  | 0x0 => decodeGrove0 op w lit
  | 0x1 => decodeGrove1 op w
  | 0x2 => decodeGrove2 op w
  | 0x3 => decodeGrove3 op w
  | 0x4 => decodeGrove4 op w
  | 0x5 => decodeGrove5 op w
  | 0x6 => decodeGrove6 op w
  | 0x7 => decodeGrove7 op w
  | 0x8 => decodeGrove8 op w
  | 0x9 => decodeGrove9 op w
  | 0xA => decodeGroveA op w
  | 0xB => decodeGroveB op w
  | 0xC => decodeGroveC op w
  | 0xD => decodeGroveD op w
  | 0xE => decodeGroveE op w
  | 0xF => decodeGroveF op w
  | _ => .error .undefinedOpcode

/-- One matrix-stream word (14 R300). -/
def decodeMatrix (w : BitVec 32) : Except DecErr Instr :=
  match (fld w 26 6).toNat with
  | 0x00 => if fld w 0 26 = 0 then .ok .mnop else .error (.reserved .mnop)
  | 0x01 => if fld w 1 25 = 0 then (if fld w 0 1 = 0 then .ok .mend else .ok .mendGo) else .error (.reserved .mend)
  | 0x02 => if fld w 23 3 = 0 then .ok (.mjmp (fld w 0 23)) else .error (.reserved (.mjmp (fld w 0 23)))
  | 0x03 => .ok (.mloop (fld w 23 3) (fld w 0 23))
  | 0x04 => if fld w 4 22 = 0 then .ok (.mbarArr (fld w 0 4)) else .error (.reserved (.mbarArr (fld w 0 4)))
  | 0x05 => if fld w 4 22 = 0 then .ok (.mbarWait (fld w 0 4)) else .error (.reserved (.mbarWait (fld w 0 4)))
  | 0x06 => if fld w 0 26 = 0 then .ok .mfence else .error (.reserved .mfence)
  | 0x07 => if fld w 4 22 = 0 then .ok (.mmode (fld w 0 4)) else .error (.reserved (.mmode (fld w 0 4)))
  | 0x08 => if fld w 19 1 = 0 then .ok (.mrecLd (fld w 22 4) (fld w 21 1) (fld w 20 1) (fld w 13 6) (fld w 0 13)) else .error (.reserved (.mrecLd (fld w 22 4) (fld w 21 1) (fld w 20 1) (fld w 13 6) (fld w 0 13)))
  | 0x09 => if fld w 19 1 = 0 then .ok (.mrecSc (fld w 22 4) (fld w 21 1) (fld w 20 1) (fld w 13 6) (fld w 0 13)) else .error (.reserved (.mrecSc (fld w 22 4) (fld w 21 1) (fld w 20 1) (fld w 13 6) (fld w 0 13)))
  | 0x0A => if fld w 0 22 = 0 then .ok (.mzero (fld w 22 4)) else .error (.reserved (.mzero (fld w 22 4)))
  | 0x0B => if fld w 0 14 = 0 then .ok (.mma (fld w 22 4) (fld w 18 4) (fld w 14 4)) else .error (.reserved (.mma (fld w 22 4) (fld w 18 4) (fld w 14 4)))
  | 0x0C => if fld w 0 10 = 0 then .ok (.mmaSp (fld w 22 4) (fld w 18 4) (fld w 14 4) (fld w 10 4)) else .error (.reserved (.mmaSp (fld w 22 4) (fld w 18 4) (fld w 14 4) (fld w 10 4)))
  | 0x10 => .ok (.xadd (fld w 23 3) (fld w 20 3) (fld w 19 1) (fld w 0 19))
  | 0x11 => .ok (.xsub (fld w 23 3) (fld w 20 3) (fld w 19 1) (fld w 0 19))
  | 0x12 => .ok (.xmul (fld w 23 3) (fld w 20 3) (fld w 19 1) (fld w 0 19))
  | 0x13 => .ok (.xshl (fld w 23 3) (fld w 20 3) (fld w 19 1) (fld w 0 19))
  | 0x14 => .ok (.xshr (fld w 23 3) (fld w 20 3) (fld w 19 1) (fld w 0 19))
  | 0x15 => .ok (.xand (fld w 23 3) (fld w 20 3) (fld w 19 1) (fld w 0 19))
  | 0x16 => .ok (.xior (fld w 23 3) (fld w 20 3) (fld w 19 1) (fld w 0 19))
  | 0x17 => .ok (.xxor (fld w 23 3) (fld w 20 3) (fld w 19 1) (fld w 0 19))
  | 0x18 => .ok (.xli (fld w 23 3) (fld w 0 23))
  | _ => .error .undefinedOpcode

/-- The words of an instruction, first word first: for `pfx`, the pfx word and its literal (10 R221). A step of the
device that has no word encodes to none. -/
def encode (i : Instr) : List (BitVec 32) :=
  match i with
  | .pfx lit => [0x01000000#32, lit]
  | .nop => [0x0#32]
  | .bra o => [0x200#16 ++ o]
  | .brcAny n p o => [0xc#10 ++ n ++ p ++ 0x0#2 ++ o]
  | .brcAll n p o => [0xd#10 ++ n ++ p ++ 0x0#2 ++ o]
  | .brcNone n p o => [0xe#10 ++ n ++ p ++ 0x0#2 ++ o]
  | .brd n p o => [0x10#10 ++ n ++ p ++ 0x0#2 ++ o]
  | .join i => [0x5#8 ++ i]
  | .call i => [0x6#8 ++ i]
  | .ret => [0x7000000#32]
  | .jmpi a => [0x800#16 ++ a ++ 0x0#8]
  | .exitG => [0x9000000#32]
  | .yield => [0xa000000#32]
  | .brk i => [0xb#8 ++ i]
  | .trap i => [0xc#8 ++ i]
  | .eret => [0xd000000#32]
  | .eretReplay => [0xe000000#32]
  | .launch d a => [0xf#8 ++ d ++ a ++ 0x0#8]
  | .phase n => [0x1000000#28 ++ n]
  | .mode g h p r t => [0x8800#19 ++ g ++ h ++ p ++ 0x0#1 ++ r ++ t]
  | .csrr x c => [0x12#8 ++ x ++ c]
  | .csrw x c => [0x13#8 ++ x ++ c]
  | .bound b => [0x700000#26 ++ b]
  | .add d a b => [0x20#8 ++ d ++ a ++ b]
  | .sub d a b => [0x21#8 ++ d ++ a ++ b]
  | .mul d a b => [0x22#8 ++ d ++ a ++ b]
  | .mulh d a b => [0x23#8 ++ d ++ a ++ b]
  | .mad d a b => [0x24#8 ++ d ++ a ++ b]
  | .shl d a b => [0x25#8 ++ d ++ a ++ b]
  | .shr d a b => [0x26#8 ++ d ++ a ++ b]
  | .sra d a b => [0x27#8 ++ d ++ a ++ b]
  | .fshl d a b => [0x28#8 ++ d ++ a ++ b]
  | .fshr d a b => [0x29#8 ++ d ++ a ++ b]
  | .andV d a b => [0x2a#8 ++ d ++ a ++ b]
  | .orV d a b => [0x2b#8 ++ d ++ a ++ b]
  | .xorV d a b => [0x2c#8 ++ d ++ a ++ b]
  | .andn d a b => [0x2d#8 ++ d ++ a ++ b]
  | .notV d a => [0x2e#8 ++ d ++ a ++ 0x0#8]
  | .popc d a => [0x2f#8 ++ d ++ a ++ 0x0#8]
  | .clz d a => [0x30#8 ++ d ++ a ++ 0x0#8]
  | .ctz d a => [0x31#8 ++ d ++ a ++ 0x0#8]
  | .brev d a => [0x32#8 ++ d ++ a ++ 0x0#8]
  | .bfx d a b => [0x33#8 ++ d ++ a ++ b]
  | .bfi d a b => [0x34#8 ++ d ++ a ++ b]
  | .minV d a b => [0x35#8 ++ d ++ a ++ b]
  | .maxV d a b => [0x36#8 ++ d ++ a ++ b]
  | .absV d a => [0x37#8 ++ d ++ a ++ 0x0#8]
  | .negV d a => [0x38#8 ++ d ++ a ++ 0x0#8]
  | .sel d a b => [0x39#8 ++ d ++ a ++ b]
  | .cmpEq d a b => [0x3a#8 ++ d ++ a ++ b]
  | .cmpNe d a b => [0x3b#8 ++ d ++ a ++ b]
  | .cmpLt d a b => [0x3c#8 ++ d ++ a ++ b]
  | .cmpLe d a b => [0x3d#8 ++ d ++ a ++ b]
  | .cmpGt d a b => [0x3e#8 ++ d ++ a ++ b]
  | .cmpGe d a b => [0x3f#8 ++ d ++ a ++ b]
  | .li d i => [0x40#8 ++ d ++ i]
  | .lih d i => [0x41#8 ++ d ++ i]
  | .movV d a => [0x42#8 ++ d ++ a ++ 0x0#8]
  | .lea1 d a b => [0x43#8 ++ d ++ a ++ b]
  | .lea2 d a b => [0x44#8 ++ d ++ a ++ b]
  | .lea3 d a b => [0x45#8 ++ d ++ a ++ b]
  | .sadd d a b => [0x46#8 ++ d ++ a ++ b]
  | .ssub d a b => [0x47#8 ++ d ++ a ++ b]
  | .smul d a b => [0x48#8 ++ d ++ a ++ b]
  | .sshl d a b => [0x49#8 ++ d ++ a ++ b]
  | .sshr d a b => [0x4a#8 ++ d ++ a ++ b]
  | .ssra d a b => [0x4b#8 ++ d ++ a ++ b]
  | .sand d a b => [0x4c#8 ++ d ++ a ++ b]
  | .sor d a b => [0x4d#8 ++ d ++ a ++ b]
  | .sxor d a b => [0x4e#8 ++ d ++ a ++ b]
  | .smov d a => [0x4f#8 ++ d ++ a ++ 0x0#8]
  | .fadd d a b => [0x50#8 ++ d ++ a ++ b]
  | .fsub d a b => [0x51#8 ++ d ++ a ++ b]
  | .fmul d a b => [0x52#8 ++ d ++ a ++ b]
  | .fma d a b => [0x53#8 ++ d ++ a ++ b]
  | .fnma d a b => [0x54#8 ++ d ++ a ++ b]
  | .fmin d a b => [0x55#8 ++ d ++ a ++ b]
  | .fmax d a b => [0x56#8 ++ d ++ a ++ b]
  | .fabs d a => [0x57#8 ++ d ++ a ++ 0x0#8]
  | .fneg d a => [0x58#8 ++ d ++ a ++ 0x0#8]
  | .fcmpEq d a b => [0x59#8 ++ d ++ a ++ b]
  | .fcmpNe d a b => [0x5a#8 ++ d ++ a ++ b]
  | .fcmpLt d a b => [0x5b#8 ++ d ++ a ++ b]
  | .fcmpLe d a b => [0x5c#8 ++ d ++ a ++ b]
  | .fcmpGt d a b => [0x5d#8 ++ d ++ a ++ b]
  | .fcmpGe d a b => [0x5e#8 ++ d ++ a ++ b]
  | .fcmpUn d a b => [0x5f#8 ++ d ++ a ++ b]
  | .fclass d a => [0x60#8 ++ d ++ a ++ 0x0#8]
  | .fdiv d a b => [0x61#8 ++ d ++ a ++ b]
  | .fsqrt d a => [0x62#8 ++ d ++ a ++ 0x0#8]
  | .frcp d a => [0x63#8 ++ d ++ a ++ 0x0#8]
  | .frsq d a => [0x64#8 ++ d ++ a ++ 0x0#8]
  | .exp2 d a => [0x65#8 ++ d ++ a ++ 0x0#8]
  | .log2 d a => [0x66#8 ++ d ++ a ++ 0x0#8]
  | .sinpi d a => [0x67#8 ++ d ++ a ++ 0x0#8]
  | .cospi d a => [0x68#8 ++ d ++ a ++ 0x0#8]
  | .cvtF d a s => [0x69#8 ++ d ++ a ++ 0x0#4 ++ s]
  | .cvtI d a s => [0x6a#8 ++ d ++ a ++ 0x0#4 ++ s]
  | .cvt8Sat d a s => [0x6b#8 ++ d ++ a ++ 0x0#4 ++ s]
  | .cvt8Inf d a s => [0x6c#8 ++ d ++ a ++ 0x0#4 ++ s]
  | .cvtq d a b => [0x6d#8 ++ d ++ a ++ b]
  | .cvtaSat d a b => [0x6e#8 ++ d ++ a ++ b]
  | .cvtaInf d a b => [0x6f#8 ++ d ++ a ++ b]
  | .fdot d a b => [0x70#8 ++ d ++ a ++ b]
  | .fdot8 d a b => [0x71#8 ++ d ++ a ++ b]
  | .shfl d a b => [0x80#8 ++ d ++ a ++ b]
  | .shflUp d a b => [0x81#8 ++ d ++ a ++ b]
  | .shflDn d a b => [0x82#8 ++ d ++ a ++ b]
  | .shflX d a b => [0x83#8 ++ d ++ a ++ b]
  | .bcast d a b => [0x84#8 ++ d ++ a ++ b]
  | .voteAny d a => [0x85#8 ++ d ++ a ++ 0x0#8]
  | .voteAll d a => [0x86#8 ++ d ++ a ++ 0x0#8]
  | .ballot d a => [0x87#8 ++ d ++ a ++ 0x0#8]
  | .matchV d a => [0x88#8 ++ d ++ a ++ 0x0#8]
  | .redSum d a => [0x89#8 ++ d ++ a ++ 0x0#8]
  | .redMin d a => [0x8a#8 ++ d ++ a ++ 0x0#8]
  | .redMax d a => [0x8b#8 ++ d ++ a ++ 0x0#8]
  | .redAnd d a => [0x8c#8 ++ d ++ a ++ 0x0#8]
  | .redOr d a => [0x8d#8 ++ d ++ a ++ 0x0#8]
  | .redXor d a => [0x8e#8 ++ d ++ a ++ 0x0#8]
  | .redmi d a => [0x8f#8 ++ d ++ a ++ 0x0#8]
  | .redma d a => [0x90#8 ++ d ++ a ++ 0x0#8]
  | .scanAdd d a => [0x91#8 ++ d ++ a ++ 0x0#8]
  | .perm d a b => [0x92#8 ++ d ++ a ++ b]
  | .pack d a b => [0x93#8 ++ d ++ a ++ b]
  | .unpack d a => [0x94#8 ++ d ++ a ++ 0x0#8]
  | .pand d a b => [0x95#8 ++ d ++ a ++ b]
  | .por d a b => [0x96#8 ++ d ++ a ++ b]
  | .pxor d a b => [0x97#8 ++ d ++ a ++ b]
  | .pnot d a => [0x98#8 ++ d ++ a ++ 0x0#8]
  | .kpop d a => [0x99#8 ++ d ++ a ++ 0x0#8]
  | .ld d b o => [0xa0#8 ++ d ++ b ++ o]
  | .st d b o => [0xa1#8 ++ d ++ b ++ o]
  | .ldu d b o => [0xa2#8 ++ d ++ b ++ o]
  | .ldx d b f z c => [0xa3#8 ++ d ++ b ++ f ++ z ++ 0x0#1 ++ c]
  | .waita s n t => [0xa4#8 ++ s ++ 0x0#3 ++ n ++ t]
  | .stm d a b => [0xa5#8 ++ d ++ a ++ b]
  | .lds d b o => [0xa6#8 ++ d ++ b ++ o]
  | .sts d b o => [0xa7#8 ++ d ++ b ++ o]
  | .ldaGrove d b o => [0xa8#8 ++ d ++ b ++ o]
  | .ldaStand d b o => [0xa9#8 ++ d ++ b ++ o]
  | .ldaCluster d b o => [0xaa#8 ++ d ++ b ++ o]
  | .ldaDie d b o => [0xab#8 ++ d ++ b ++ o]
  | .ldaPartition d b o => [0xac#8 ++ d ++ b ++ o]
  | .ldaDevice d b o => [0xad#8 ++ d ++ b ++ o]
  | .ldaSystem d b o => [0xae#8 ++ d ++ b ++ o]
  | .stlGrove d b o => [0xaf#8 ++ d ++ b ++ o]
  | .stlStand d b o => [0xb0#8 ++ d ++ b ++ o]
  | .stlCluster d b o => [0xb1#8 ++ d ++ b ++ o]
  | .stlDie d b o => [0xb2#8 ++ d ++ b ++ o]
  | .stlPartition d b o => [0xb3#8 ++ d ++ b ++ o]
  | .stlDevice d b o => [0xb4#8 ++ d ++ b ++ o]
  | .stlSystem d b o => [0xb5#8 ++ d ++ b ++ o]
  | .ldcGrove d b o => [0xb6#8 ++ d ++ b ++ o]
  | .ldcStand d b o => [0xb7#8 ++ d ++ b ++ o]
  | .ldcCluster d b o => [0xb8#8 ++ d ++ b ++ o]
  | .ldcDie d b o => [0xb9#8 ++ d ++ b ++ o]
  | .ldcPartition d b o => [0xba#8 ++ d ++ b ++ o]
  | .ldcDevice d b o => [0xbb#8 ++ d ++ b ++ o]
  | .ldcSystem d b o => [0xbc#8 ++ d ++ b ++ o]
  | .atomAdd d a b => [0xbd#8 ++ d ++ a ++ b]
  | .atomMin d a b => [0xbe#8 ++ d ++ a ++ b]
  | .atomMax d a b => [0xbf#8 ++ d ++ a ++ b]
  | .atomAnd d a b => [0xc0#8 ++ d ++ a ++ b]
  | .atomOr d a b => [0xc1#8 ++ d ++ a ++ b]
  | .atomXor d a b => [0xc2#8 ++ d ++ a ++ b]
  | .atomXchg d a b => [0xc3#8 ++ d ++ a ++ b]
  | .atomCas d a b => [0xc4#8 ++ d ++ a ++ b]
  | .atomFadd d a b => [0xc5#8 ++ d ++ a ++ b]
  | .fence s => [0x18c0#13 ++ s ++ 0x0#16]
  | .invRange a b => [0xc700#16 ++ a ++ b]
  | .wbRange a b => [0xc800#16 ++ a ++ b]
  | .sdec d a b => [0x340#10 ++ d ++ 0x0#2 ++ a ++ 0x0#2 ++ b]
  | .senc d a b => [0x344#10 ++ d ++ 0x0#2 ++ a ++ 0x0#2 ++ b]
  | .serr d a b => [0x348#10 ++ d ++ 0x0#2 ++ a ++ 0x0#2 ++ b]
  | .sblk d a b => [0x34c#10 ++ d ++ 0x0#2 ++ a ++ 0x0#2 ++ b]
  | .cpy d a b => [0xd4#8 ++ d ++ a ++ b]
  | .cpym d a b => [0xd5#8 ++ d ++ a ++ b]
  | .cpyx d a b => [0xd6#8 ++ d ++ a ++ b]
  | .seal => [0xd7000000#32]
  | .waitb s n => [0x1b00#13 ++ s ++ n]
  | .dictLd k a => [0x6c80#15 ++ k ++ a ++ 0x0#8]
  | .cpyRes => [0xda000000#32]
  | .cpyResAbandon => [0xda000001#32]
  | .spawn d a b => [0xe0#8 ++ d ++ a ++ b]
  | .rebin d b => [0xe1#8 ++ d ++ 0x0#8 ++ b]
  | .floeDef n a b => [0x388#10 ++ n ++ a ++ b]
  | .floeRel n => [0x38c#10 ++ n ++ 0x0#16]
  | .floeSt d n => [0xe4#8 ++ d ++ 0x0#2 ++ n ++ 0x0#8]
  | .barArr n => [0xe50#12 ++ n ++ 0x0#16]
  | .barWait n => [0xe60#12 ++ n ++ 0x0#16]
  | .barSync n => [0xe70#12 ++ n ++ 0x0#16]
  | .tlwait s t r n => [0xe8#8 ++ s ++ t ++ r ++ 0x0#3 ++ n]
  | .tlrd t d w => [0x3a4#10 ++ t ++ d ++ 0x0#15 ++ w]
  | .peek d a b => [0xf0#8 ++ d ++ a ++ b]
  | .poke d a b => [0xf1#8 ++ d ++ a ++ b]
  | .stepLane x m => [0x790#11 ++ x ++ 0x0#11 ++ m]
  | .stepRun x m => [0x790#11 ++ x ++ 0x400#11 ++ m]
  | .stepHalt x m => [0x790#11 ++ x ++ 0x200#11 ++ m]
  | .rimew r n a b => [0x3cc#10 ++ r ++ n ++ a ++ b]
  | .samp k => [0x7a00000#27 ++ k]
  | .mnop => [0x0#32]
  | .mend => [0x4000000#32]
  | .mendGo => [0x4000001#32]
  | .mjmp o => [0x10#9 ++ o]
  | .mloop x o => [0x3#6 ++ x ++ o]
  | .mbarArr n => [0x1000000#28 ++ n]
  | .mbarWait n => [0x1400000#28 ++ n]
  | .mfence => [0x18000000#32]
  | .mmode t => [0x1c00000#28 ++ t]
  | .mrecLd q s x n p => [0x8#6 ++ q ++ s ++ x ++ 0x0#1 ++ n ++ p]
  | .mrecSc q s x n p => [0x9#6 ++ q ++ s ++ x ++ 0x0#1 ++ n ++ p]
  | .mzero c => [0xa#6 ++ c ++ 0x0#22]
  | .mma c a b => [0xb#6 ++ c ++ a ++ b ++ 0x0#14]
  | .mmaSp c a b m => [0xc#6 ++ c ++ a ++ b ++ m ++ 0x0#10]
  | .xadd d a s i => [0x10#6 ++ d ++ a ++ s ++ i]
  | .xsub d a s i => [0x11#6 ++ d ++ a ++ s ++ i]
  | .xmul d a s i => [0x12#6 ++ d ++ a ++ s ++ i]
  | .xshl d a s i => [0x13#6 ++ d ++ a ++ s ++ i]
  | .xshr d a s i => [0x14#6 ++ d ++ a ++ s ++ i]
  | .xand d a s i => [0x15#6 ++ d ++ a ++ s ++ i]
  | .xior d a s i => [0x16#6 ++ d ++ a ++ s ++ i]
  | .xxor d a s i => [0x17#6 ++ d ++ a ++ s ++ i]
  | .xli d i => [0x18#6 ++ d ++ i]
  | .matrixOperationStart _ => []
  | .matrixOperationComplete _ => []
  | .pin _ => []
  | .regTaken _ _ => []
  | .grant _ _ => []
  | .fwdRead _ _ => []
  | .recall _ _ => []
  | .dataAnswer _ _ => []
  | .wbTaken _ _ => []
  | .homeRead _ _ _ => []
  | .fillReply _ _ => []
  | .atomicAtHome _ _ => []
  | .lostRegistrant _ => []
  | .groupFillComplete _ => []
  | .depart _ => []
  | .hostRead _ _ => []
  | .hostWrite _ _ => []
  | .hostAtomicop _ _ _ _ _ => []
  | .hostOwnership _ => []
  | .hostReadShared _ => []
  | .probe _ _ _ => []
  | .hostInvalidate _ => []
  | .remoteRequest _ _ _ _ => []
  | .peerTimeout _ _ => []
  | .expanderRemoved _ => []
  | .portRequest _ _ => []
  | .tokenRefill => []
  | .bwtokReset => []
  | .refresh _ _ => []
  | .conversionComplete _ => []
  | .ldxReply _ _ _ _ _ => []
  | .deposit _ _ => []
  | .binTimerExpiry _ _ => []
  | .binLaunch _ => []
  | .copyChunk _ _ => []
  | .multicastLanding _ _ _ => []
  | .chunkFault _ _ => []
  | .dictTableLoaded _ _ => []
  | .trapEntry _ _ => []
  | .preemptDeadline _ => []
  | .saveStand _ => []
  | .restoreStand _ => []
  | .dispatcherPreempt _ _ => []
  | .driftInterval _ _ => []
  | .driftSwap _ => []
  | .hostLaunch _ _ _ => []
  | .batchSend => []
  | .placement _ => []
  | .batchReturn _ => []
  | .freeSlotReport _ => []
  | .tlbiAll _ _ => []
  | .tlbiAsid _ _ => []
  | .tlbiPage _ _ => []
  | .tlbiPageAllAsid _ _ => []
  | .tlbiComplete _ => []
  | .walkPage _ => []
  | .windowEnable _ _ _ => []
  | .windowDisable _ _ => []
  | .windowDisableDone _ => []
  | .preemptSet _ _ _ _ => []
  | .preemptClear _ _ _ _ => []
  | .preemptForce _ _ _ _ => []
  | .occClear _ _ => []
  | .probemisRead _ _ => []
  | .launchstRead _ _ => []
  | .errcntRead _ => []
  | .xfercntRead _ => []
  | .mdropRead _ => []
  | .traceptrWrite _ _ _ => []
  | .ownerClaim _ => []
  | .ownerNext _ _ => []
  | .ownerTimeout => []
  | .partitionCreate _ _ _ => []
  | .partitionReset _ _ => []
  | .partitionRemove _ _ => []
  | .partitionOpComplete _ => []
  | .powerUp => []
  | .firmwareStart _ => []
  | .firmwareVerified _ _ _ => []
  | .liveUpdate _ => []
  | .recalibrate _ _ => []
  | .retireCore _ _ => []
  | .retireChannel _ _ => []
  | .readCounters _ => []
  | .fatalError _ => []
  | .throttleEvent _ _ _ => []
  | .powerWindowEnd _ => []
  | .registerWrite _ _ _ _ => []
  | .hostLinkAcknowledge _ => []
  | .hostRecallData _ _ => []
  | .serviceOperationComplete => []
  | .clkTick _ => []

/-- Four bytes, least significant first, as a word (00 R7). -/
def word32 (b0 b1 b2 b3 : Byte) : BitVec 32 := b3 ++ b2 ++ b1 ++ b0

/-- Decodes the first grove-stream instruction of a list of bytes and gives the bytes after it. -/
def decodeBytes (bs : List Byte) : Except DecErr (Instr × List Byte) :=
  match bs with
  | b0 :: b1 :: b2 :: b3 :: rest =>
    let w := word32 b0 b1 b2 b3
    if fld w 24 8 = 0x01#8 then
      match rest with
      | c0 :: c1 :: c2 :: c3 :: rest' => (decodeGrove w (word32 c0 c1 c2 c3)).map (·, rest')
      | _ => .error .truncated
    else (decodeGrove w 0).map (·, rest)
  | _ => .error .truncated

/-- Decodes the first matrix-stream word of a list of bytes. -/
def decodeMatrixBytes (bs : List Byte) : Except DecErr (Instr × List Byte) :=
  match bs with
  | b0 :: b1 :: b2 :: b3 :: rest => (decodeMatrix (word32 b0 b1 b2 b3)).map (·, rest)
  | _ => .error .truncated

/-- The bytes of a word number whose bit 0 is the least significant bit of the first word: little-endian (00 R7). -/
def bytesOf : Nat → Nat → List Byte
  | 0, _ => []
  | n + 1, w => BitVec.ofNat 8 w :: bytesOf n (w / 256)

/-- Whether a table word is read as a matrix-stream word: it is no well-formed grove-stream instruction
(the two streams share their words, log entry 15). -/
def tableIsMatrix (bs : List Byte) : Bool :=
  match decodeBytes bs with
  | .ok (i, _) => !i.wellFormed
  | .error _ => true

/-- The instruction the decoder reads from a table word laid out in memory, the words after it zero. -/
def decodeTableWord (_nbits w : Nat) : Option Instr :=
  let bs := bytesOf 12 w
  if tableIsMatrix bs then (decodeMatrixBytes bs).toOption.map (·.1) else (decodeBytes bs).toOption.map (·.1)

end Sys2Proof
end

