-- ==== Sys2Proof/Config.lean ====
section
/-! DEFINITION. What the manual leaves open: free values, each a constant with no body (log entries 3, 4, 7, 8, 9, 20). -/

namespace Sys2Proof.Config

/-- Which agent moves next when the agenda holds none (log entry 3; DESIGN CHOICE, a free value). -/
opaque turn : Nat → Turn

/-- A fresh free value for each count: path and lane orders (08 R173, 05 R106, 08 R189), replacement in L1,
data that comes from another module (log entries 4, 8, 9; free values). -/
opaque freeWord : Nat → Word

/-- The value the special-function unit delivers for a function, a format and an operand, before the bound of 06 R147
is applied to it (log entry 20; a free value that depends on the operand alone). -/
opaque sfu : Nat → Nat → Nat → Nat

/-- The set, 0 to 1,023, that a slice keeps a line in: 03 R71 gives no index rule (log entry 7; a free value). -/
opaque l2Set : Nat → Nat

/-- The row, bank and subarray that hold a stack offset, `65536 * row + 64 * bank + subarray`: 03 R78 gives no address rule
(log entry 7; a free value). -/
opaque rowOf : Nat → Nat

end Sys2Proof.Config
end

