-- ==== Sys2Proof/Machine/Flags.lean ====
section
/-! DEFINITION. Number formats, Round, the exception flags and NaN rules (06 R131 to R148), on exact dyadic numbers. -/

namespace Sys2Proof.Machine

/-- The five flags of 06 R134, bit order NV, DZ, OF, UF, NX. -/
abbrev FFlags := BitVec 5
def fNV : FFlags := 1#5
def fDZ : FFlags := 2#5
def fOF : FFlags := 4#5
def fUF : FFlags := 8#5
def fNX : FFlags := 16#5

/-- A binary format: fraction bits, exponent bits, bias, and whether it is e4m3 (06 R131, R137). -/
structure Fmt where
  mb : Nat
  eb : Nat
  bias : Nat
  e4 : Bool
deriving DecidableEq, Repr

/-- The format of a floating type of MODE (10 R224). Types that are not floating read as f64. -/
def fmtOf (t : Nat) : Fmt :=
  match t with
  | 8 => ⟨10, 5, 15, false⟩
  | 9 => ⟨7, 8, 127, false⟩
  | 10 => ⟨23, 8, 127, false⟩
  | 12 => ⟨3, 4, 7, true⟩
  | 13 => ⟨2, 5, 15, false⟩
  | _ => ⟨52, 11, 1023, false⟩

/-- The A56 accumulator format (06 R131). -/
def fmtA56 : Fmt := ⟨46, 9, 255, false⟩

def Fmt.isFp8 (f : Fmt) : Bool := decide (f.mb + f.eb = 7)
/-- Exponent of the smallest normal value. -/
def Fmt.emin (f : Fmt) : Int := 1 - f.bias
/-- Exponent of the largest finite value. -/
def Fmt.emax (f : Fmt) : Int := if f.e4 then 8 else f.bias
def Fmt.signBit (f : Fmt) (neg : Bool) : Nat := if neg then 2 ^ (f.mb + f.eb) else 0
def Fmt.infBits (f : Fmt) (neg : Bool) : Nat :=
  f.signBit neg + (if f.e4 then 0x7F else (2 ^ f.eb - 1) * 2 ^ f.mb)
def Fmt.maxBits (f : Fmt) (neg : Bool) : Nat :=
  f.signBit neg + (if f.e4 then 0x7E else (2 ^ f.eb - 1) * 2 ^ f.mb - 1)
/-- The canonical NaN with a sign (06 R136). -/
def Fmt.canonNaN (f : Fmt) (neg : Bool) : Nat :=
  f.signBit neg + (if f.e4 then 0x7F else (2 ^ f.eb - 1) * 2 ^ f.mb + 2 ^ (f.mb - 1))

/-- The value of an element: a NaN with its fraction, an infinity, or `(-1)^neg * m * 2^e` (06 R131). -/
inductive FVal where
  | nan (neg quiet : Bool) (frac : Nat)
  | inf (neg : Bool)
  | fin (neg : Bool) (m : Nat) (e : Int)
deriving DecidableEq, Repr, Inhabited

/-- Reads a bit pattern of a format (06 R131, R137). -/
def Fmt.decode (f : Fmt) (w : Nat) : FVal :=
  let frac := w % 2 ^ f.mb
  let ex := (w / 2 ^ f.mb) % 2 ^ f.eb
  let neg := decide ((w / 2 ^ (f.mb + f.eb)) % 2 = 1)
  if f.e4 ∧ ex = 15 ∧ frac = 7 then .nan neg true 4
  else if ¬ f.e4 ∧ ex = 2 ^ f.eb - 1 then
    if frac = 0 then .inf neg else .nan neg (decide (2 ^ (f.mb - 1) ≤ frac)) frac
  else if ex = 0 then .fin neg frac (f.emin - f.mb)
  else .fin neg (2 ^ f.mb + frac) ((ex : Int) - f.bias - f.mb)

def FVal.isNaN (v : FVal) : Bool := match v with | .nan .. => true | _ => false
def FVal.isSNaN (v : FVal) : Bool := match v with | .nan _ q _ => !q | _ => false
def FVal.isInf (v : FVal) : Bool := match v with | .inf _ => true | _ => false
def FVal.isZero (v : FVal) : Bool := match v with | .fin _ 0 _ => true | _ => false
def FVal.neg (v : FVal) : Bool := match v with | .nan n _ _ => n | .inf n => n | .fin n _ _ => n
def FVal.negate (v : FVal) : FVal :=
  match v with | .nan n q f => .nan (!n) q f | .inf n => .inf (!n) | .fin n m e => .fin (!n) m e

/-- Bits of a quiet NaN carried from format `src` to `f`, sign and high payload kept (06 R136). -/
def Fmt.nanFrom (f src : Fmt) (neg : Bool) (frac : Nat) : Nat :=
  if f.isFp8 || src.isFp8 then f.canonNaN neg
  else
    let fr := if src.mb ≤ f.mb then frac * 2 ^ (f.mb - src.mb) else frac / 2 ^ (src.mb - f.mb)
    f.signBit neg + (2 ^ f.eb - 1) * 2 ^ f.mb + (fr ||| 2 ^ (f.mb - 1))

/-- `m` (with a rest below its last bit when `st`) divided by `2^sh` and rounded by a mode; and whether that was
inexact (06 R133). Modes: 0 rne, 1 rtz, 2 rup, 3 rdn, 4 rna. -/
def roundShift (mode : Nat) (neg : Bool) (m sh : Nat) (st : Bool) : Nat × Bool :=
  let q := m / 2 ^ sh
  let r := m % 2 ^ sh
  let inex := decide (r ≠ 0) || st
  let half := if sh = 0 then 1 else 2 ^ (sh - 1)
  let above := if sh = 0 then false else decide (half < r) || (decide (r = half) && st)
  let tie := if sh = 0 then false else decide (r = half) && !st
  let up := match mode with
    | 0 => above || (tie && decide (q % 2 = 1))
    | 1 => false
    | 2 => inex && !neg
    | 3 => inex && neg
    | _ => above || tie
  (if up then q + 1 else q, inex)

/-- How an overflow is delivered: by the table of 06 R133, or saturated (06 R138 `.sat`). -/
def Fmt.overflow (f : Fmt) (mode : Nat) (sat neg : Bool) : Nat :=
  if sat then f.maxBits neg
  else match mode with
    | 1 => f.maxBits neg
    | 2 => if neg then f.maxBits neg else f.infBits neg
    | 3 => if neg then f.infBits neg else f.maxBits neg
    | _ => f.infBits neg

/-- Number of bits of a natural number. -/
def bitLen (m : Nat) : Nat := if m = 0 then 0 else Nat.log2 m + 1

/-- Round of 06 R133 (R138 with `sat`): bits and flags of `(-1)^neg * m * 2^e`, with a rest below the last bit of `m`
when `st`; a caller that sets `st` gives at least `mb + 3` bits. -/
def Fmt.roundVal (f : Fmt) (mode : Nat) (sat neg : Bool) (m : Nat) (e : Int) (st : Bool) : Nat × FFlags :=
  if m = 0 ∧ st = false then (f.signBit neg, 0)
  else
    let len := bitLen m
    let sh := len - (f.mb + 1)
    let r1 := roundShift mode neg m sh st
    let top0 := e + len - 1
    let top := if len ≤ f.mb + 1 then top0 else if r1.1 = 2 ^ (f.mb + 1) then top0 + 1 else top0
    if top < f.emin then
      let unit := f.emin - f.mb
      if unit ≤ e then (f.signBit neg + m * 2 ^ (e - unit).toNat, 0)
      else
        let r2 := roundShift mode neg m (unit - e).toNat st
        (f.signBit neg + r2.1, if r2.2 then fUF ||| fNX else 0)
    else
      let sig := if len ≤ f.mb + 1 then m * 2 ^ (f.mb + 1 - len)
        else if r1.1 = 2 ^ (f.mb + 1) then 2 ^ f.mb else r1.1
      if f.emax < top ∨ (f.e4 = true ∧ top = 8 ∧ sig = 15) then (f.overflow mode sat neg, fOF ||| fNX)
      else (f.signBit neg + (top + f.bias).toNat * 2 ^ f.mb + (sig - 2 ^ f.mb), if r1.2 then fNX else 0)

/-- Bits and flags of the first NaN operand, quieted; NV when some operand is signalling (06 R136). -/
def nanResult (f : Fmt) (ops : List FVal) : Option (Nat × FFlags) :=
  match ops.find? FVal.isNaN with
  | some (.nan n _ fr) => some (f.nanFrom f n fr, if ops.any FVal.isSNaN then fNV else 0)
  | _ => none

/-- The canonical NaN with NV (06 R136). -/
def invalid (f : Fmt) : Nat × FFlags := (f.canonNaN false, fNV)

/-- The exact sum of finite terms, over the unit `2^e`. -/
def sumInt (e : Int) (ts : List FVal) : Int :=
  ts.foldl (fun acc t => match t with
    | .fin n m k => acc + (if n then -1 else 1) * ((m * 2 ^ (k - e).toNat : Nat) : Int)
    | _ => acc) 0

def minExp (ts : List FVal) : Int :=
  ts.foldl (fun acc t => match t with | .fin _ _ k => if k < acc then k else acc | _ => acc)
    (match ts with | .fin _ _ k :: _ => k | _ => 0)

/-- Whether an exact zero sum is negative (12 R259, R268): −0 under `rdn` unless every term is +0, else +0 unless every
term is −0. -/
def zeroSumNeg (mode : Nat) (ts : List FVal) : Bool :=
  if mode = 3 then !ts.all (fun t => !t.neg && t.isZero) else ts.all (fun t => t.neg && t.isZero)

/-- Round of the sum of terms that are not NaN (12 R259, R268). -/
def sumRound (f : Fmt) (mode : Nat) (ts : List FVal) : Nat × FFlags :=
  let infs := ts.filter FVal.isInf
  if infs.any FVal.neg && infs.any (fun v => !v.neg) then invalid f
  else if !infs.isEmpty then (f.infBits (infs.any FVal.neg), 0)
  else
    let e := minExp ts
    let v := sumInt e ts
    if v = 0 then (f.signBit (zeroSumNeg mode ts), 0)
    else f.roundVal mode false (decide (v < 0)) v.natAbs e false

/-- The exact product; none for 0 · ∞. Operands are not NaN. The sign of a zero product is that of the operands' signs, also
where an operand is an integer (log entry 106, DESIGN CHOICE: 06 R144 gives the product of integers no sign of zero). -/
def mulVal (x y : FVal) : Option FVal :=
  let n := x.neg != y.neg
  match x, y with
  | .fin _ m e, .fin _ k d => some (.fin n (m * k) (e + d))
  | .inf _, .fin _ 0 _ => none
  | .fin _ 0 _, .inf _ => none
  | _, _ => some (.inf n)

/-- A product 0 · ∞ (06 R134). -/
def mulInvalid (x y : FVal) : Bool := (x.isZero && y.isInf) || (x.isInf && y.isZero)

/-! ## Element operations of 12 R259 to R263, on bit patterns -/

def fAdd (f : Fmt) (mode a b : Nat) : Nat × FFlags :=
  let x := f.decode a
  let y := f.decode b
  (nanResult f [x, y]).getD (sumRound f mode [x, y])

def fSub (f : Fmt) (mode a b : Nat) : Nat × FFlags :=
  let x := f.decode a
  let y := f.decode b
  (nanResult f [x, y]).getD (sumRound f mode [x, y.negate])

def fMul (f : Fmt) (mode a b : Nat) : Nat × FFlags :=
  let x := f.decode a
  let y := f.decode b
  match nanResult f [x, y] with
  | some r => r
  | none => match mulVal x y with
    | none => invalid f
    | some (.fin n m e) => f.roundVal mode false n m e false
    | some v => (f.infBits v.neg, 0)

/-- `fma` and, with `negP`, `fnma` (12 R259): NaN order x, y, z; NV for 0 · ∞ even beside a quiet NaN z (06 R134). -/
def fMa (f : Fmt) (mode : Nat) (negP : Bool) (a b c : Nat) : Nat × FFlags :=
  let x := f.decode a
  let y := f.decode b
  let z := f.decode c
  match nanResult f [x, y, z] with
  | some r => (r.1, if mulInvalid x y then r.2 ||| fNV else r.2)
  | none => match mulVal x y with
    | none => invalid f
    | some p => sumRound f mode [if negP then p.negate else p, z]

/-- x < y over the order of 12 R260, −0 before +0; operands are not NaN. -/
def fLess (x y : FVal) : Bool :=
  match x, y with
  | .inf n, .inf m => n && !m
  | .inf n, .fin .. => n
  | .fin .., .inf m => !m
  | .fin n a e, .fin m b d =>
    let k := if e ≤ d then e else d
    let u : Int := (if n then -1 else 1) * ((a * 2 ^ (e - k).toNat : Nat) : Int)
    let v : Int := (if m then -1 else 1) * ((b * 2 ^ (d - k).toNat : Nat) : Int)
    decide (u < v) || (decide (a = 0 ∧ b = 0) && n && !m)
  | _, _ => false

/-- `fmin`, or `fmax` when `mx` (12 R260). -/
def fMinMax (f : Fmt) (mx : Bool) (a b : Nat) : Nat × FFlags :=
  let x := f.decode a
  let y := f.decode b
  match x.isNaN, y.isNaN with
  | true, true => (nanResult f [x, y]).getD (0, 0)
  | true, false => (b, if x.isSNaN then fNV else 0)
  | false, true => (a, if y.isSNaN then fNV else 0)
  | false, false => (if (if mx then fLess x y else fLess y x) then b else a, 0)

/-- Values compare equal: −0 equals +0 (12 R261). -/
def fEq (x y : FVal) : Bool :=
  !x.isNaN && !y.isNaN && ((x.isZero && y.isZero) || (!fLess x y && !fLess y x))

/-- x < y in value: −0 is not below +0 (12 R261). -/
def fLt (x y : FVal) : Bool := !x.isNaN && !y.isNaN && !(x.isZero && y.isZero) && fLess x y

/-- `fdiv` (12 R263; 06 R134, R147). -/
def fDiv (f : Fmt) (mode a b : Nat) : Nat × FFlags :=
  let x := f.decode a
  let y := f.decode b
  match nanResult f [x, y] with
  | some r => r
  | none =>
    let n := x.neg != y.neg
    match x, y with
    | .inf _, .inf _ => invalid f
    | .inf _, _ => (f.infBits n, 0)
    | .fin .., .inf _ => (f.signBit n, 0)
    | .fin _ m e, .fin _ k d =>
      if k = 0 then (if m = 0 then invalid f else (f.infBits n, fDZ))
      else if m = 0 then (f.signBit n, 0)
      else
        let sh := f.mb + 4 + bitLen k
        f.roundVal mode false n (m * 2 ^ sh / k) (e - d - sh) (decide (m * 2 ^ sh % k ≠ 0))
    | _, _ => invalid f

/-- ⌊√v⌋, one bit at a time from bit `k` down. -/
def isqrtBits (v : Nat) : Nat → Nat → Nat
  | 0, acc => acc
  | k + 1, acc => let t := acc + 2 ^ k; isqrtBits v k (if t * t ≤ v then t else acc)

def isqrt (v : Nat) : Nat := isqrtBits v (bitLen v / 2 + 1) 0

/-- `fsqrt` (12 R263; 06 R147). -/
def fSqrt (f : Fmt) (mode a : Nat) : Nat × FFlags :=
  let x := f.decode a
  match nanResult f [x] with
  | some r => r
  | none => match x with
    | .inf n => if n then invalid f else (f.infBits false, 0)
    | .fin n m e =>
      if m = 0 then (f.signBit n, 0)
      else if n then invalid f
      else
        let sh := 2 * (f.mb + 4) + (if (e % 2 : Int) = 0 then 0 else 1)
        let v := m * 2 ^ sh
        let r := isqrt v
        f.roundVal mode false false r ((e - sh) / 2) (decide (r * r ≠ v))
    | _ => invalid f

/-- `fclass` (12 R262). -/
def fClass (f : Fmt) (a : Nat) : Nat :=
  match f.decode a with
  | .nan _ q _ => if q then 512 else 256
  | .inf n => if n then 1 else 128
  | .fin n m _ =>
    let sub := decide (m < 2 ^ f.mb)
    if m = 0 then (if n then 8 else 16)
    else if n then (if sub then 4 else 2) else (if sub then 32 else 64)

/-! ## Conversions (06 R138, R139, R146) -/

/-- A value of format `src` delivered in format `f`; `sat` is the `.sat` form of 06 R138. -/
def cvtFF (f src : Fmt) (mode : Nat) (sat : Bool) (v : FVal) : Nat × FFlags :=
  match v with
  | .nan n q fr => (f.nanFrom src n fr, if q then 0 else fNV)
  | .inf n => if f.isFp8 && sat then (f.maxBits n, fNX) else (f.infBits n, 0)
  | .fin n m e => f.roundVal mode sat n m e false

/-- An integer delivered in format `f` (06 R139). -/
def cvtIF (f : Fmt) (mode : Nat) (sat : Bool) (v : Int) : Nat × FFlags :=
  f.roundVal mode sat (decide (v < 0)) v.natAbs 0 false

/-- A finite value rounded to an integer by a mode, and whether that was inexact. -/
def roundInt (mode : Nat) (neg : Bool) (m : Nat) (e : Int) : Int × Bool :=
  if 0 ≤ e then ((if neg then -1 else 1) * ((m * 2 ^ e.toNat : Nat) : Int), false)
  else
    let r := roundShift mode neg m (-e).toNat false
    ((if neg then -1 else 1) * (r.1 : Int), r.2)

def intMin (t : Nat) : Int := if typeSigned t then -(2 ^ (typeBits t - 1) : Nat) else 0
def intMax (t : Nat) : Int :=
  if typeSigned t then (2 ^ (typeBits t - 1) : Nat) - 1 else (2 ^ typeBits t : Nat) - 1

/-- A value delivered in an integer type (06 R139). -/
def cvtFI (t mode : Nat) (v : FVal) : Nat × FFlags :=
  let w := typeBits t
  match v with
  | .nan .. => (0, fNV)
  | .inf n => (wrap w (if n then intMin t else intMax t), fNV)
  | .fin n m e =>
    let r := roundInt mode n m e
    if r.1 < intMin t then (wrap w (intMin t), fNV)
    else if intMax t < r.1 then (wrap w (intMax t), fNV)
    else (wrap w r.1, if r.2 then fNX else 0)

/-- The value of an integer element. -/
def intVal (t v : Nat) : Int := if typeSigned t then sextNat (typeBits t) v else (v % 2 ^ typeBits t : Nat)

/-- `cvta` of one slot (06 R146): the conversion's flags with the slot's OVF, INV and INX as OF, NV and NX. -/
def cvtSlot (t mode : Nat) (sat : Bool) (slot : Word) : Nat × FFlags :=
  let v := fmtA56.decode slot.toNat
  let extra : FFlags := (if slot.getLsbD 63 then fOF else 0) ||| (if slot.getLsbD 62 then fNV else 0) |||
    (if slot.getLsbD 61 then fNX else 0)
  let r : Nat × FFlags :=
    if t < 8 then cvtFI t mode v
    else match v with
      | .nan .. => ((fmtOf t).canonNaN false, 0)
      | _ => cvtFF (fmtOf t) fmtA56 mode (sat && (fmtOf t).isFp8) v
  (r.1, r.2 ||| extra)

/-! ## The special-function unit (06 R147, R148) -/

/-- One, two and so on in the fixed point of the reference values: 200 fraction bits. -/
def fxOne : Nat := 2 ^ 200
def fxMul (a b : Nat) : Nat := a * b / fxOne

/-- ⌊2^200 · π⌋. -/
def fxPi : Nat := 0x3243F6A8885A308D313198A2E03707344A4093822299F31D008
/-- ⌊2^200 · ln 2⌋. -/
def fxLn2 : Nat := 0xB17217F7D1CF79ABC9E3B39803F2F6AF40F343267298B62D8A

/-- Σ z^k / k!, from term `k` on, `fuel` terms. -/
def fxExpFrom (z : Nat) : Nat → Nat → Nat → Nat
  | 0, _, _ => 0
  | fuel + 1, k, term => term + fxExpFrom z fuel (k + 1) (fxMul term z / (k + 1))

/-- 2^f for a fixed-point f in [0, 1). -/
def fxExp2 (f : Nat) : Nat := fxExpFrom (fxMul f fxLn2) 60 0 fxOne

/-- Fraction bits of log2 of a fixed-point y in [1, 2), one at a time by squaring. -/
def fxLog2From : Nat → Nat → Nat → Nat
  | 0, _, acc => acc
  | fuel + 1, y, acc =>
    let z := fxMul y y
    if 2 * fxOne ≤ z then fxLog2From fuel (z / 2) (2 * acc + 1) else fxLog2From fuel z (2 * acc)

/-- 1 − z/(k(k+1)) + … : the alternating series of sin(a)/a (k = 2) and cos(a) (k = 1), with z = a². -/
def fxAlt (z : Nat) : Nat → Nat → Nat
  | 0, _ => fxOne
  | fuel + 1, k => fxOne - fxMul z (fxAlt z fuel (k + 2)) / (k * (k + 1))

/-- A reference value: sign, magnitude `m * 2^e`. -/
structure RefVal where
  neg : Bool
  m : Nat
  e : Int
deriving DecidableEq, Repr

/-- sin(π·m·2^e) for a magnitude of at most 1/4. -/
def refSin (m : Nat) (e : Int) : Nat × Int :=
  let sh : Int := e + 200
  let a := if sh < 0 then m * fxPi / 2 ^ (200 + (-sh).toNat) else fxMul (m * 2 ^ sh.toNat) fxPi
  (m * fxPi / 2 ^ 20 * fxAlt (fxMul a a) 30 2 / 2 ^ 180, e - 200)

/-- cos(π·m·2^e) for a magnitude of at most 1/4. -/
def refCos (m : Nat) (e : Int) : Nat × Int :=
  let sh : Int := e + 200
  let a := if sh < 0 then m * fxPi / 2 ^ (200 + (-sh).toNat) else fxMul (m * 2 ^ sh.toNat) fxPi
  (fxAlt (fxMul a a) 30 1, -200)

/-- sin(π·x) for 0 ≤ x = m·2^e < 2, `e ≤ -3`; the sign and the magnitude. -/
def refSinPi (m : Nat) (e : Int) : RefVal :=
  let unit := 2 ^ (-e - 2).toNat     -- a quarter
  let m1 := if 4 * unit ≤ m then m - 4 * unit else m
  let neg := decide (4 * unit ≤ m)
  let m2 := if 2 * unit < m1 then 4 * unit - m1 else m1
  let r := if m2 ≤ unit then refSin m2 e else refCos (2 * unit - m2) e
  ⟨neg, r.1, r.2⟩

/-- Round by `rne` of a reference value. -/
def RefVal.round (f : Fmt) (r : RefVal) : Nat := (f.roundVal 0 false r.neg r.m r.e true).1

/-- Twice the distance bound in ulps, by function and format (06 R147). Functions: 0 exp2, 1 log2, 2 sinpi, 3 cospi,
4 frcp, 5 frsq. -/
def sfuBound2 (fn : Nat) (f : Fmt) (sub : Bool) : Nat :=
  match fn with
  | 0 => if f.mb = 23 then (if sub then 4 else 3) else 4
  | 1 => if f.mb = 23 then 3 else 4
  | 2 => 4
  | 3 => 4
  | _ => 2

/-- |v − r| is at most the bound, in ulps of r (06 R147). -/
def sfuWithin (fn : Nat) (f : Fmt) (r : RefVal) (c : Nat) : Bool :=
  match f.decode c with
  | .fin n m e =>
    let top := r.e + bitLen r.m - 1
    let sub := decide (top < f.emin)
    let ulp := (if sub then f.emin else top) - f.mb
    let k := if e ≤ r.e then (if e ≤ ulp - 1 then e else ulp - 1) else (if r.e ≤ ulp - 1 then r.e else ulp - 1)
    let v : Int := (if n then -1 else 1) * ((m * 2 ^ (e - k).toNat : Nat) : Int)
    let w : Int := (if r.neg then -1 else 1) * ((r.m * 2 ^ (r.e - k).toNat : Nat) : Int)
    decide ((v - w).natAbs ≤ sfuBound2 fn f sub * 2 ^ (ulp - 1 - k).toNat)
  | _ => false

/-- The delivered value on f32 or f64: the free value where it keeps the bound, else the nearest value
(06 R147; log entry 20). -/
def sfuDeliver (fn t : Nat) (a : Nat) (r : RefVal) : Nat :=
  let f := fmtOf t
  let c := Config.sfu fn t a % 2 ^ typeBits t
  if sfuWithin fn f r c then c else r.round f

/-- What a function gives: special bits with flags, an exact case, or a value within the bound. -/
inductive SfuCase where
  | special (bits : Nat) (fl : FFlags)
  | exact (neg : Bool) (m : Nat) (e : Int)
  | bound (r : RefVal)
deriving DecidableEq, Repr

/-- m is 2^k: its exponent. -/
def pow2Exp (m : Nat) : Option Nat := if m ≠ 0 ∧ 2 ^ Nat.log2 m = m then some (Nat.log2 m) else none

def sfuExp2 (f : Fmt) (n : Bool) (m : Nat) (e : Int) : SfuCase :=
  let lim : Nat := f.bias + f.mb + 8
  if m = 0 then .exact false 1 0
  else if (lim : Int) * 2 ≤ 2 ^ (e + bitLen m).toNat ∧ 0 ≤ e + bitLen m then
    (if !n then .exact false 1 (2 * lim : Nat)
     else if 0 ≤ e ∨ m % 2 ^ (-e).toNat = 0 then .exact false 1 (-(2 * lim : Nat))
     else .bound ⟨false, 2 ^ 60, -(2 * lim + 60 : Nat)⟩)
  else if 0 ≤ e then
    .exact false 1 ((if n then -1 else 1) * ((m * 2 ^ e.toNat : Nat) : Int))
  else
    let s := (-e).toNat
    if m % 2 ^ s = 0 then .exact false 1 ((if n then -1 else 1) * ((m / 2 ^ s : Nat) : Int))
    else
      let ip : Int := if n then -((m / 2 ^ s : Nat) : Int) - 1 else ((m / 2 ^ s : Nat) : Int)
      let fr := if n then 2 ^ s - m % 2 ^ s else m % 2 ^ s
      if f.emax < ip then .special (f.infBits false) (fOF ||| fNX)
      else .bound ⟨false, fxExp2 (fr * fxOne / 2 ^ s), ip - 200⟩

def sfuLog2 (f : Fmt) (n : Bool) (m : Nat) (e : Int) : SfuCase :=
  if m = 0 then .special (f.infBits true) fDZ
  else if n then .special (f.canonNaN false) fNV
  else match pow2Exp m with
    | some k =>
      let v : Int := e + k
      .exact (decide (v < 0)) v.natAbs 0
    | none =>
      let len := bitLen m
      let ip : Int := e + len - 1
      let y := m * fxOne / 2 ^ (len - 1)
      let fr := fxLog2From 200 y 0
      let tot : Int := ip * fxOne + fr
      .bound ⟨decide (tot < 0), tot.natAbs, -200⟩

/-- sinpi, or cospi when `co` (06 R148). -/
def sfuTrig (co n : Bool) (m : Nat) (e : Int) : SfuCase :=
  if m = 0 then (if co then .exact false 1 0 else .exact n 0 0)
  else
    let e' := if e ≤ -3 then e else -3
    let u := 2 ^ (-e').toNat
    let big := m * 2 ^ (e - e').toNat
    let x := big % (2 * u)
    if 2 * x % u = 0 then
      let h := 2 * x / u      -- halves: 0, 1, 2, 3
      if co then (if h % 2 = 1 then .exact false 0 0 else .exact (decide (h = 2)) 1 0)
      else if h % 2 = 0 then .exact n 0 0
      else .exact ((decide (h = 3)) != n) 1 0
    else
      let r := refSinPi (if co then (x + u / 2) % (2 * u) else x) e'
      .bound ⟨if co then r.neg else r.neg != n, r.m, r.e⟩

def sfuRcp (f : Fmt) (n : Bool) (m : Nat) (e : Int) : SfuCase :=
  if m = 0 then .special (f.infBits n) fDZ
  else match pow2Exp m with
    | some k => .exact n 1 (-(e + k))
    | none => .bound ⟨n, 2 ^ (160 + bitLen m) / m, -(160 + bitLen m : Nat) - e⟩

def sfuRsq (f : Fmt) (n : Bool) (m : Nat) (e : Int) : SfuCase :=
  if m = 0 then .special (f.infBits n) fDZ
  else if n then .special (f.canonNaN false) fNV
  else match pow2Exp m with
    | some k =>
      if (e + k) % 2 = 0 then .exact false 1 (-((e + k) / 2))
      else .bound ⟨false, isqrt (2 ^ 321), -160 - (e + k + 1) / 2⟩
    | none =>
      let odd : Nat := if e % 2 = 0 then 0 else 1
      let sh := 2 * (160 + bitLen m)
      .bound ⟨false, isqrt (2 ^ sh / (m * 2 ^ odd)), -((160 + bitLen m : Nat) : Int) - (e - odd) / 2⟩

/-- The operand tables of 06 R148 for infinities. -/
def sfuInf (fn : Nat) (f : Fmt) (n : Bool) : Nat × FFlags :=
  match fn with
  | 0 => if n then (f.signBit false, 0) else (f.infBits false, 0)
  | 1 => if n then invalid f else (f.infBits false, 0)
  | 4 => (f.signBit n, 0)
  | 5 => if n then invalid f else (f.signBit false, 0)
  | _ => invalid f

def sfuCase (fn : Nat) (f : Fmt) (n : Bool) (m : Nat) (e : Int) : SfuCase :=
  match fn with
  | 0 => sfuExp2 f n m e
  | 1 => sfuLog2 f n m e
  | 2 => sfuTrig false n m e
  | 3 => sfuTrig true n m e
  | 4 => sfuRcp f n m e
  | _ => sfuRsq f n m e

/-- Flags of a delivered value that is no exact case (06 R148). -/
def sfuFlags (f : Fmt) (bits : Nat) : FFlags :=
  match f.decode bits with
  | .fin _ m _ => if m < 2 ^ f.mb then fUF ||| fNX else fNX
  | _ => fOF ||| fNX

/-- A special function on one element (12 R263; 06 R147, R148). f16 and bf16 are computed as on f32 and rounded. -/
def sfuOp (fn t : Nat) (a : Nat) : Nat × FFlags :=
  let f := fmtOf t
  match f.decode a with
  | .nan n q fr => (f.nanFrom f n fr, if q then 0 else fNV)
  | .inf n => sfuInf fn f n
  | .fin n m e =>
    match sfuCase fn f n m e with
    | .special b fl => (b, fl)
    | .exact n' m' e' => f.roundVal 0 false n' m' e' false
    | .bound r =>
      if t = 10 ∨ t = 11 then
        let v := sfuDeliver fn t a r
        (v, sfuFlags f v)
      else
        let f32 := fmtOf 10
        let w := (f32.roundVal 0 false n m e false).1
        let v := (cvtFF f f32 0 false (f32.decode (sfuDeliver fn 10 w r))).1
        (v, sfuFlags f v)

end Sys2Proof.Machine
end

