-- ==== Sys2Proof/Machine/Codec.lean ====
section
/-! DEFINITION. The serac code (07 R149 to R156) and the decoding of i4x groups (06 R140, R141). -/

namespace Sys2Proof.Machine

/-- The geometry of a serac block (07 R149): dimensions, source type, Q. -/
structure SGeom where
  d : Nat
  f64 : Bool
  q : Nat
deriving DecidableEq, Repr

def SGeom.n (g : SGeom) : Nat := 4 ^ g.d
def SGeom.P (g : SGeom) : Nat := if g.f64 then 64 else 32
def SGeom.p (g : SGeom) : Nat := if g.f64 then 53 else 24
def SGeom.bias (g : SGeom) : Nat := if g.f64 then 1023 else 127
def SGeom.H (g : SGeom) : Nat := if g.f64 then 12 else 9
def SGeom.B (g : SGeom) : Nat := 16 * g.q
def SGeom.W (g : SGeom) : Nat := g.P + g.d - 1
def SGeom.K (g : SGeom) : Nat := (g.B - g.H) / g.n
def SGeom.fmt (g : SGeom) : Fmt := fmtOf (if g.f64 then 11 else 10)
/-- Bytes of an element. -/
def SGeom.e (g : SGeom) : Nat := g.P / 8
/-- The sum of 2^j over odd j < W. -/
def SGeom.M (g : SGeom) : Nat := ((List.range g.W).filter (fun j => j % 2 = 1)).foldl (fun a j => a + 2 ^ j) 0

/-- d, Q and the block size lie in their ranges (07 R149, R168). -/
def SGeom.ok (g : SGeom) : Bool :=
  decide (1 ≤ g.d ∧ g.d ≤ 3 ∧ g.q ≠ 0 ∧ g.H + g.n ≤ g.B ∧ g.B ≤ g.n * g.P)

/-- Sum of the base-4 digits of an offset. -/
def digSum (o : Nat) : Nat := o % 4 + o / 4 % 4 + o / 16 % 4

/-- Seq_d (07 R154): by total sequency, then by offset. -/
def SGeom.seq (g : SGeom) : List Nat :=
  (List.range (3 * g.d + 1)).flatMap (fun s => (List.range g.n).filter (fun o => digSum o = s))

/-- The bases of the rows of an axis: digit `axis` is 0 (07 R153). -/
def SGeom.bases (g : SGeom) (axis : Nat) : List Nat :=
  (List.range g.n).filter (fun o => o / 4 ^ axis % 4 = 0)

def intAt (l : List Int) (k : Nat) : Int := l.getD k 0

/-- Fwd on one row (07 R153). -/
def serFwd (step : Nat) (l : List Int) (base : Nat) : List Int :=
  let y0 := intAt l base
  let y1 := intAt l (base + step)
  let y2 := intAt l (base + 2 * step)
  let y3 := intAt l (base + 3 * step)
  let h0 := (y0 + y1) / 2
  let h1 := (y2 + y3) / 2
  (((l.set base ((h0 + h1) / 2)).set (base + step) (h0 - h1)).set (base + 2 * step) (y0 - y1)).set
    (base + 3 * step) (y2 - y3)

/-- Inv on one row (07 R155). -/
def serInv (step : Nat) (l : List Int) (base : Nat) : List Int :=
  let s := intAt l base
  let dd := intAt l (base + step)
  let d0 := intAt l (base + 2 * step)
  let d1 := intAt l (base + 3 * step)
  let h1 := s - dd / 2
  let h0 := h1 + dd
  let y1 := h0 - d0 / 2
  let y3 := h1 - d1 / 2
  (((l.set base (y1 + d0)).set (base + step) y1).set (base + 2 * step) (y3 + d1)).set (base + 3 * step) y3

def SGeom.fwd (g : SGeom) (l : List Int) : List Int :=
  (List.range g.d).foldl (fun acc ax => (g.bases ax).foldl (serFwd (4 ^ ax)) acc) l

def SGeom.inv (g : SGeom) (l : List Int) : List Int :=
  (List.range g.d).reverse.foldl (fun acc ax => (g.bases ax).foldl (serInv (4 ^ ax)) acc) l

/-- The replacement of non-finite elements (07 R152). -/
def serFinite (f : Fmt) (w : Nat) : FVal :=
  match f.decode w with
  | .nan .. => .fin false 0 0
  | .inf n => f.decode (f.maxBits n)
  | v => v

/-- SeracEncode (07 R153): code bit t is bit t of the result. -/
def SGeom.encode (g : SGeom) (xs : List Nat) : Nat :=
  let vs := xs.map (serFinite g.fmt)
  if vs.all FVal.isZero then 0
  else
    let exps : List Int := vs.filterMap (fun v => match v with
      | .fin _ m e => if m = 0 then none else some (e + bitLen m)
      | _ => none)
    let emax : Int := exps.foldl (fun a b => if a < b then b else a) (1 - (g.bias : Int))
    let is := vs.map (fun v => match v with
      | .fin n m e =>
        let k : Int := e + g.P - 3 - emax
        let a : Nat := if 0 ≤ k then m * 2 ^ k.toNat else m / 2 ^ (-k).toNat
        if n then -(a : Int) else a
      | _ => 0)
    let cs := g.fwd is
    let dig := g.seq.map (fun o => (wrap g.W (intAt cs o + g.M)) ^^^ g.M)
    let head := 1 + 2 * (emax + g.bias).toNat
    (List.range g.K).foldl (fun acc r =>
      (List.range g.n).foldl (fun acc' k =>
        if (dig.getD k 0).testBit (g.W - 1 - r) then acc' ||| 2 ^ (g.H + r * g.n + k) else acc') acc) head

/-- SeracDecode (07 R155): the elements' bits. -/
def SGeom.decode (g : SGeom) (c : Nat) : List Nat :=
  if c % 2 = 0 then List.replicate g.n 0
  else
    let emax : Int := ((c / 2 % 2 ^ (g.H - 1) : Nat) : Int) - g.bias
    let cs := (List.range g.n).foldl (fun acc k =>
      let v := (List.range g.K).foldl (fun a r =>
        if c.testBit (g.H + r * g.n + k) then a ||| 2 ^ (g.W - 1 - r) else a) 0
      acc.set (g.seq.getD k 0) (((v ^^^ g.M : Nat) : Int) - g.M)) (List.replicate g.n (0 : Int))
    let u : Int := if g.fmt.emin - g.fmt.mb ≤ emax - g.p then emax - g.p else g.fmt.emin - g.fmt.mb
    let lim := 2 ^ (emax - u).toNat - 1
    let ze : Int := emax - g.P + 3
    (g.inv cs).map (fun i =>
      let a := i.natAbs
      let big := if u ≤ ze then decide (lim < a * 2 ^ (ze - u).toNat) else decide (lim * 2 ^ (u - ze).toNat < a)
      if i = 0 then 0
      else if big then (g.fmt.roundVal 0 false (decide (i < 0)) lim u false).1
      else (g.fmt.roundVal 0 false (decide (i < 0)) a ze false).1)

/-- E(emax) of 07 R156, rounded up to the source type (07 R166). From 1200 on E overflows both types, and below −1400
it lies under their smallest denormal, so that larger exponents of either sign give what these two give. -/
def SGeom.errBound (g : SGeom) (emax : Int) : Nat :=
  let emax : Int := if 1200 ≤ emax then 1200 else if emax ≤ -1400 then -1400 else emax
  let e1 : Int := emax - g.K + 2 * g.d + 2
  let e2 : Int := emax - g.P + 3
  let e3 : Int := emax - g.p - 1
  let lo := if e3 ≤ e2 then e3 else e2
  let lo := if e1 ≤ lo then e1 else lo
  (g.fmt.roundVal 2 false false (2 ^ (e1 - lo).toNat + 2 ^ (e2 - lo).toNat + 2 ^ (e3 - lo).toNat) lo false).1

/-- A signed 4-bit code. -/
def int4 (c : Nat) : Int := sextNat 4 c

/-- The value of slot `j` of an i4x group with scale exponent `sigma` (06 R141). An outlier NaN is an FP8 NaN. -/
def i4xSlot (codes : List Nat) (sigma : Int) (j : Nat) : FVal :=
  let c := codes.getD j 0
  if j % 4 = 0 ∧ c = 8 then
    match (fmtOf 12).decode (codes.getD (j + 1) 0 * 16 + codes.getD (j + 2) 0) with
    | .fin n m e => .fin n m (e + sigma)
    | v => v
  else if (j % 4 = 1 ∨ j % 4 = 2) ∧ codes.getD (j - j % 4) 0 = 8 then .fin false 0 0
  else if c = 8 then .fin false 0 0
  else .fin (decide (int4 c < 0)) (int4 c).natAbs sigma

end Sys2Proof.Machine
end

