-- ==== Sys2Proof/Machine/State.lean ====
section
/-! DEFINITION. The state of the Ubierna 9640 as plain data, its reset value, and the reasons a step can stop. -/

namespace Sys2Proof.Machine

/-! ## Reasons to stop -/

/-- Why the machine stops. -/
inductive Fault where
  /-- Raised by the meaning of a grove-stream instruction when the state names no grove that executes it: the
  instruction has no agent (05 R104). Safe: the hardware executes no instruction without a grove. -/
  | noGrove
  /-- Raised by the meaning of a matrix-stream word when the state names no sequencer that executes it
  (14 R297). Safe, as above. -/
  | noSequencer
deriving DecidableEq, Repr

/-- Why an instruction is refused. -/
inductive Refusal where
  /-- Raised by an arm of `exec` whose instruction has no meaning yet. Safe: nothing is claimed of it. -/
  | notModelled (mnemonic : String)
deriving DecidableEq, Repr

abbrev Out := Host.Outcome
abbrev Cell := Host.Cell

/-! ## Lanes and groves (08 R169, R171) -/

structure Lane where
  v : Vector Word 56
  p : BitVec 8
  taint : BitVec 56
  flags : BitVec 5
deriving DecidableEq, Repr, Inhabited

/-- One divergence stack entry (08 R173) with its pass count (11 R247). -/
structure DivEntry where
  join : Word
  rest : LaneMask
  defer : LaneMask
  deferPc : Word
  deferRun : Bool
  passes : Nat
deriving DecidableEq, Repr, Inhabited

/-- CAUSE, FAULTPC, FAULTADDR and SKID (16 R339, R340, R345). -/
structure TrapRegs where
  hnd : Bool
  pgen : Bool
  code : Nat
  detail : Nat
  faultPc : Word
  faultAddr : Word
  skidOrigin : Nat
  skidKind : Nat
  skidCount : Nat
deriving DecidableEq, Repr, Inhabited

/-- What a grove waits for (09 R210, R213; 16 R344): `data` replies to the accesses of an instruction that has started,
`score` replies of earlier ones before it starts (10 R227), `memory` a counter, a timeline or a floe, `barrier`, `deposit`,
`copy` an entry of the copy queue or a dictionary bank (15 R320, R331), `queue` what else keeps an instruction from starting
(its own words, another grove's step), `walk` the page walk of a store that has started, and `inside` what else a started one
waits for (a release, a write-back, a launch). -/
inductive Wait where
  | none | data | score | memory | barrier | deposit | copy | queue | walk | inside
deriving DecidableEq, Repr, Inhabited

/-- Bytes of a line as an agent receives them: poisoned and lost bytes marked, when the home replied, and when the copy
that the home replied from was filled (04 R91). -/
structure LineData where
  bytes : LineBits
  poison : ByteMask
  lost : ByteMask
  stamp : Nat
  filled : Nat
deriving DecidableEq, Repr, Inhabited

/-- A lane's fault: cause, detail and address (02 R42). -/
structure LaneFault where
  lane : Nat
  code : Nat
  detail : Nat
  addr : Word
deriving DecidableEq, Repr, Inhabited

/-- Bytes at consecutive physical addresses, with the page kind (02 R34). -/
structure Seg where
  pa : Nat
  len : Nat
  kind : Nat
deriving DecidableEq, Repr, Inhabited

/-- A lane's translated access. -/
structure LaneSegs where
  lane : Nat
  segs : List Seg
deriving DecidableEq, Repr, Inhabited

/-- The instruction in progress: the waiting point of 16 R351. -/
structure Prog where
  phase : Nat
  segs : List LaneSegs
  lanes : LaneMask
  done : LaneMask
  faults : List LaneFault
  fills : List Nat
  got : List (Nat × LineData)
  sent : LaneMask
  replies : List (Nat × Word × BitVec 5)
  barPhase : Nat
  aux : Nat
  watched : LaneMask
deriving DecidableEq, Repr, Inhabited

/-- A lane of an outstanding `ldx`; `sent` says that its reads have been sent, `fills` are the reads that it waits for and
`got` the lines obtained (04 R88); `val` is what it read from a device register (02 R55). -/
structure LdxLane where
  lane : Nat
  va : Word
  segs : List Seg
  landing : Nat
  tainted : Bool
  sent : Bool
  fills : List Nat
  got : List (Nat × LineData)
  val : Option Nat
deriving DecidableEq, Repr, Inhabited

/-- One outstanding `ldx` execution (13 R283). `counts` is false after a trap at issue (R284). -/
structure LdxExec where
  id : Nat
  pc : Word
  ac : Nat
  scratch : Bool
  dst : BitVec 8
  size : Nat
  lanes : List LdxLane
  counts : Bool
deriving DecidableEq, Repr, Inhabited

/-- A reply that held a poisoned or lost byte (13 R284). -/
structure LdxErr where
  ac : Nat
  lane : Nat
  reg : Nat
  width : Nat
  code : Nat
  addr : Word
deriving DecidableEq, Repr, Inhabited

/-- What follows an instruction executed again for some lanes (11 R257, 17 R360, R367); `supp` says that SUPP is cleared
after it. -/
structure Redo where
  resume : LaneMask
  ignoreWatch : Bool
  supp : Bool
deriving DecidableEq, Repr, Inhabited

/-- A trap to be taken at the grove's next instruction boundary (14 R319, 15 R336, 17 R361). -/
structure PendTrap where
  code : Nat
  detail : Nat
  lanes : LaneMask
  addr : Word
  okind : Nat
deriving DecidableEq, Repr, Inhabited

/-- The waiting point of a grove that takes an engine trap inside a wait (14 R319, 15 R336, 16 R344): its address, its
literal, the instruction and how far it has come. -/
structure Kept where
  pc : Word
  pfx : Option (BitVec 32)
  instr : Instr
  prog : Prog
  wait : Wait
deriving DecidableEq, Repr, Inhabited

/-- A single step in progress (17 R367): the lane, and the active mask, what follows and the PC before it. -/
structure Single where
  lane : Nat
  active : LaneMask
  redo : Option Redo
  pc : Word
deriving DecidableEq, Repr, Inhabited

/-- A grove of a stand. `taintFence` is the stamp of its last `ldc.system` (05 R122); `watchTrap` says that its handler
handles a WATCH trap of kinds 0 to 2 (17 R361). -/
structure Grove where
  slot : Nat
  pc : Word
  active : LaneMask
  live : LaneMask
  s : Vector Word 32
  k : Vector LaneMask 8
  ac : Vector (BitVec 32) 16
  mode : BitVec 13
  boundary : Nat
  div : List DivEntry
  basePasses : Nat
  fpflags : BitVec 5
  phase : Nat
  pfx : Option (BitVec 32)
  held : Option Instr
  trap : TrapRegs
  parked : LaneMask
  supp : LaneMask
  stepst : Nat
  dbgHalt : Bool
  single : Option Single
  singleDone : Bool
  redo : Option Redo
  divShape : List Nat
  barLast : List (Option Nat)
  ldx : List LdxExec
  ldxErrs : List LdxErr
  prog : Prog
  wait : Wait
  age : Nat
  outStores : Nat
  outWbs : Nat
  openCopies : List Nat
  batches : List Nat
  pend : Option PendTrap
  kept : Option Kept
  skidLeft : Nat
  taintFence : Nat
  watchTrap : Bool
  lanes : List Lane
deriving DecidableEq, Repr, Inhabited

/-! ## What a stand holds (08 R177) -/

/-- A floe table entry (03 R65): 0 empty, 1 filling, 2 ready, 3 draining. -/
structure Floe where
  state : Nat
  pend : Nat
  size : Nat
  offset : Nat
deriving DecidableEq, Repr, Inhabited

/-- A stand barrier (08 R178): `signals` are copies whose signal is attached to the phase in progress (15 R329). -/
structure Barrier where
  phase : Nat
  arrived : List Nat
  seqArrived : Bool
  seqJoined : Bool
  signals : List Nat
deriving DecidableEq, Repr, Inhabited

/-- A batch closed on tlc and not complete (15 R327, 03 R62). -/
structure Batch where
  num : Nat
  copies : List Nat
  conversion : Bool
  bank : Nat
deriving DecidableEq, Repr, Inhabited

/-- A timeline (13 R296). -/
structure Timeline where
  counter : Nat
  last : Nat
deriving DecidableEq, Repr, Inhabited

/-- An operand record (14 R302). -/
structure Record where
  base : Word
  valid : Bool
  type : Nat
  src : Bool
  pitch : Nat
  sbase : Word
  svalid : Bool
  ssrc : Bool
  spitch : Nat
deriving DecidableEq, Repr, Inhabited

/-- An operation handed to the matrix unit (14 R306). `kind`: 0 mma, 1 mma.sp, 2 mzero. `floes` are the floe entries at
the hand-over, `taken` the scratch bytes of its parts, `pages`, `want` and `got` its global operands: pages translated,
lines still to arrive, lines that have. `undoPc` to `undoNext` are the sequencer at the word, for a fault found in the
reads (14 R319): its state, OPEN, and the number that the next batch was to take. -/
structure MatOp where
  id : Nat
  kind : Nat
  tile : Nat
  ra : Record
  rb : Record
  rm : Record
  qs : List Nat
  floes : List Floe
  started : Bool
  taken : List (List Byte)
  pages : List (Nat × Nat)
  want : List Nat
  got : List (Nat × LineData)
  batch : Option Nat
  undoPc : Word
  undoX : Vector Word 8
  undoQ : Vector Record 16
  undoType : Nat
  undoOpen : Nat
  undoNext : Nat
deriving DecidableEq, Repr, Inhabited

/-- The matrix sequencer (14 R297): RUN 0 idle or ended, 1 running, 2 stopped by a fault. `again` counts the batches closed
behind a faulted word, which the words executed again close again (R319; 13 R296). -/
structure Seqr where
  mpc : Word
  mtype : Nat
  x : Vector Word 8
  q : Vector Record 16
  openOps : Nat
  barLast : List (Option Nat)
  run : Nat
  wait : Option Nat
  again : Nat
  ops : List MatOp
deriving DecidableEq, Repr, Inhabited

/-- One slice of a copy (15 R322): destination, source, control and transform values. -/
structure CopySlice where
  slot : Nat
  d : Word
  s : Word
  x : Word
  t : Word
deriving DecidableEq, Repr, Inhabited

/-- A receiver of a multicast copy (15 R329). -/
structure Recv where
  uid : Nat
  pending : Bool
  signalled : Bool
deriving DecidableEq, Repr, Inhabited

/-- A copy in the queue (15 R320). `kind`: 0 cpy, 1 cpym, 2 cpyx, 3 dict.ld; `cur`, `chunk` and `pos` say how far it has
come: the slice, its next chunk, and the source offset of the block in progress (R330); `counted` holds the floes in whose
PEND it counts, 64 added for a drain (R67). `fetched` lists the lines already transferred for the chunk in progress, each
with whether it is written; `asked` is the transfer in progress, its line and when it was asked for, and `paid` the tokens
that it has taken (03 R76). -/
structure Copy where
  id : Nat
  kind : Nat
  owner : Nat
  reserved : Bool
  slices : List CopySlice
  supplied : List Nat
  started : Bool
  cur : Nat
  chunk : Nat
  pos : Nat
  counted : List Nat
  batch : Option Nat
  bank : Nat
  recvs : List Recv
  buf : List Byte
  landing : Bool
  faulted : Bool
  faultDetail : Nat
  abandoned : Bool
  fetched : List (Nat × Bool)
  asked : Option (Nat × Nat)
  paid : Nat
deriving DecidableEq, Repr, Inhabited

/-- The copy context (15 R320 to R338). A bank lists its words other than 0 by entry (15 R331). -/
structure CopyCtx where
  queue : List Copy
  bank : Nat
  bank0 : List (Nat × Word)
  bank1 : List (Nat × Word)
  paused : Bool
  resume : Bool
  supplied : List (List Nat)
deriving DecidableEq, Repr, Inhabited

/-- A spawn bin (08 R188): no key when free; `launching` is its place in the order of R190. -/
structure Bin where
  key : Option (Word × BitVec 16)
  recs : List (List Word)
  timer : Nat
  launching : Option Nat
deriving DecidableEq, Repr, Inhabited

/-- A stand halt (16 R344). -/
structure Halt where
  origin : Nat
  kind : Nat
deriving DecidableEq, Repr, Inhabited

/-- The resolved fields of a clearing (08 R181, R182). -/
structure Shape where
  groves : Nat
  lanes : Nat
  regs : Nat
  tiles : Nat
  bins : Nat
  recw : Nat
  nx : Nat
  ny : Nat
  nz : Nat
  bintime : Nat
  domain : Nat
  prio : Nat
  drift : Bool
  deadline : Nat
  entry : Word
  mentry : Option Word
  cores : Nat
  stands : Nat
  pool : Nat
  scratch : Nat
  bwtok : Nat
  floeList : Word
  floes : List Floe
deriving DecidableEq, Repr, Inhabited

/-- A stand on a core. `dying` says that its domain was aborted while a grove was inside an instruction (08 R186); `freed`
gives the clk at which each empty grove slot emptied (09 R208). -/
structure Stand where
  uid : Nat
  part : Nat
  clnum : Nat
  index : Nat
  core : Nat
  sslot : Nat
  lcore : Nat
  order : Nat
  shape : Shape
  args : List Word
  ptroot : Word
  asid : Nat
  scratchBase : Nat
  scratchSize : Nat
  scratch : List Cell
  tiles : List (Nat × Word)
  floes : List Floe
  barriers : List Barrier
  tlc : Timeline
  tlm : Timeline
  batches : List Batch
  mbatches : List Nat
  seq : Seqr
  copy : CopyCtx
  bins : List Bin
  binOrder : Nat
  halt : Option Halt
  dbgHalt : Bool
  preq : Bool
  preqCount : Nat
  preqForce : Bool
  sampK : Nat
  sampCount : Nat
  bwUsed : Nat
  saving : Bool
  dying : Bool
  freed : List (Nat × Nat)
  groves : List Grove
deriving DecidableEq, Repr, Inhabited

/-! ## Coherence (04) -/

/-- A firn entry (04 R83); SEQ is its position among the entries of its slice. -/
structure FirnEntry where
  slice : Nat
  line : Nat
  core : Nat
  part : Nat
  mask : ByteMask
deriving DecidableEq, Repr, Inhabited

structure Who where
  uid : Nat
  slot : Nat
deriving DecidableEq, Repr, Inhabited

/-- A store in L1 whose REG is not granted yet (04 R85): the bytes that the REG names, and those still to be performed
with their values. A pull for an atomic (04 R103) names bytes and stores none. -/
structure PendStore where
  ask : ByteMask
  mask : ByteMask
  data : LineBits
deriving DecidableEq, Repr, Inhabited

/-- A line in a way of a core's L1: `reg` registered dirty bytes, `valid` read-copy bytes, `pend` the stores whose REG is
under way, oldest first (04 R85, R87, R88); `pulled` marks words pulled for an atomic (bit w), bit 32+w when the element is
8 bytes (04 R103); `k01` the bytes of a KIND 0b01 line that each grove wrote (04 R92). -/
structure L1Line where
  core : Nat
  line : Nat
  way : Nat
  data : LineBits
  reg : ByteMask
  valid : ByteMask
  poison : ByteMask
  lost : ByteMask
  pend : List PendStore
  pulled : BitVec 64
  k01 : List (Who × ByteMask)
deriving DecidableEq, Repr, Inhabited

/-- An operation executed at the home: `op` codes the atomic or the store of 05 R124. -/
structure HomeOp where
  op : Nat
  addr : Nat
  size : Nat
  x : Word
  y : Word
  type : Nat
  rnd : Nat
  lane : Nat
deriving DecidableEq, Repr, Inhabited

/-- A request from a core to a home slice (04 R84). `clean` names the words that the core holds and that are not lost
(04 R99); `whos` the groves that wait for a write-back (R93). `engine` is no message: it is an access of the line by an
agent beside the cores, which waits for the host (R100). -/
inductive Req where
  | reg (mask : ByteMask) (who : Who)
  | read (fill : Nat) (part : Nat)
  | wb (mask : ByteMask) (bytes : LineBits) (clean : ByteMask) (whos : List Who)
  | data (fwd : Bool) (mask : ByteMask) (bytes : LineBits) (clean : ByteMask)
  | atom (op : HomeOp) (who : Who)
  | engine (mask : ByteMask) (write : Bool)
deriving DecidableEq, Repr, Inhabited

/-- A message towards a home slice: `by_` the stand that caused it, 0 for none (08 R184); `paid` the tokens it has been
given (03 R76); `sent` when it was sent, and `arr` when it is known to have come, 0 before (04 R84). -/
structure ToSlice where
  core : Nat
  line : Nat
  req : Req
  by_ : Nat
  paid : Nat
  sent : Nat
  arr : Nat
deriving DecidableEq, Repr, Inhabited

/-- An answer or order from a home slice to a core (04 R84). `atomBad` answers an atomic whose element holds a poisoned or a
lost byte, the one at `off` of the element being the first (03 R81; 04 R99). -/
inductive Rep where
  | grant (mask : ByteMask) (who : Who)
  | fwd (words : ByteMask)
  | recall (words : ByteMask)
  | fill (id : Nat) (data : LineData)
  | atomDone (who : Who) (lane : Nat) (old : Word) (flags : BitVec 5)
  | atomBad (who : Who) (lane : Nat) (lost : Bool) (off : Nat)
  | wbAck (whos : List Who)
deriving DecidableEq, Repr, Inhabited

structure ToCore where
  core : Nat
  line : Nat
  rep : Rep
deriving DecidableEq, Repr, Inhabited

/-- A request taken by a home that waits for DATA from cores or for the host (04 R84, R100); `acc`, `accMask` and `clean`
are the bytes that have come in answer to a read, and their words that are not lost. -/
structure LineWait where
  line : Nat
  core : Nat
  req : Req
  by_ : Nat
  need : List Nat
  halves : List Nat
  acc : LineBits
  accMask : ByteMask
  clean : ByteMask
deriving DecidableEq, Repr, Inhabited

/-- A sampled L1 miss (17 R371): stand, grove slot, virtual address, PC, and whether its read has gone to a memory
controller (R370). -/
structure Samp where
  uid : Nat
  slot : Nat
  va : Word
  pc : Word
  mem : Bool
deriving DecidableEq, Repr, Inhabited

/-- A fill in flight (04 R95), caused by stand `uid` (08 R184); `novis` says that it fills no visitor copy (R90), `fence`
that a slice copy of host memory filled up to then does not serve it (R91); `tfu` names the operation of a stand it belongs
to, if any, and `pin` says that it holds a pin of the line (14 R309). -/
structure Fill where
  id : Nat
  uid : Nat
  core : Nat
  line : Nat
  overtaken : Bool
  novis : Bool
  fence : Nat
  tfu : Option Who
  kind01 : Bool
  pin : Bool
  samp : Option Samp
deriving DecidableEq, Repr, Inhabited

/-- A line held by an L2 slice (03 R71 to R73); `visitor` is a visitor copy of another die's line (04 R90).
`mark`: 0 none, 1 decode-ahead, 2 decode-ahead and used. -/
structure L2Line where
  slice : Nat
  way : Nat
  line : Nat
  part : Nat
  dirty : Bool
  pins : Nat
  mark : Nat
  visitor : Option LineData
deriving DecidableEq, Repr, Inhabited

structure PinReq where
  line : Nat
  uid : Nat
  op : Nat
deriving DecidableEq, Repr, Inhabited

/-- A serac residency group (07 R158). `ctx` is the context that its fill is charged to, `2 * partition + class`, or 40 for
none (03 R74). -/
structure Group where
  win : Nat
  base : Nat
  filling : Bool
  data : List Byte
  written : List Nat
  poison : List Nat
  ctx : Nat
deriving DecidableEq, Repr, Inhabited

/-- A slice's copy of a line of the host (04 R91, R100); `k01` says that a page of KIND 0b01 filled it. -/
structure HostLine where
  line : Nat
  data : LineData
  k01 : Bool
deriving DecidableEq, Repr, Inhabited

/-- Work that waits for the host link (04 R92, 05 R127). -/
inductive HostPend where
  | push (line : Nat) (mask : ByteMask) (bytes : LineBits) (whos : List Who)
  | atom (op : HomeOp) (who : Who)
deriving DecidableEq, Repr, Inhabited

/-- A translation held by a die (02 R35, R40). -/
structure TlbEntry where
  die : Nat
  part : Nat
  asid : Nat
  vpage : Nat
  base : Nat
  size : Nat
  pa : Nat
  kind : Nat
  g : Bool
  u : Bool
  x : Bool
  w : Bool
  d : Bool
  sr : Bool
  sw : Bool
  sx : Bool
deriving DecidableEq, Repr, Inhabited

/-- A walk's fault: cause, detail, and the leaf's physical address and KIND where the walk came to one (02 R46). -/
structure WalkFault where
  code : Nat
  detail : Nat
  leaf : Option (Nat × Nat)
deriving DecidableEq, Repr, Inhabited

/-- A miss that waits for a walk (02 R45): who met it, the access, and whether the page must have U, as for groves and
matrix reads; an engine's walk does not ask for it (02 R34). `result` is set when the walk faulted for it. -/
structure WalkAsk where
  who : Who
  acc : Nat
  user : Bool
  result : Option WalkFault
deriving DecidableEq, Repr, Inhabited

/-- A page walk (02 R45): the misses of one page of one ASID that it serves; `acc` is 0 for a read, 1 a write, 2 a fetch. -/
structure WalkReq where
  die : Nat
  part : Nat
  asid : Nat
  vpage : Nat
  ptroot : Word
  asks : List WalkAsk
  done : Bool
deriving DecidableEq, Repr, Inhabited

/-- The encryption counters of a 4 KiB page (03 R80). -/
structure PageCtr where
  page : Nat
  major : Nat
  minors : List Nat
deriving DecidableEq, Repr, Inhabited

/-- A port bucket (03 R76). -/
structure Bucket where
  slice : Nat
  part : Nat
  cls : Nat
  level : Nat
deriving DecidableEq, Repr, Inhabited

/-- The open subarrays of a bank with the open row of each, last selected first (03 R78). -/
structure OpenRows where
  stack : Nat
  bank : Nat
  subarrays : List (Nat × Nat)
deriving DecidableEq, Repr, Inhabited

/-! ## Cores, clusters, dies -/

structure Rime where
  en : Bool
  kind : Nat
  act : Nat
  type : Nat
  space : Bool
  vdir : Bool
  anycl : Bool
  clnum : Nat
  cdown : Nat
  a : Word
  b : Word
  count : Nat
deriving DecidableEq, Repr, Inhabited

/-- A way conversion in progress (03 R62); fills numbered below `mark` were outstanding when it began. -/
structure Conv where
  uid : Nat
  batch : Nat
  target : Nat
  mark : Nat
deriving DecidableEq, Repr, Inhabited

/-- What holds an issue port (09 R211): the grove, its phase number as it issued, and whether the instruction has a pass. -/
structure PortUse where
  who : Who
  phase : Nat
  pass : Bool
deriving DecidableEq, Repr, Inhabited

/-- A core (00 R1, R2). `mxOp` is the operation that its matrix unit executes, `mxNext` the one whose operand reads overlap
it (14 R307, R308). -/
structure Core where
  l1cur : Nat
  l1req : Nat
  l1st : Nat
  conv : Option Conv
  preds : List (Nat × Nat)
  predHc : List (Nat × Nat)
  visFence : Nat
  hostFence : Nat
  ports : List Nat
  portGroves : List (Option PortUse)
  occ : List (Nat × Nat)
  rime : List Rime
  retired : Bool
  quarantined : Bool
  mxLast : Nat
  mxOp : Option Who
  mxNext : Option Who
deriving DecidableEq, Repr, Inhabited

/-- A cluster's map and DRIFTCTL (08 R192); `last` is the clk count at the end of its last interval, `pair` the swap under
way (R193). -/
structure Cluster where
  map : List Nat
  swaps : Nat
  delta : Nat
  en : Bool
  intv : Nat
  last : Nat
  pair : Option (Nat × Nat)
deriving DecidableEq, Repr, Inhabited

/-! ## Device registers -/

structure Window where
  en : Bool
  busy : Bool
  err : Nat
  part : Nat
  kind : Nat
  dim : Nat
  stype : Nat
  at16 : Nat
  ovf : Nat
  q : Nat
  cbase : Nat
  abase : Nat
  alen : Nat
  sbase : Nat
deriving DecidableEq, Repr, Inhabited

structure Segment where
  len : Nat
  base : Nat
  sr : Bool
  sw : Bool
  sx : Bool
  target : Nat
deriving DecidableEq, Repr, Inhabited

/-- LAUNCHST (09 R200), and the block of the launch in progress while BUSY is 1. -/
structure Launchst where
  busy : Bool
  block : Word
  drop : Nat
  clnum : Nat
  fprot : Bool
  detail : Nat
  result : Nat
deriving DecidableEq, Repr, Inhabited

/-- A partition (18 R381) and its register block (02 R38). `halvesReg` is HALVES as last written; `segNew` says that a
segment has been written since the last TLBICTL operation ended (02 R39); `resetting` and `removing`
tell the operation in progress; `powerEnd` is the clk at which a power window ends (17 R369). -/
structure Partition where
  alive : Bool
  halves : Nat
  halvesReg : Nat
  busy : Bool
  resetting : Bool
  removing : Bool
  ptroot : Word
  asid : Nat
  segen : Bool
  tlbiaddr : Word
  tlbi : Option Nat
  segs : List Segment
  segNew : Bool
  lmin : Nat
  lmax : Nat
  l2ways : Nat
  depth0 : Nat
  rate0 : Nat
  depth1 : Nat
  rate1 : Nat
  probemis : Nat
  scopeclip : Bool
  scopeTrap : Bool
  scopeOn : Bool
  launchst : Launchst
  occFreeze : Bool
  saveLen : Nat
  saveBase : Nat
  brkHalt : Bool
  dbgcl : Nat
  dbgEn : Bool
  traceBase : Nat
  traceEn : Bool
  traceWrap : Bool
  traceFull : Bool
  traceCw : Nat
  traceBar : Nat
  traceLen : Nat
  tracePtr : Nat
  powerEnd : Option Nat
deriving DecidableEq, Repr, Inhabited

/-- The management block, the firmware and the mailbox (18 R376 to R384). `fwStart` says that an image is being verified,
`fwLive` that it is a live update's; `heldStacks` are held by a recalibration; `mboxOp` and `mboxArg` are the operation
in progress while `mboxBusy`; `next` is the master that the owner has named (R380), `power` the module power in W as last
measured (R384), `maxOpen` MAXOPEN of each HBM controller (03 R77, R78). -/
structure Mgmt where
  modid : Nat
  modidLocked : Bool
  hostbase : Nat
  atomics : Bool
  held : Bool
  next : Option Nat
  owner : Nat
  lostCnt : Nat
  poisCnt : Nat
  hwdrop : Nat
  linkwr : Nat
  mdrop : Nat
  routehi : List (Nat × Nat)
  routelo : List (Nat × Nat)
  fwLen : Nat
  fwStart : Bool
  fwLive : Bool
  fwRunning : Bool
  fwStat : Nat
  mboxOp : Nat
  mboxArg : Nat
  mboxBusy : Bool
  mboxStatus : Nat
  mboxData : List (Nat × Nat)
  heldStacks : List Nat
  retiredChannels : List Nat
  dumpbase : Word
  fatal : Option Nat
  pwrceil : Nat
  power : Nat
  maxOpen : List Nat
deriving DecidableEq, Repr, Inhabited

/-- A clearing (08 R181, R185); `remaining` holds ranges of stand indices neither placed nor in a batch, first and
end, rising (09 R201). `skipped` counts the clk since the clearing was skipped for want of room, 0 when it was not
(16 R346). -/
structure Clearing where
  part : Nat
  num : Nat
  id : Nat
  parent : Option Nat
  parNum : Nat
  depth : Nat
  state : Nat
  done : Nat
  shape : Shape
  args : List Word
  ptroot : Word
  asid : Nat
  blockPa : Nat
  blockKind : Nat
  fcause : Word
  fpc : Word
  remaining : List (Nat × Nat)
  skipped : Nat
deriving DecidableEq, Repr, Inhabited

/-- A batch of stands sent to a die (09 R201). -/
structure StandBatch where
  die : Nat
  clearing : Nat
  stands : List Nat
  arrived : Nat
deriving DecidableEq, Repr, Inhabited

/-- A free-slot report (09 R202). -/
structure Report where
  die : Nat
  part : Nat
  count : Nat
  lanes : Nat
  groves : Nat
  pool : Nat
  scratch : Nat
  floes : Nat
deriving DecidableEq, Repr, Inhabited

/-- The completion of the last host or module request (18 R373). -/
structure HostOut where
  unsupported : Bool
  poisoned : Bool
  bytes : List Byte
deriving DecidableEq, Repr, Inhabited

/-- A write of the device itself, on behalf of a partition, that waits for its lines; a record of the trace ring moves
TRACEPTR to `ptr` once it is performed (17 R369). -/
structure DevWrite where
  pa : Nat
  bytes : List Byte
  part : Nat
  ptr : Option Nat
deriving DecidableEq, Repr, Inhabited

/-- The memory system (`unverified` are the lines whose next read from memory fails its check, 03 R81; `devWrites` the
writes of the device itself that wait for their lines; `prepaid` the tokens paid so far towards a line that a walk, a fetch or
a group's fill brings to its slice, 03 R74; `staging` the staging window, by offset, 18 R377; `tbNow` the RATE and DEPTH in force of each context, keyed
`2 * partition + class`, as `4096 * RATE + DEPTH`, 03 R76; `seracCnts` is keyed `(window * 192 + slice) * 3` plus 0 encoder writes, 1 departures without
one, 2 non-finite replacements, 07 R163; `lostCnts` is keyed by slice, 04 R99): homes, firn, L1, L2, messages, translations. -/
structure MemSys where
  mem : List Cell
  hostMem : List Cell
  poison : List Nat
  lost : List Nat
  firn : List FirnEntry
  l1 : List L1Line
  toSlice : List ToSlice
  toCore : List ToCore
  lineWaits : List LineWait
  fills : List Fill
  l2 : List L2Line
  pinQueue : List PinReq
  groups : List Group
  hostLines : List HostLine
  halves : List (Nat × Nat)
  hostQ : List HostPend
  buckets : List Bucket
  spare : List (Nat × Nat)
  ctrs : List PageCtr
  rows : List OpenRows
  keys : List (Nat × Nat × Nat)
  tlb : List TlbEntry
  walks : List WalkReq
  seracCnts : List (Nat × Nat)
  lostCnts : List (Nat × Nat)
  unverified : List Nat
  devWrites : List DevWrite
  tbNow : List (Nat × Nat)
  prepaid : List (Nat × Nat)
  staging : List Cell
deriving DecidableEq, Repr, Inhabited

/-- The device: cores, clusters, dies, device registers, dispatch; `tbDue` and `bwDue` say that a refill of the port buckets
and a reset of BWTOK have fallen due (03 R76; 08 R184). -/
structure Dev where
  cores : List Core
  clusters : List Cluster
  time : List Nat
  vf : List Nat
  clkCount : Nat
  tbDue : Bool
  bwDue : Bool
  skew : List (Nat × Nat)
  windows : List Window
  parts : List Partition
  mgmt : Mgmt
  expanders : List Nat
  removed : List Nat
  peersDown : List Nat
  clearings : List Clearing
  batches : List StandBatch
  reports : List Report
  saved : List Stand
  hostOut : HostOut
deriving DecidableEq, Repr, Inhabited

/-- The whole state. -/
structure State where
  agenda : List Turn
  fresh : Nat
  stamp : Nat
  nextId : Nat
  cur : Option Who
  skidding : Bool
  skidStop : Bool
  stands : List Stand
  m : MemSys
  d : Dev
deriving DecidableEq, Repr, Inhabited

/-! ## Reset (00 R3, R8; 18 R376, R377; log entry 2) -/

def Rime.reset : Rime := ⟨false, 0, 0, 0, false, false, false, 0, 0, 0, 0, 0⟩

def Core.reset : Core where
  l1cur := 1
  l1req := 1
  l1st := 0
  conv := none
  preds := []
  predHc := []
  visFence := 0
  hostFence := 0
  ports := [0, 0, 0, 0]
  portGroves := [none, none, none, none]
  occ := []
  rime := List.replicate 16 Rime.reset
  retired := false
  quarantined := false
  mxLast := 7
  mxOp := none
  mxNext := none

/-- DRIFTCTL resets to SWAPS 0 and INTV 21 (08 R192); the map is the identity (00 R3). -/
def Cluster.reset (k : Nat) : Cluster := ⟨(List.range 12).map (12 * k + ·), 0, 0, false, 21, 0, none⟩

def Window.reset : Window := ⟨false, false, 0, 0, 0, 0, 0, 0, 0, 0, 0, 0, 0, 0⟩

def Segment.reset : Segment := ⟨0, 0, false, false, false, 0⟩

def Partition.reset : Partition where
  alive := false
  halves := 0
  halvesReg := 0
  busy := false
  resetting := false
  removing := false
  ptroot := 0
  asid := 0
  segen := false
  tlbiaddr := 0
  tlbi := none
  segs := List.replicate 16 Segment.reset
  segNew := false
  lmin := 0
  lmax := 0
  l2ways := 0
  depth0 := 0
  rate0 := 0
  depth1 := 0
  rate1 := 0
  probemis := 0
  scopeclip := false
  scopeTrap := false
  scopeOn := false
  launchst := ⟨false, 0, 0, 0, false, 0, 0⟩
  occFreeze := false
  saveLen := 0
  saveBase := 0
  brkHalt := false
  dbgcl := 0
  dbgEn := false
  traceBase := 0
  traceEn := false
  traceWrap := false
  traceFull := false
  traceCw := 0
  traceBar := 0
  traceLen := 0
  tracePtr := 0
  powerEnd := none

def Mgmt.reset : Mgmt where
  modid := 0
  modidLocked := false
  hostbase := 0
  atomics := false
  held := false
  next := none
  owner := 0
  lostCnt := 0
  poisCnt := 0
  hwdrop := 0
  linkwr := 0
  mdrop := 0
  routehi := []
  routelo := []
  fwLen := 0
  fwStart := false
  fwLive := false
  fwRunning := false
  fwStat := 0
  mboxOp := 0
  mboxArg := 0
  mboxBusy := false
  mboxStatus := 0
  mboxData := []
  heldStacks := []
  retiredChannels := []
  dumpbase := 0
  fatal := none
  pwrceil := 2900
  power := 0
  maxOpen := [0, 0, 0, 0]

def MemSys.reset : MemSys :=
  ⟨[], [], [], [], [], [], [], [], [], [], [], [], [], [], [], [], [], [], [], [], [], [], [], [], [], [], [], [], [], []⟩

def Dev.reset : Dev where
  cores := List.replicate 192 Core.reset
  clusters := (List.range 16).map Cluster.reset
  time := [0, 0, 0, 0]
  vf := [15, 15, 15, 15]
  clkCount := 0
  tbDue := false
  bwDue := false
  skew := []
  windows := List.replicate 64 Window.reset
  parts := List.replicate 20 Partition.reset
  mgmt := Mgmt.reset
  expanders := List.replicate 4 1536000000000
  removed := []
  peersDown := []
  clearings := []
  batches := []
  reports := []
  saved := []
  hostOut := ⟨false, false, []⟩

/-- The machine right after power-up: only the boot ROM runs (18 R377), no partition, clearing or stand exists. -/
def State.reset : State where
  agenda := []
  fresh := 0
  stamp := 0
  nextId := 1
  cur := none
  skidding := false
  skidStop := false
  stands := []
  m := MemSys.reset
  d := Dev.reset

end Sys2Proof.Machine
end

