-- ==== Sys2Proof/Machine/Memory.lean ====
section
/-! DEFINITION. Sparse maps in canonical form, the homes, and the coherence operations (03, 04). -/

namespace Sys2Proof.Machine

/-! ## Sparse maps: keys strictly rising, no entry at the default -/

/-- Reads key `a`; an unlisted key reads `d`. -/
def spGet {α : Type} (d : α) : List (Nat × α) → Nat → α
  | [], _ => d
  | (k, v) :: r, a => if k = a then v else spGet d r a

/-- Writes key `a`, keeping the canonical form. -/
def spSet {α : Type} [DecidableEq α] (d : α) : List (Nat × α) → Nat → α → List (Nat × α)
  | [], a, v => if v = d then [] else [(a, v)]
  | (k, w) :: r, a, v =>
    if a < k then (if v = d then (k, w) :: r else (a, v) :: (k, w) :: r)
    else if a = k then (if v = d then r else (a, v) :: r)
    else (k, w) :: spSet d r a v

/-- The canonical form, every key above `lo`. -/
def spWfFrom {α : Type} [DecidableEq α] (d : α) : Nat → List (Nat × α) → Bool
  | _, [] => true
  | lo, (k, v) :: r => decide (lo ≤ k) && decide (v ≠ d) && spWfFrom d (k + 1) r

/-- The canonical form. -/
def spWf {α : Type} [DecidableEq α] (d : α) (m : List (Nat × α)) : Bool := spWfFrom d 0 m

/-- What a byte that nothing has written reads as (log entry 1; DESIGN CHOICE). -/
def memDefault : Byte := 0

/-- The canonical form of a memory. -/
def Memory.wf (m : List Cell) : Bool := spWf memDefault m

/-- One byte of a memory. -/
def memByte (m : List Cell) (a : Nat) : Byte := spGet memDefault m a
def memSet (m : List Cell) (a : Nat) (b : Byte) : List Cell := spSet memDefault m a b

/-- Consecutive bytes. -/
def memBytes (m : List Cell) (a n : Nat) : List Byte := (List.range n).map (fun i => memByte m (a + i))

/-- Writes consecutive bytes. -/
def memSetBytes : List Cell → Nat → List Byte → List Cell
  | m, _, [] => m
  | m, a, b :: bs => memSetBytes (memSet m a b) (a + 1) bs

/-- Bytes, least significant first, as a number (00 R7). -/
def ofBytes : List Byte → Nat
  | [] => 0
  | b :: bs => b.toNat + 256 * ofBytes bs

/-- The `n` low bytes of a number, least significant first. -/
def toBytes : Nat → Nat → List Byte
  | 0, _ => []
  | n + 1, v => BitVec.ofNat 8 v :: toBytes n (v / 256)

/-! ## Stands and groves in the state -/

def State.stand? (s : State) (uid : Nat) : Option Stand := s.stands.find? (fun st => st.uid == uid)

def State.modStand (s : State) (uid : Nat) (f : Stand → Stand) : State :=
  { s with stands := s.stands.map (fun st => if st.uid = uid then f st else st) }

def Stand.grove? (st : Stand) (slot : Nat) : Option Grove := st.groves.find? (fun g => g.slot == slot)

def Stand.setGrove (st : Stand) (g : Grove) : Stand :=
  { st with groves := st.groves.map (fun h => if h.slot = g.slot then g else h) }

def State.setGrove (s : State) (uid : Nat) (g : Grove) : State := s.modStand uid (·.setGrove g)

def State.modM (s : State) (f : MemSys → MemSys) : State := { s with m := f s.m }
def State.modD (s : State) (f : Dev → Dev) : State := { s with d := f s.d }

/-- A fresh free value (log entry 4). -/
def State.freeWord (s : State) : Word × State := (Config.freeWord s.fresh, { s with fresh := s.fresh + 1 })

def Dev.core (d : Dev) (c : Nat) : Core := d.cores.getD c Core.reset
def State.modCore (s : State) (c : Nat) (f : Core → Core) : State :=
  s.modD (fun d => { d with cores := d.cores.modify c f })
def Dev.part (d : Dev) (p : Nat) : Partition := d.parts.getD p Partition.reset
def State.modPart (s : State) (p : Nat) (f : Partition → Partition) : State :=
  s.modD (fun d => { d with parts := d.parts.modify p f })
def State.modMgmt (s : State) (f : Mgmt → Mgmt) : State := s.modD (fun d => { d with mgmt := f d.mgmt })

/-- A physical core's cluster and die (00 R2). -/
def coreCluster (c : Nat) : Nat := c / 12
def coreDie (c : Nat) : Nat := c / 48

end Sys2Proof.Machine
end

