-- ==== Sys2Proof/Machine/Home.lean ====
section
/-! DEFINITION. What a home holds: the physical map (02 R31), lines at their homes, format windows (02 R47 to R53) and
serac residency groups (07 R158 to R161), poison and lost words (03 R81, 04 R99). -/

namespace Sys2Proof.Machine

/-! ## Lines and byte masks -/

def lineByte (d : LineBits) (i : Nat) : Byte := d.extractLsb' (8 * i) 8

/-- Each mask bit spread over its byte. -/
def expandMask (m : ByteMask) : LineBits :=
  (List.range 128).foldl (fun acc i => if m.getLsbD i then acc ||| (0xFF#1024 <<< (8 * i)) else acc) 0#1024

/-- The bytes of `new` under the mask over those of `old`. -/
def mergeLine (old new : LineBits) (m : ByteMask) : LineBits :=
  let x := expandMask m
  (old &&& ~~~x) ||| (new &&& x)

/-- The bytes `off` to `off + len - 1` of a line. -/
def maskRange (off len : Nat) : ByteMask := BitVec.ofNat 128 ((2 ^ len - 1) * 2 ^ off)

/-- Bytes placed at an offset of a line. -/
def bytesAsLine (off : Nat) (bs : List Byte) : LineBits := BitVec.ofNat 1024 (ofBytes bs * 2 ^ (8 * off))

def lineBytes (d : LineBits) (off len : Nat) : List Byte := (List.range len).map (fun i => lineByte d (off + i))

/-- Every byte of each 4-byte word that the mask touches (04 R83). -/
def wordsOf (m : ByteMask) : ByteMask :=
  (List.range 32).foldl (fun acc w =>
    if m.extractLsb' (4 * w) 4 ≠ 0#4 then acc ||| (0xF#128 <<< (4 * w)) else acc) 0#128

/-- The words whose 4 bytes are all in the mask. -/
def fullWords (m : ByteMask) : List Nat := (List.range 32).filter (fun w => m.extractLsb' (4 * w) 4 = 0xF#4)

/-- The bytes of those words. -/
def fullMask (m : ByteMask) : ByteMask := (fullWords m).foldl (fun acc w => acc ||| (0xF#128 <<< (4 * w))) 0#128

def maskSub (a b : ByteMask) : Bool := (a &&& ~~~b) == 0#128

/-! ## The physical map (02 R31) -/

inductive Region where
  | hbm | tier2 (port : Nat) | decoded | host | device | hole
deriving DecidableEq, Repr

/-- The blocks of device registers that the manual lists: management, windows, routes, partitions, DRIFTCTL, occupancy
counters, rime predicates, SKEW (log entry 37 gives their extents). -/
def devListed (o : Nat) : Bool :=
  decide (o < 0x9000) || decide (0x10000 ≤ o ∧ o < 0x18400) || decide (0x100000 ≤ o ∧ o < 0x114000) ||
    decide (0x300000 ≤ o ∧ o < 0x301000) || decide (0x400000 ≤ o ∧ o < 0x418000) ||
    decide (0x500000 ≤ o ∧ o < 0x530000) || decide (0x600000 ≤ o ∧ o < 0x601000)

/-- The region of a local physical address; unpopulated and reserved addresses are holes. -/
def regionOf (s : State) (pa : Nat) : Region :=
  if pa < 0x00B2D05E0000 then .hbm
  else if pa < 0x040000000000 then .hole
  else if pa < 0x0C0000000000 then
    let port := (pa - 0x040000000000) / 0x020000000000
    if (pa - 0x040000000000) % 0x020000000000 < s.d.expanders.getD port 0 then .tier2 port else .hole
  else if pa < 0x100000000000 then .hole
  else if pa < 0x180000000000 then .decoded
  else if pa < 0x1C0000000000 then .host
  else if pa < 0x1F0000000000 then .hole
  else if pa < 0x200000000000 then (if devListed (pa - 0x1F0000000000) then .device else .hole)
  else .hole

/-! ## Format windows -/

/-- Alias element size in bytes (02 R50). -/
def Window.e (w : Window) : Nat :=
  if w.kind = 0 then (if w.stype = 1 then 8 else 4) else if w.at16 = 1 then 2 else 4

def Window.aliasBytes (w : Window) : Nat := w.alen * 4096
def Window.elems (w : Window) : Nat := w.aliasBytes / w.e
def Window.geom (w : Window) : SGeom := ⟨w.dim, decide (w.stype = 1), w.q⟩

/-- Coded length (02 R50). -/
def Window.codedBytes (w : Window) : Nat :=
  match w.kind with
  | 0 => 2 * w.q * w.elems / w.geom.n
  | 1 => w.elems / 2
  | 4 => 2 * w.elems
  | _ => w.elems

/-- Scale bytes of an i4x window. -/
def Window.scaleBytes (w : Window) : Nat := if w.kind = 1 then w.elems / 32 else 0

def inRange (a base len : Nat) : Bool := decide (base ≤ a ∧ a < base + len)

/-- The window, enabled or being disabled, whose alias range holds an address. -/
def windowAt (s : State) (pa : Nat) : Option (Nat × Window) :=
  ((List.range 64).map (fun n => (n, s.d.windows.getD n Window.reset))).find?
    (fun x => (x.2.en || x.2.busy) && inRange pa x.2.abase x.2.aliasBytes)

/-- The address lies in a coded or scale range of an enabled window (02 R51). -/
def inCoded (s : State) (pa : Nat) : Bool :=
  s.d.windows.any (fun w => w.en && (inRange pa w.cbase w.codedBytes || inRange pa w.sbase w.scaleBytes))

/-- A line touches the window's coded or scale range. -/
def Window.codesLine (w : Window) (line : Nat) : Bool :=
  let meets (base len : Nat) : Bool := decide (0 < len ∧ line * 128 < base + len ∧ base < line * 128 + 128)
  meets w.cbase w.codedBytes || meets w.sbase w.scaleBytes

/-- The expander of an address was removed while running (18 R374). -/
def removedAt (s : State) (pa : Nat) : Bool :=
  match regionOf s pa with
  | .tier2 port => s.d.removed.contains port
  | .hbm | .decoded | .host | .device | .hole => false

/-- A line holds poison in memory (03 R81), or its expander was removed while running (18 R374). -/
def linePoisoned (s : State) (pa : Nat) : Bool := s.m.poison.contains (pa / 128) || removedAt s pa

/-- Alias element `k` of a window of kind 1 to 4, decoded and rounded to the alias type (02 R52). -/
def aliasElem (s : State) (w : Window) (k : Nat) : Nat :=
  let al := fmtOf (if w.at16 = 1 then 9 else 10)
  match w.kind with
  | 1 =>
    let bs := memBytes s.m.mem (w.cbase + 16 * (k / 32)) 16
    let codes := bs.flatMap (fun b => [b.toNat % 16, b.toNat / 16])
    let sigma := sextNat 8 (memByte s.m.mem (w.sbase + k / 32)).toNat
    (cvtFF al (fmtOf 12) 0 false (i4xSlot codes sigma (k % 32))).1
  | 2 => (cvtFF al (fmtOf 12) 0 false ((fmtOf 12).decode (memByte s.m.mem (w.cbase + k)).toNat)).1
  | 3 => (cvtFF al (fmtOf 13) 0 false ((fmtOf 13).decode (memByte s.m.mem (w.cbase + k)).toNat)).1
  | _ => (cvtFF al (fmtOf 9) 0 false ((fmtOf 9).decode (ofBytes (memBytes s.m.mem (w.cbase + 2 * k) 2)))).1

/-- Stores an alias element of a window of kind 2 to 4 (02 R52); of a NaN only the sign is kept (log entry 91). -/
def storeAliasElem (s : State) (w : Window) (k v : Nat) : State :=
  let al := fmtOf (if w.at16 = 1 then 9 else 10)
  let put (a n x : Nat) : State := s.modM (fun m => { m with mem := memSetBytes m.mem a (toBytes n x) })
  match w.kind with
  | 2 => put (w.cbase + k) 1 (cvtFF (fmtOf 12) al 0 (decide (w.ovf = 0)) (al.decode v)).1
  | 3 => put (w.cbase + k) 1 (cvtFF (fmtOf 13) al 0 (decide (w.ovf = 0)) (al.decode v)).1
  | 4 => put (w.cbase + 2 * k) 2 (match al.decode v with
      | .nan n _ _ => (fmtOf 9).canonNaN n
      | x => (cvtFF (fmtOf 9) al 0 false x).1)
  | _ => s

/-- The first coded byte of alias element `k` of a window of kind 1 to 4. -/
def Window.codedAt (w : Window) (k : Nat) : Nat :=
  w.cbase + (match w.kind with | 1 => k / 2 | 4 => 2 * k | _ => k)

/-! ## Serac residency groups -/

def Window.groupBytes (w : Window) : Nat := max 128 (w.geom.n * w.e)
def Window.groupBase (w : Window) (pa : Nat) : Nat :=
  w.abase + (pa - w.abase) / w.groupBytes * w.groupBytes

/-- The code of block `i`. -/
def blockCode (s : State) (w : Window) (i : Nat) : Nat :=
  ofBytes (memBytes s.m.mem (w.cbase + 2 * w.q * i) (2 * w.q))

/-- Block numbers of the group at an alias base. -/
def Window.groupBlocks (w : Window) (base : Nat) : List Nat :=
  let bb := w.geom.n * w.e
  (List.range (w.groupBytes / bb)).map (fun j => (base - w.abase) / bb + j)

/-- The decoded bytes of a group (07 R158). -/
def decodeGroup (s : State) (w : Window) (base : Nat) : List Byte :=
  (w.groupBlocks base).flatMap (fun i => (w.geom.decode (blockCode s w i)).flatMap (toBytes w.e))

/-- The coded lines of block `i`. -/
def Window.codeLines (w : Window) (i : Nat) : List Nat :=
  let a := w.cbase + 2 * w.q * i
  (List.range ((a + 2 * w.q - 1) / 128 - a / 128 + 1)).map (a / 128 + ·)

/-- Elements of a group whose block's code touches a poisoned line (07 R161), as byte offsets in the group. -/
def groupPoison (s : State) (w : Window) (base : Nat) : List Nat :=
  let bb := w.geom.n * w.e
  (List.range (w.groupBytes / bb)).flatMap (fun j =>
    let i := (base - w.abase) / bb + j
    if (w.codeLines i).any (fun l => linePoisoned s (l * 128)) then
      (List.range w.geom.n).map (fun o => j * bb + o * w.e) else [])

def findGroup (s : State) (base : Nat) : Option Group := s.m.groups.find? (fun g => g.base == base)

def setGroup (s : State) (g : Group) : State :=
  s.modM (fun m => { m with groups := m.groups.map (fun h => if h.base = g.base then g else h) })

/-- What a group's lines hold; the value of an absent or filling group is that of its codes (07 R158). -/
def residentGroup (s : State) (n : Nat) (w : Window) (base : Nat) : Group :=
  match findGroup s base with
  | some g =>
    if g.filling then { g with filling := false, data := decodeGroup s w base, written := [], poison := groupPoison s w base }
    else g
  | none => ⟨n, base, false, decodeGroup s w base, [], groupPoison s w base, 40⟩

/-! ## Reading and writing a line at its home -/

/-- The host address that an address of the host aperture reaches (02 R31). -/
def hostAddr (s : State) (pa : Nat) : Nat := (s.d.mgmt.hostbase + (pa - 0x180000000000)) % 2 ^ 64

/-- Host memory as the device's slices see it: with the pushes that wait for the link (04 R92). -/
def hostLineNow (s : State) (line : Nat) : LineBits :=
  s.m.hostQ.foldl (fun acc q => match q with
    | .push l mask bs _ => if l = line then mergeLine acc bs mask else acc
    | .atom _ _ => acc) (bytesAsLine 0 (memBytes s.m.hostMem (hostAddr s (line * 128)) 128))

/-- Marks a byte mask from a test of each byte. -/
def maskOf (f : Nat → Bool) : ByteMask :=
  (List.range 128).foldl (fun acc i => if f i then acc ||| (1#128 <<< i) else acc) 0#128

/-- The first scale byte's line of alias element `k` of an i4x window. -/
def Window.scaleAt (w : Window) (k : Nat) : Nat := w.sbase + k / 32

/-- An alias element of kind 1 to 4 rests on a poisoned line: its code's, or its scale's. -/
def elemPoisoned (s : State) (w : Window) (k : Nat) : Bool :=
  linePoisoned s (w.codedAt k) || (w.kind == 1 && linePoisoned s (w.scaleAt k))

/-- The line at its home, registered words aside (03 R69; 02 R52; 07 R158). -/
def homeLine (s : State) (line : Nat) : LineData :=
  let pa := line * 128
  let lostM := maskOf (fun i => s.m.lost.contains ((pa + i) / 4))
  match regionOf s pa with
  | .decoded =>
    match windowAt s pa with
    | none => ⟨0, 0, 0, s.stamp, s.stamp⟩
    | some (n, w) =>
      if w.kind = 0 then
        let base := w.groupBase pa
        let g := residentGroup s n w base
        let off := pa - base
        ⟨bytesAsLine 0 ((List.range 128).map (fun i => g.data.getD (off + i) 0)),
         maskOf (fun i => g.poison.contains ((off + i) / w.e * w.e)), lostM, s.stamp, s.stamp⟩
      else
        let k0 := (pa - w.abase) / w.e
        ⟨bytesAsLine 0 ((List.range (128 / w.e)).flatMap (fun j => toBytes w.e (aliasElem s w (k0 + j)))),
         maskOf (fun i => elemPoisoned s w (k0 + i / w.e)), lostM, s.stamp, s.stamp⟩
  | .host =>
    let bad : ByteMask := if s.m.poison.contains line then ~~~0#128 else 0
    match s.m.hostLines.find? (fun x => x.line == line) with
    | some x => ⟨x.data.bytes, bad, lostM, s.stamp, x.data.filled⟩
    | none => ⟨hostLineNow s line, bad, lostM, s.stamp, s.stamp⟩
  | .hbm | .tier2 _ =>
    ⟨bytesAsLine 0 (memBytes s.m.mem pa 128), if linePoisoned s pa then ~~~0#128 else 0, lostM, s.stamp, s.stamp⟩
  | .device | .hole => ⟨0, 0, 0, s.stamp, s.stamp⟩

/-! ## The memory controllers (03 R70, R78 to R81) -/

/-- The stack of an HBM address (03 R69). -/
def stackOf (pa : Nat) : Nat :=
  (pa / 2 ^ 12 % 8) ^^^ (pa / 2 ^ 15 % 8) ^^^ (pa / 2 ^ 18 % 8) ^^^ (pa / 2 ^ 21 % 8)

/-- The offset of an HBM address in its stack (03 R70). -/
def stackOffset (pa : Nat) : Nat := pa / 32768 * 4096 + pa % 4096

/-- The bank, the subarray and the row that hold an offset of a stack: free values (03 R78 gives no address rule; log
entry 7). -/
def rowAt (off : Nat) : Nat × Nat × Nat :=
  let r := Config.rowOf off
  (r / 64 % 1024, r % 64, r / 65536)

/-- An access to an HBM line: its row is open afterwards, and the subarray selected longest ago closes beyond MAXOPEN
(03 R78). MAXOPEN is that of the stack's controller (R77). -/
def openRow (s : State) (line : Nat) : State :=
  let pa := line * 128
  match regionOf s pa with
  | .hbm =>
    let r := rowAt (stackOffset pa)
    let stack := stackOf pa
    let old := (s.m.rows.find? (fun o => o.stack == stack && o.bank == r.1)).getD ⟨stack, r.1, []⟩
    let subs := ((r.2.1, r.2.2) :: old.subarrays.filter (fun q => q.1 ≠ r.2.1)).take (max 1 (s.d.mgmt.maxOpen.getD (stack / 2) 0))
    s.modM (fun m => { m with
      rows := ⟨stack, r.1, subs⟩ :: m.rows.filter (fun o => !(o.stack == stack && o.bank == r.1)) })
  | .tier2 _ | .decoded | .host | .device | .hole => s

/-- A memory read whose code does not verify (03 R81): the line is poisoned and the failure counted (18 R376). -/
def failRead (s : State) (line : Nat) : State :=
  let s := s.modM (fun m => { m with
    unverified := m.unverified.filter (· ≠ line)
    poison := if m.poison.contains line then m.poison else line :: m.poison })
  s.modMgmt (fun g => { g with poisCnt := min (g.poisCnt + 1) (2 ^ 32 - 1) })

/-- The next read of a line from memory fails its check (03 R81; an input, log entry 14). -/
def corruptLine (s : State) (line : Nat) : State :=
  s.modM (fun m => { m with unverified := if m.unverified.contains line then m.unverified else line :: m.unverified })

/-- A read of a line of memory: its row opens and its code is checked. Which lines fail the check is an input (log entry
14). -/
def memRead (s : State) (line : Nat) : State :=
  let s := openRow s line
  if s.m.unverified.contains line then failRead s line else s

/-- The counters of a page advance with each line written back to encrypted memory (03 R80). -/
def bumpCounter (s : State) (line : Nat) : State :=
  let page := line / 32
  let c := (s.m.ctrs.find? (fun c => c.page == page)).getD ⟨page, 0, List.replicate 32 0⟩
  let v := c.minors.getD (line % 32) 0
  let c' : PageCtr := if v < 127 then { c with minors := c.minors.set (line % 32) (v + 1) }
    else { c with major := (c.major + 1) % 2 ^ 57, minors := List.replicate 32 0 }
  s.modM (fun m => { m with ctrs := c' :: m.ctrs.filter (fun x => x.page ≠ page) })

/-- A line is written to memory: its row opens and its counter advances; a line written whole verifies again. -/
def memWrite (s : State) (line : Nat) : State :=
  match regionOf s (line * 128) with
  | .hbm | .tier2 _ => bumpCounter (openRow s line) line
  | .decoded | .host | .device | .hole => s

/-- The lines of memory that hold a line at its home: itself, or for an alias line of kind 1 to 4 those of its codes and
scales (03 R69). -/
def memLinesOf (s : State) (line : Nat) : List Nat :=
  match regionOf s (line * 128) with
  | .hbm | .tier2 _ => [line]
  | .decoded =>
    (match windowAt s (line * 128) with
     | some (_, w) =>
       if w.kind = 0 then []
       else
         let ks := (List.range (128 / w.e)).map (fun j => (line * 128 - w.abase) / w.e + j)
         (ks.map (fun k => w.codedAt k / 128) ++ (if w.kind = 1 then ks.map (fun k => w.scaleAt k / 128) else [])).eraseDups
     | none => [])
  | .host | .device | .hole => []

/-- The slice that is the line's home holds it. -/
def inSlice (s : State) (line : Nat) : Bool := s.m.l2.any (fun y => y.line == line && y.visitor.isNone)

/-- A line changed at its home: marked dirty in the slice, or written to memory at once when the slice does not hold it
(03 R80; 04 R85). -/
def markDirty (s : State) (line : Nat) : State :=
  if inSlice s line then
    s.modM (fun m => { m with l2 := m.l2.map (fun y =>
      if y.line = line ∧ y.visitor.isNone then { y with dirty := true } else y) })
  else memWrite s line

/-- Bytes written into memory under a mask. -/
def memMerge (m : List Cell) (pa : Nat) (mask : ByteMask) (d : LineBits) : List Cell :=
  (List.range 128).foldl (fun acc i => if mask.getLsbD i then memSet acc (pa + i) (lineByte d i) else acc) m

/-- Writes bytes of a resident group: the blocks touched are written, and an element stored whole loses its poison
(07 R159, R161). A write comes to no group that is absent or filling: it waits for the fill. -/
def writeGroup (s : State) (w : Window) (line : Nat) (mask : ByteMask) (d : LineBits) : State :=
  let off := line * 128 - w.groupBase (line * 128)
  let bb := w.geom.n * w.e
  match findGroup s (w.groupBase (line * 128)) with
  | none => s
  | some g =>
    if g.filling then s
    else
      let touched := (List.range (w.groupBytes / bb)).filter (fun j => !g.written.contains j &&
        (List.range 128).any (fun i => mask.getLsbD i && (off + i) / bb == j))
      let whole := ((List.range 128).filter (fun i => i % w.e = 0 ∧ maskSub (maskRange i w.e) mask)).map (off + ·)
      setGroup s { g with
        data := (List.range 128).foldl (fun acc i => if mask.getLsbD i then acc.set (off + i) (lineByte d i) else acc) g.data
        written := g.written ++ touched
        poison := g.poison.filter (fun o => !whole.contains o) }

/-- Writes bytes of a line at its home (04 R85, R87, R96): the words of `clean` lose their lost mark, a line written whole
loses its poison (log entry 111), a serac block gets its written bit, an alias element of kind 2 to 4 is rounded and stored. `whos` await
the host's acknowledgement of bytes of host memory. -/
def homeWrite (s : State) (line : Nat) (mask : ByteMask) (d : LineBits) (clean : ByteMask) (whos : List Who) : State :=
  let pa := line * 128
  let s := s.modM (fun m => { m with lost := m.lost.filter (fun w => !(w / 32 == line && clean.getLsbD (4 * (w % 32)))) })
  match regionOf s pa with
  | .decoded =>
    match windowAt s pa with
    | none => s
    | some (_, w) =>
      if w.kind = 0 then writeGroup s w line mask d
      else
        let k0 := (pa - w.abase) / w.e
        let js := (List.range (128 / w.e)).filter (fun j => maskRange (j * w.e) w.e &&& mask != 0#128)
        let s := js.foldl (fun acc j =>
          let old := aliasElem acc w (k0 + j)
          let new := ofBytes ((toBytes w.e old).zipIdx.map (fun (b, i) =>
            if mask.getLsbD (j * w.e + i) then lineByte d (j * w.e + i) else b))
          storeAliasElem acc w (k0 + j) new) s
        ((js.map (fun j => w.codedAt (k0 + j) / 128)).eraseDups).foldl memWrite s
  | .host =>
    s.modM (fun m => { m with
      hostLines := m.hostLines.map (fun x => if x.line = line then
        { x with data := { x.data with bytes := mergeLine x.data.bytes d mask } } else x)
      poison := if mask = ~~~0#128 then m.poison.filter (· ≠ line) else m.poison
      hostQ := m.hostQ ++ [.push line mask d whos] })
  | .hbm | .tier2 _ =>
    let s := s.modM (fun m => { m with
      mem := memMerge m.mem pa mask d
      unverified := if mask = ~~~0#128 then m.unverified.filter (· ≠ line) else m.unverified
      poison := if mask = ~~~0#128 then m.poison.filter (· ≠ line) else m.poison })
    if mask = 0#128 then s else markDirty s line
  | .device | .hole => s

end Sys2Proof.Machine
end

