-- ==== Sys2Proof/Machine/Rime.lean ====
section
/-! DEFINITION. What a rime predicate matches (17 R355 to R357). -/

namespace Sys2Proof.Machine

/-- A predicate watches a stand (17 R355). -/
def Rime.watches (r : Rime) (st : Stand) : Bool := r.en && (r.anycl || r.clnum == st.clnum)

/-- A byte of a run lies in [A, B). -/
def runHits (r : Rime) (q : Nat × Nat) : Bool := decide (max r.a.toNat q.1 < min r.b.toNat (q.1 + q.2))

/-- The first byte of some runs that lies in [A, B). -/
def firstHit (r : Rime) (qs : List (Nat × Nat)) : Nat :=
  match qs.find? (runHits r) with
  | some q => max r.a.toNat q.1
  | none => 0

/-- An address predicate of kind `kind` matches runs of a space. -/
def addrHits (r : Rime) (kind : Nat) (scratch : Bool) (qs : List (Nat × Nat)) : Bool :=
  r.kind == kind && r.space == scratch && qs.any (runHits r)

/-- A value predicate matches data of `n` bits: some element under its TYPE agrees with A under B. -/
def valueHits (r : Rime) (load : Bool) (n v : Nat) : Bool :=
  let w := typeBits r.type
  r.kind == 2 && r.vdir == load && (List.range (max 1 (n / w))).any (fun j =>
    ((v / 2 ^ (j * w) % 2 ^ w) ^^^ (r.a.toNat % 2 ^ w)) &&& (r.b.toNat % 2 ^ w) == 0)

/-- Whether predicates act on this execution: not when the instruction is executed again for suppressed or watched
lanes (17 R360, R361), where they do not count either. -/
def watchOn (g : Grove) : Bool := match g.redo with | some r => !r.ignoreWatch | none => true

/-- An action that a predicate fires is kept with an instruction in progress as `1 + 8 * number + ACT`, 0 for none. -/
def firedCode (num act : Nat) : Nat := 1 + 8 * num + act

end Sys2Proof.Machine
end

