-- ==== Sys2Proof/Machine/Coherence.lean ====
section
/-! DEFINITION. Firn: registration of words, messages between cores and home slices, L1, fills, acquires, drains
(04 R83 to R103), L2 allocation (03 R71 to R73), and departures of serac groups (07 R160). -/

namespace Sys2Proof.Machine

/-! ## Homes -/

/-- The home of an HBM address (03 R69): die and slice within the die. -/
def hbmHome (pa : Nat) : Nat × Nat := (stackOf pa / 2, pa / 128 % 48)

def plainHome (s : State) (pa : Nat) : Nat × Nat :=
  match regionOf s pa with
  | .tier2 _ | .host => (pa / 128 % 4, pa / 512 % 48)
  | .hbm | .decoded | .device | .hole => hbmHome pa

/-- Die and slice of the home of a line (03 R69). -/
def homeOf (s : State) (line : Nat) : Nat × Nat :=
  let pa := line * 128
  match regionOf s pa with
  | .decoded =>
    match windowAt s pa with
    | some (_, w) =>
      if w.kind = 0 then plainHome s (w.cbase + 2 * w.q * ((w.groupBase pa - w.abase) / (w.geom.n * w.e)))
      else plainHome s (w.codedAt ((pa - w.abase) / w.e))
    | none => hbmHome pa
  | .hbm | .tier2 _ | .host | .device | .hole => plainHome s pa

def homeDie (s : State) (line : Nat) : Nat := (homeOf s line).1
def homeSlice (s : State) (line : Nat) : Nat := 48 * (homeOf s line).1 + (homeOf s line).2

/-! ## A core's L1 (03 R57; 04 R85 to R88) -/

def l1Find (s : State) (core line : Nat) : Option L1Line :=
  s.m.l1.find? (fun x => x.core == core && x.line == line)

def L1Line.empty (core line way : Nat) : L1Line := ⟨core, line, way, 0, 0, 0, 0, 0, [], 0, []⟩

/-- The bytes of stores that are not performed yet. -/
def L1Line.pendMask (x : L1Line) : ByteMask := x.pend.foldl (fun m p => m ||| p.mask) 0#128

/-- The line as the core's own loads see it: later stores over earlier ones, over what the line holds. -/
def L1Line.view (x : L1Line) : LineBits := x.pend.foldl (fun d p => mergeLine d p.data p.mask) x.data

/-- The core's own bytes: registered ones and those of stores under way. -/
def L1Line.own (x : L1Line) : ByteMask := x.reg ||| x.pendMask

/-- The words that requests of the core under way name (04 R85). -/
def L1Line.asked (x : L1Line) : ByteMask := x.pend.foldl (fun m p => m ||| wordsOf p.ask) 0#128

/-- The words whose bytes the core holds and that are not lost: registered words without a mark, and words that one store
under way writes whole (04 R99). -/
def L1Line.clean (x : L1Line) : ByteMask :=
  (wordsOf x.reg &&& ~~~x.lost) ||| x.pend.foldl (fun m p => m ||| fullMask p.mask) 0#128

/-- Removes bytes from the stores under way: they have left, or a later store has written them. -/
def dropPend (ps : List PendStore) (m : ByteMask) : List PendStore := ps.map (fun p => { p with mask := p.mask &&& ~~~m })

/-- The L1 line holds something. -/
def L1Line.used (x : L1Line) : Bool := x.reg ||| x.valid != 0#128 || !x.pend.isEmpty

/-- Stores a line's L1 state; a line with no byte left is dropped. -/
def l1Put (s : State) (x : L1Line) : State :=
  s.modM (fun m =>
    let rest := m.l1.filter (fun y => !(y.core == x.core && y.line == x.line))
    { m with l1 := if x.used then x :: rest else rest })

/-- Appends a message to the home slice, on account of a stand (0 for none). -/
def sendSlice (s : State) (core line : Nat) (r : Req) (by_ : Nat) : State :=
  s.modM (fun m => { m with toSlice := m.toSlice ++ [⟨core, line, r, by_, 0, s.stamp, 0⟩] })
def sendCore (s : State) (core line : Nat) (r : Rep) : State :=
  s.modM (fun m => { m with toCore := m.toCore ++ [⟨core, line, r⟩] })

/-- Fills in flight of a line towards a core are not installed (04 R95; R86: no reply read before is installed over words
that the core has given up). -/
def overtake (s : State) (core line : Nat) : State :=
  s.modM (fun m => { m with fills := m.fills.map (fun f =>
    if f.core = core ∧ f.line = line then { f with overtaken := true } else f) })

/-- The ways of a core's L1 that take new lines (03 R56, R57): not those that a conversion takes away (R62). -/
def l1Ways (s : State) (core : Nat) : Nat :=
  let c := s.d.core core
  match c.conv with | some v => min c.l1cur v.target | none => c.l1cur

/-- A way of 256 KiB holds 2,048 lines (03 R56). -/
def l1FreeWays (s : State) (core : Nat) : List Nat :=
  (List.range (l1Ways s core)).filter (fun w =>
    (s.m.l1.filter (fun x => x.core == core && x.way == w)).length < 2048)

/-- The lines that may leave a core's L1 for another: those with no store under way. -/
def l1Victims (s : State) (core : Nat) : List L1Line :=
  s.m.l1.filter (fun x => x.core == core && x.pend.isEmpty && decide (x.way < l1Ways s core))

/-- A core's L1 holds a line, or can take it in. -/
def l1HasRoom (s : State) (core line : Nat) : Bool :=
  (l1Find s core line).isSome || !(l1FreeWays s core).isEmpty || !(l1Victims s core).isEmpty

/-- The predictor's index (04 R103). -/
def predIndex (pa : Nat) : Nat := (pa / 2 ^ 7 % 512) ^^^ (pa / 2 ^ 16 % 512)

/-! ## The predictor of 04 R103 -/

def bumpPred (s : State) (core line n : Nat) : State :=
  if n = 0 then s
  else s.modCore core (fun c =>
    let i := predIndex (line * 128)
    { c with preds := spSet 0 c.preds i (min 3 (spGet 0 c.preds i + n)) })

/-- Words of a line marked as pulled and named by a recall, one per element; and the marks that remain. -/
def pulledElems (pulled : BitVec 64) (words : ByteMask) : Nat × BitVec 64 :=
  let hit := (List.range 32).filter (fun w => pulled.getLsbD w && words.getLsbD (4 * w))
  let ids := (hit.map (fun w => if pulled.getLsbD (32 + w) then w / 2 * 2 else w)).eraseDups
  let gone := (List.range 32).filter (fun w => pulled.getLsbD w &&
    ids.contains (if pulled.getLsbD (32 + w) then w / 2 * 2 else w))
  (ids.length, gone.foldl (fun p w => p &&& ~~~(1#64 <<< w) &&& ~~~(1#64 <<< (32 + w))) pulled)

/-! ## Words leaving an L1 (04 R85, R87, R96) -/

/-- Bytes that leave an L1: where, what, and the words among them that are not lost. -/
structure Leaving where
  mask : ByteMask
  bytes : LineBits
  clean : ByteMask
deriving DecidableEq, Repr

/-- The 8-byte units that a mask touches (05 R105). -/
def unitsOf (m : ByteMask) : ByteMask :=
  (List.range 16).foldl (fun acc u =>
    if m.extractLsb' (8 * u) 8 ≠ 0#8 then acc ||| (0xFF#128 <<< (8 * u)) else acc) 0#128

/-- The slice of a die that holds a visitor copy of a line (04 R90). -/
def visitorSlice (die line : Nat) : Nat := 48 * die + line % 48

/-- Drops a die's visitor copy of a line (04 R90); reads of the line on their way to the die fill none. -/
def dropVisitor (s : State) (die line : Nat) : State :=
  s.modM (fun m => { m with
    l2 := m.l2.filter (fun y => !(y.slice == visitorSlice die line && y.line == line && y.visitor.isSome))
    fills := m.fills.map (fun f => if coreDie f.core = die ∧ f.line = line then { f with novis := true } else f) })

/-- Lays supplied bytes over a line: they are not poisoned, and their words are lost only if marked. -/
def Leaving.over (a : Leaving) (d : LineData) : LineData :=
  { d with bytes := mergeLine d.bytes a.bytes a.mask, poison := d.poison &&& ~~~a.mask, lost := d.lost &&& ~~~a.clean }

/-- Replies on their way to a core's own loads take the bytes that the core gives up meanwhile, which are not older than
the loads' own (04 R85; 05 R107). Replies to its sequencers do not (05 R116). -/
def settleReplies (s : State) (core line : Nat) (a : Leaving) : State :=
  let own (id : Nat) : Bool := s.m.fills.any (fun f => f.id == id && f.tfu.isNone)
  s.modM (fun m => { m with toCore := m.toCore.map (fun t =>
    if t.core = core ∧ t.line = line then
      match t.rep with
      | .fill id d => if own id then { t with rep := .fill id (a.over d) } else t
      | _ => t
    else t) })

/-- Words leave a line: their registered bytes and the bytes stored in them so far (04 R86, R97), which stay as a read
copy. A store is not torn within 8 bytes (05 R105): the stores' bytes of the other word of a unit leave too, or become
registered ones where that word is registered to the core. -/
def L1Line.leave (x : L1Line) (words : ByteMask) : Leaving × L1Line :=
  let units := unitsOf words
  let here := units &&& ~~~words &&& wordsOf x.reg
  let out := (x.reg &&& words) ||| (x.pendMask &&& units &&& ~~~here)
  let stay := x.pendMask &&& here
  (⟨out, x.view, x.clean &&& wordsOf out⟩,
   { x with
     data := mergeLine x.data x.view (out ||| stay)
     reg := (x.reg &&& ~~~words) ||| stay
     valid := (x.valid ||| out) &&& ~~~stay
     pend := dropPend x.pend (out ||| stay) })

/-- A core gives up registered words (04 R85, R96): the bytes it holds of them, and the state with its L1 afterwards, which
keeps them as a read copy. Where stores under way leave with them, the die's visitor copy, which is older, goes (05 R107). -/
def giveUp (s : State) (core line : Nat) (words : ByteMask) : Leaving × State :=
  match l1Find s core line with
  | none => (⟨0, 0, 0⟩, s)
  | some x =>
    let pe := pulledElems x.pulled words
    let r := x.leave words
    let s := settleReplies (overtake (bumpPred (l1Put s { r.2 with pulled := pe.2 }) core line pe.1) core line) core line r.1
    (r.1, if x.pendMask &&& unitsOf words = 0#128 then s else dropVisitor s (coreDie core) line)

/-- Counts groves' write-backs under way. -/
def addWbs (s : State) (whos : List Who) (n : Int) : State :=
  whos.foldl (fun s q => s.modStand q.uid (fun st => { st with groves := st.groves.map (fun g =>
    if g.slot = q.slot then { g with outWbs := ((g.outWbs : Int) + n).toNat } else g) })) s

/-- The registered bytes of some words, as a WB carries them. -/
def L1Line.wbWords (x : L1Line) (words : ByteMask) : Leaving :=
  ⟨x.reg &&& words, x.data, wordsOf (x.reg &&& words) &&& ~~~x.lost⟩

/-- No store under way, or pull, names a registered word that a WB is to carry: such a word is sent once its GRANT has come
(log entry 121). -/
def wbReady (s : State) (core line : Nat) (words : ByteMask) : Bool :=
  ((l1Find s core line).map (fun x => x.asked &&& wordsOf x.reg &&& words == 0#128)).getD true

/-- A core sends WB for words of a line that are registered to it (04 R87, R93): their registered bytes and no others. -/
def writeBack (s : State) (core line : Nat) (words : ByteMask) (whos : List Who) (by_ : Nat) : State :=
  match l1Find s core line with
  | none => s
  | some x =>
    let a := x.wbWords words
    if a.mask = 0#128 then s
    else
      let s := l1Put s { x with reg := x.reg &&& ~~~words, valid := x.valid ||| a.mask }
      sendSlice (settleReplies (overtake (addWbs s whos 1) core line) core line a) core line
        (.wb a.mask a.bytes a.clean whos) by_

/-- A line leaves L1 for another (04 R87): its registered words are sent with WB, its read copy goes with it. -/
def l1Evict (s : State) (x : L1Line) (by_ : Nat) : State :=
  let s := if x.reg = 0#128 then s
    else sendSlice (settleReplies (overtake s x.core x.line) x.core x.line (x.wbWords (~~~0#128))) x.core x.line
      (.wb x.reg x.data x.clean []) by_
  s.modM (fun m => { m with l1 := m.l1.filter (fun y => !(y.core == x.core && y.line == x.line)) })

/-- A core's L1 line, taken into a way when it is absent: one with room, else that of a victim, each a free choice where
there are several (04 R87; log entry 8). Callers have asked for room. -/
def l1Take (s : State) (core line by_ : Nat) : L1Line × State :=
  match l1Find s core line with
  | some x => (x, s)
  | none =>
    match l1FreeWays s core with
    | [w] => (L1Line.empty core line w, s)
    | w :: ws =>
      let f := s.freeWord
      (L1Line.empty core line ((w :: ws).getD (f.1.toNat % (ws.length + 1)) w), f.2)
    | [] =>
      let f := s.freeWord
      match (l1Victims s core)[f.1.toNat % max 1 (l1Victims s core).length]? with
      | some v => (L1Line.empty core line v.way, l1Evict f.2 v by_)
      | none => (L1Line.empty core line 0, f.2)

/-! ## L2 slices (03 R71 to R73) -/

/-- A half's state at the bridge (04 R100): 0 I, 1 S, 2 M. -/
def halfState (s : State) (half : Nat) : Nat := spGet 0 s.m.halves half
def setHalf (s : State) (half v : Nat) : State :=
  s.modM (fun m => { m with halves := spSet 0 m.halves half v })

/-- The halves of a line that a byte mask touches. -/
def halvesOf (line : Nat) (mask : ByteMask) : List Nat :=
  (if mask.extractLsb' 0 64 ≠ 0#64 then [2 * line] else []) ++
  (if mask.extractLsb' 64 64 ≠ 0#64 then [2 * line + 1] else [])

/-- The host invalidates its read copies of some halves (04 R100). -/
def dropShared (s : State) (hs : List Nat) : State :=
  hs.foldl (fun s h => if halfState s h = 1 then setHalf s h 0 else s) s

/-- A request of the line is being served (04 R84). -/
def lineBusy (s : State) (line : Nat) : Bool := s.m.lineWaits.any (fun w => w.line == line)

def firnOf (s : State) (line : Nat) : List FirnEntry := s.m.firn.filter (fun e => e.line == line)

/-- The words of a line that are registered to a core. -/
def wordsAt (s : State) (core line : Nat) : ByteMask :=
  (firnOf s line).foldl (fun m e => if e.core = core then m ||| wordsOf e.mask else m) 0#128

/-- Removes words from a core's entry; an entry with no byte left is removed (04 R83). -/
def firnRemove (s : State) (core line : Nat) (words : ByteMask) : State :=
  s.modM (fun m => { m with firn := ((m.firn.map (fun e =>
    if e.core = core ∧ e.line = line then { e with mask := e.mask &&& ~~~words } else e)).filter
      (fun e => e.mask != 0#128)) })

/-- The words in flight from a core: in WB, or in DATA that answers a recall. -/
def inFlight (s : State) (core line : Nat) : ByteMask :=
  s.m.toSlice.foldl (fun a t =>
    if t.core = core ∧ t.line = line then
      match t.req with
      | .wb mask _ _ _ => a ||| wordsOf mask
      | .data false mask _ _ => a ||| wordsOf mask
      | _ => a
    else a) 0#128

/-- The words that grants on their way to a core name. -/
def inGrant (s : State) (core line : Nat) : ByteMask :=
  s.m.toCore.foldl (fun a t =>
    if t.core = core ∧ t.line = line then
      match t.rep with
      | .grant mask _ => a ||| wordsOf mask
      | _ => a
    else a) 0#128

/-- A line that leaves its slice with a lost word is written to memory poisoned (04 R99). -/
def poisonLost (s : State) (line : Nat) : State :=
  if s.m.lost.any (fun l => l / 32 == line) then
    s.modM (fun m => { m with
      lost := m.lost.filter (fun l => l / 32 ≠ line)
      poison := if m.poison.contains line then m.poison else line :: m.poison })
  else s

/-- Words become lost: their bytes in the slice's copy cleared, a lost bit set for each (04 R96, R99), and counted. A line
that its slice cannot hold goes to memory at once, poisoned. -/
def loseWords (s : State) (line : Nat) (words : ByteMask) : State :=
  if words = 0#128 then s
  else
    let s := match regionOf s (line * 128) with
      | .host => if inSlice s line then
          let h := homeLine s line
          let k01 := s.m.hostLines.any (fun x => x.line == line && x.k01)
          s.modM (fun m => { m with
            hostLines := ⟨line, { h with bytes := mergeLine h.bytes 0 words }, k01⟩ :: m.hostLines.filter (·.line ≠ line) })
        else s
      | .hbm | .tier2 _ | .decoded | .device | .hole => homeWrite s line words 0 0 []
    let ws := (List.range 32).filter (fun w => words.getLsbD (4 * w))
    let s := s.modM (fun m => { m with
      lost := m.lost ++ (ws.map (line * 32 + ·)).filter (fun w => !m.lost.contains w)
      lostCnts := (spSet 0 m.lostCnts (homeSlice s line)
        (min (spGet 0 m.lostCnts (homeSlice s line) + ws.length) (2 ^ 32 - 1))) })
    let s := s.modMgmt (fun g => { g with lostCnt := min (g.lostCnt + ws.length) (2 ^ 32 - 1) })
    if inSlice s line || regionOf s (line * 128) == .decoded then s else poisonLost s line

/-- Merges the bytes of words in flight to the home (WB, or DATA that answers a recall) at once. -/
def settleFlight (s : State) (core line : Nat) (words : ByteMask) : State :=
  let s' := s.m.toSlice.foldl (fun acc t =>
    if t.core = core ∧ t.line = line then
      match t.req with
      | .wb mask bs clean _ => homeWrite acc line (mask &&& words) bs (clean &&& words) []
      | .data false mask bs clean => homeWrite acc line (mask &&& words) bs (clean &&& words) []
      | _ => acc
    else acc) s
  s'.modM (fun m => { m with toSlice := m.toSlice.map (fun t =>
    if t.core = core ∧ t.line = line then
      match t.req with
      | .wb mask bs clean whos => { t with req := .wb (mask &&& ~~~words) bs (clean &&& ~~~words) whos }
      | .data false mask bs clean => { t with req := .data false (mask &&& ~~~words) bs (clean &&& ~~~words) }
      | _ => t
    else t) })

/-- What a core supplies of its registered words: bytes performed at device scope, in its L1 or on their way home, and the
words among them that are not lost. -/
def supplied (s : State) (core line : Nat) : Leaving :=
  let ws := wordsAt s core line
  let add (a : Leaving) (mask : ByteMask) (bs : LineBits) (clean : ByteMask) : Leaving :=
    ⟨a.mask ||| (mask &&& ws), mergeLine a.bytes bs (mask &&& ws), (a.clean &&& ~~~wordsOf (mask &&& ws)) ||| (clean &&& ws)⟩
  let flown := s.m.toSlice.foldl (fun a t =>
    if t.core = core ∧ t.line = line then
      match t.req with
      | .wb mask bs clean _ => add a mask bs clean
      | .data false mask bs clean => add a mask bs clean
      | _ => a
    else a) ⟨0, 0, 0⟩
  match l1Find s core line with
  | some x => add flown x.reg x.data (wordsOf x.reg &&& ~~~x.lost)
  | none => flown

/-- The bytes of stores under way in a core's line. -/
def pendAt (s : State) (core line : Nat) : ByteMask := ((l1Find s core line).map L1Line.pendMask).getD 0

/-- Registered words reach the home at once: those that `pick` takes of each entry, merged under their byte masks; then the
bytes stored in them whose REG has not been taken; the entries lose the words. Words that nothing supplies are lost (R96). -/
def recallWords (s : State) (line : Nat) (pick : FirnEntry → ByteMask) : State :=
  let es := ((firnOf s line).map (fun e => (e.core, pick e))).filter (fun q => q.2 != 0#128)
  let s := es.foldl (fun s q =>
    let known := inFlight s q.1 line ||| inGrant s q.1 line ||| wordsOf (pendAt s q.1 line)
    let s := settleFlight s q.1 line q.2
    let a := supplied s q.1 line
    let got := a.mask &&& q.2
    loseWords (homeWrite s line got a.bytes (a.clean &&& q.2) []) line (q.2 &&& ~~~known &&& ~~~wordsOf got)) s
  es.foldl (fun s q =>
    let late := pendAt s q.1 line
    let r := giveUp s q.1 line q.2
    firnRemove (homeWrite r.2 line (r.1.mask &&& late) r.1.bytes (r.1.clean &&& wordsOf late) []) q.1 line q.2) s

/-- Recalls words of a line, in whole 8-byte units, from every registrant at once: what engines, the host and departures
need before they act at the home. A read that waits takes these words from the home. -/
def recallNow (s : State) (line : Nat) (words : ByteMask) : State :=
  let us := unitsOf words
  let s := recallWords s line (fun e => wordsOf e.mask &&& us)
  s.modM (fun m => { m with
    toSlice := m.toSlice.map (fun t => match t.req with
      | .data true mask bs clean => if t.line = line then
          { t with req := .data true (mask &&& ~~~us) bs (clean &&& ~~~us) } else t
      | _ => t)
    lineWaits := m.lineWaits.map (fun w => if w.line = line then
      { w with accMask := w.accMask &&& ~~~us, clean := w.clean &&& ~~~us } else w) })

def groupLines (w : Window) (base : Nat) : List Nat := (List.range (w.groupBytes / 128)).map (base / 128 + ·)

/-- Departure of a serac group (07 R160): recall, read each written block's code again, encode the block where it differs, drop
the lines (log entries 112, 113 and 123). -/
def departNow (s : State) (base : Nat) : State :=
  match findGroup s base with
  | none => s
  | some g0 =>
    let w := s.d.windows.getD g0.win Window.reset
    let lines := groupLines w base
    let s := if g0.filling then s else lines.foldl (fun acc l => recallNow acc l (~~~0#128)) s
    let g := (findGroup s base).getD g0
    let bb := w.geom.n * w.e
    let s := if g.filling then s else g.written.foldl (fun acc j =>
      let i := (base - w.abase) / bb + j
      let lostAt (k : Nat) : Bool := acc.m.lost.contains ((base + k) / 4)
      let el (o : Nat) : Nat :=
        let at_ := j * bb + o * w.e
        if (List.range w.e).any (fun k => lostAt (at_ + k)) then 0
        else ofBytes ((List.range w.e).map (fun k => g.data.getD (at_ + k) 0))
      let els := (List.range w.geom.n).map el
      let isLost := (List.range bb).any (fun k => lostAt (j * bb + k))
      let poisoned := g.poison.any (fun o => o / bb == j)
      let nf := (els.filter (fun x => match w.geom.fmt.decode x with | .fin .. => false | _ => true)).length
      let key := (g.win * 192 + homeSlice acc (base / 128)) * 3
      let upd (k n : Nat) (a : State) : State := a.modM (fun m => { m with
        seracCnts := spSet 0 m.seracCnts (key + k) (min (spGet 0 m.seracCnts (key + k) + n) (2 ^ 64 - 1)) })
      let acc := (w.codeLines i).foldl memRead acc
      if poisoned ∨ w.geom.decode (blockCode acc w i) = els ∧ ¬ isLost then
        upd 1 1 acc
      else
        let code := toBytes (2 * w.q) (w.geom.encode els)
        let acc := upd 2 nf (upd 0 1 acc)
        (w.codeLines i).foldl memWrite (acc.modM (fun m => { m with
          mem := memSetBytes m.mem (w.cbase + 2 * w.q * i) code
          poison := if isLost then m.poison ++ (w.codeLines i).filter (fun l => !m.poison.contains l) else m.poison }))) s
    s.modM (fun m => { m with
      groups := m.groups.filter (fun x => x.base ≠ base)
      lost := m.lost.filter (fun x => !(lines.contains (x / 32)))
      l2 := m.l2.filter (fun x => !(lines.contains x.line && x.visitor.isNone)) })

/-- The lines that leave a slice together with a line: its whole serac group, or itself (07 R158). -/
def leaveWith (s : State) (y : L2Line) : List Nat :=
  match windowAt s (y.line * 128) with
  | some (_, w) => if w.kind = 0 then groupLines w (w.groupBase (y.line * 128)) else [y.line]
  | none => [y.line]

/-- A recalibration holds the accesses to a memory line's stack (18 R382). -/
def stackHeld (s : State) (line : Nat) : Bool :=
  match regionOf s (line * 128) with
  | .hbm => s.d.mgmt.heldStacks.contains (stackOf (line * 128))
  | .tier2 _ | .decoded | .host | .device | .hole => false

/-- The codes of a serac group lie, for some part, in a stack that a recalibration holds (18 R382). -/
def groupHeld (s : State) (w : Window) (base : Nat) : Bool :=
  w.kind == 0 && ((w.groupBlocks base).flatMap w.codeLines).any (stackHeld s)

/-- A line or group that leaves its slice writes to a stack that a recalibration holds (18 R382). -/
def leavesHeld (s : State) (y : L2Line) : Bool :=
  match windowAt s (y.line * 128) with
  | some (_, w) => groupHeld s w (w.groupBase (y.line * 128))
  | none => (y.dirty || s.m.lost.any (fun l => l / 32 == y.line)) && stackHeld s y.line

/-- A line may be chosen as victim (03 R72, R73; 07 R159): no line that leaves with it is pinned or has a request in
progress, its group is not filling, and no stack that it writes is held. A visitor copy always may (04 R90). -/
def mayLeave (s : State) (y : L2Line) : Bool :=
  y.visitor.isSome ||
    (!leavesHeld s y && !(leaveWith s y).any (fun l => lineBusy s l || s.m.l2.any (fun z => z.line == l && z.visitor.isNone && z.pins != 0)) &&
      (match windowAt s (y.line * 128) with
       | some (_, w) => w.kind != 0 || ((findGroup s (w.groupBase (y.line * 128))).map (fun g => !g.filling)).getD true
       | none => true))

/-- A die's visitor copy of a line that is older than a reply which has come, or than a visitor copy which has served, is not
used any more, and no older reply on its way fills one (04 R89). -/
def dropStale (s : State) (die line stamp : Nat) : State :=
  let old (id : Nat) : Bool := s.m.toCore.any (fun t => match t.rep with
    | .fill k d => k == id && decide (d.stamp < stamp)
    | _ => false)
  s.modM (fun m => { m with
    l2 := m.l2.filter (fun y => !(y.slice == visitorSlice die line && y.line == line &&
      y.visitor.any (fun v => decide (v.stamp < stamp))))
    fills := m.fills.map (fun f => if coreDie f.core = die ∧ f.line = line ∧ old f.id then { f with novis := true } else f) })

/-- A line leaves its slice: a changed line is written back, a lost word is written to memory poisoned (04 R99), a serac
group departs. -/
def evictLine (s : State) (x : L2Line) : State :=
  let s := s.modM (fun m => { m with l2 := m.l2.filter (fun y => !(y.slice == x.slice && y.line == x.line)) })
  match x.visitor with
  | some v => dropStale s (x.slice / 48) x.line v.stamp
  | none => match windowAt s (x.line * 128) with
    | some (_, w) => if w.kind = 0 then departNow s (w.groupBase (x.line * 128)) else s
    | none =>
      let s := s.modM (fun m => { m with hostLines := m.hostLines.filter (fun h => h.line ≠ x.line) })
      poisonLost (if x.dirty then memWrite s x.line else s) x.line

/-- The partition that an access of the host, of firmware or of another module acts for: the one whose segment holds the
address, 20 for none (03 R71; log entry 122). -/
def partOfPa (s : State) (pa : Nat) : Nat :=
  ((List.range 20).find? (fun p => (s.d.part p).alive && (s.d.part p).segs.any (fun g =>
    inRange pa (g.target * 2 ^ 21) (g.len * 2 ^ 21)))).getD 20

/-- The ways a partition may allocate (03 R71); traffic for no partition (20) uses way 11: the host's by that rule, that of
firmware and of other modules by log entry 122. -/
def waysOf (s : State) (part : Nat) : List Nat :=
  (List.range 12).filter (fun w => (if part < 20 then (s.d.part part).l2ways else 2 ^ 11).testBit w)

/-- The set that a slice keeps a line in: a free value (03 R71 gives no index rule; log entry 7). -/
def l2SetOf (line : Nat) : Nat := Config.l2Set line % 1024

/-- The way that an allocation takes and the line that leaves it (03 R73): an invalid way, else a used decode-ahead line,
else the line used longest ago; `none` when it must wait (R72). -/
def l2Place (s : State) (slice line part : Nat) : Option (Nat × Option L2Line) :=
  let inSet := s.m.l2.filter (fun y => y.slice == slice && l2SetOf y.line == l2SetOf line)
  match (waysOf s part).find? (fun w => !inSet.any (fun y => y.way == w)) with
  | some w => some (w, none)
  | none =>
    let cands := inSet.reverse.filter (fun y => (waysOf s part).contains y.way && mayLeave s y)
    ((cands.find? (fun y => y.mark == 2)).or cands.head?).map (fun v => (v.way, some v))

/-- A line's home slice holds it. -/
def l2Home (s : State) (line : Nat) : Option L2Line := s.m.l2.find? (fun y => y.line == line && y.visitor.isNone)

/-- A line of a coded or scale range of an enabled window: never held in a slice under its own address (03 R69). -/
def codedLine (s : State) (line : Nat) : Bool := s.d.windows.any (fun w => w.en && w.codesLine line)

/-- An access of a line need not wait for a place in its slice (03 R71, R72): it is there, or may not be allocated at all,
or finds a way. -/
def l2Room (s : State) (line part : Nat) : Bool :=
  (l2Home s line).isSome || codedLine s line || (waysOf s part).isEmpty || (l2Place s (homeSlice s line) line part).isSome

/-- A held line is used: it becomes the newest, and a read marks a decode-ahead line used (03 R73; DESIGN CHOICE, log entry
97: `oldest first` among used lines goes by the last use). -/
def l2Touch (s : State) (y : L2Line) (read : Bool) : State :=
  let y' := { y with mark := if y.mark = 1 ∧ read then 2 else y.mark }
  s.modM (fun m => { m with l2 := y' :: (m.l2.filter (fun z => !(z.slice == y.slice && z.line == y.line))) })

/-- A line is allocated in a slice, its victim leaving first; nothing is allocated when no way may be. `mark` is 1 for a
line fetched ahead under decompression (03 R73). -/
def l2Alloc (s : State) (slice line part mark : Nat) (visitor : Option LineData) : State :=
  match l2Place s slice line part with
  | none => s
  | some p =>
    let s := match p.2 with | some v => evictLine s v | none => s
    s.modM (fun m => { m with l2 := ⟨slice, p.1, line, part, false, 0, mark, visitor⟩ :: m.l2 })

/-- An access of a line at its home slice (03 R71 to R73): a hit, or a read from memory and an allocation for the partition
on whose behalf it is. -/
def l2Access (s : State) (line part mark : Nat) (read : Bool) : State :=
  match l2Home s line with
  | some y => l2Touch s y read
  | none =>
    let s := (memLinesOf s line).foldl memRead s
    if codedLine s line then s else l2Alloc s (homeSlice s line) line part mark none

/-- A die's visitor copy of a line. -/
def visitorOf (s : State) (die line : Nat) : Option L2Line :=
  s.m.l2.find? (fun y => y.slice == visitorSlice die line && y.line == line && y.visitor.isSome)

/-- A reply from a home on another die fills the die's visitor copy, in the ways of the reading partition (04 R90). -/
def fillVisitor (s : State) (die line part : Nat) (d : LineData) : State :=
  match visitorOf s die line with
  | some y => l2Touch s { y with visitor := some d } true
  | none => l2Alloc s (visitorSlice die line) line part 0 (some d)

/-! ## The firn table and current values -/

/-- A drain (04 R96): every word of an entry. Other cores' words in the same 8-byte units are taken too where the drained
core has stored in them, so that its store is not torn (05 R105). -/
def drainEntry (s : State) (e : FirnEntry) : State :=
  let mine := wordsAt s e.core e.line
  let us := unitsOf (pendAt s e.core e.line &&& unitsOf mine &&& ~~~mine)
  recallWords s e.line (fun f => wordsOf f.mask &&& (if f.core = e.core then ~~~0#128 else us))

/-- The oldest entry of a full table, which a new entry of the slice drains (04 R96). -/
def drainFor (s : State) (slice : Nat) : Option FirnEntry :=
  let mine := s.m.firn.filter (fun e => e.slice == slice)
  if mine.length < 8192 then none else mine.head?

/-- Makes or extends a core's entry (04 R83, R85), draining the slice's oldest entry first when the table is full. -/
def register (s : State) (core line part : Nat) (mask : ByteMask) : State :=
  if (firnOf s line).any (fun e => e.core == core) then
    s.modM (fun m => { m with firn := m.firn.map (fun e =>
      if e.core = core ∧ e.line = line then { e with mask := e.mask ||| mask } else e) })
  else
    let sl := homeSlice s line
    let s := match drainFor s sl with
      | some e => drainEntry s e
      | none => s
    s.modM (fun m => { m with firn := m.firn ++ [⟨sl, line, core, part, mask⟩] })

/-- The current bytes of a line: the home's, with each registrant's registered words (04 R88). -/
def curLine (s : State) (line : Nat) : LineData :=
  let h := homeLine s line
  let h := match regionOf s (line * 128) with
    | .host => { h with bytes := hostLineNow s line }
    | .hbm | .tier2 _ | .decoded | .device | .hole => h
  let d := (firnOf s line).foldl (fun acc e => (supplied s e.core line).over acc) h
  if removedAt s (line * 128) then { d with poison := ~~~0#128 } else d

/-- Current bytes at physical addresses, with poison and lost marks. -/
def curBytes (s : State) (pa n : Nat) : List (Byte × Bool × Bool) :=
  let l0 := pa / 128
  let lines := (List.range ((pa + n - 1) / 128 - l0 + 1)).map (fun i => (l0 + i, curLine s (l0 + i)))
  (List.range n).map (fun i =>
    let a := pa + i
    match lines.find? (fun x => x.1 == a / 128) with
    | some x => (lineByte x.2.bytes (a % 128), x.2.poison.getLsbD (a % 128), x.2.lost.getLsbD (a % 128))
    | none => (0, false, false))

/-- Current value of consecutive bytes. -/
def curNat (s : State) (pa n : Nat) : Nat := ofBytes ((curBytes s pa n).map (·.1))

/-- Splits a run of bytes into pieces, one per line: line, offset, bytes. -/
def linePieces : Nat → Nat → List Byte → List (Nat × Nat × List Byte)
  | 0, _, _ => []
  | fuel + 1, pa, bs =>
    if bs.isEmpty then []
    else
      let room := 128 - pa % 128
      (pa / 128, pa % 128, bs.take room) :: linePieces fuel (pa + room) (bs.drop room)

/-- The lines that some bytes touch. -/
def spanLines (a n : Nat) : List Nat := (List.range ((a + n - 1) / 128 - a / 128 + 1)).map (a / 128 + ·)

/-- A write performed at the home by an engine, the host or the device (05 R119, 08 R181): registered words of the
line touched are recalled first, and the host's read copies go (04 R100). `whos` await the host's acknowledgement of bytes of
host memory. -/
def engineWriteBy (s : State) (pa : Nat) (bs : List Byte) (whos : List Who) : State :=
  (linePieces (bs.length / 128 + 2) pa bs).foldl (fun acc p =>
    let mask := maskRange p.2.1 p.2.2.length
    homeWrite (recallNow (dropShared acc (halvesOf p.1 mask)) p.1 (wordsOf mask)) p.1 mask (bytesAsLine p.2.1 p.2.2)
      (fullMask mask) whos) s

def engineWrite (s : State) (pa : Nat) (bs : List Byte) : State := engineWriteBy s pa bs []

/-- The partition of a core's half-cluster (00 R4), 20 when none. -/
def partOfCore (s : State) (core : Nat) : Nat :=
  ((List.range 20).find? (fun p => (s.d.part p).alive && ((s.d.part p).halves).testBit (core / 6))).getD 20

/-! ## Slice ports (03 R74 to R76) and BWTOK (08 R184) -/

def bucketLevel (s : State) (slice part cls : Nat) : Nat :=
  ((s.m.buckets.find? (fun b => b.slice == slice && b.part == part && b.cls == cls)).map (·.level)).getD 0

def setBucket (s : State) (slice part cls v : Nat) : State :=
  s.modM (fun m => { m with
    buckets := ⟨slice, part, cls, v⟩ :: m.buckets.filter (fun b => !(b.slice == slice && b.part == part && b.cls == cls)) })

def spareLevel (s : State) (slice : Nat) : Nat := spGet 0 s.m.spare slice
def setSpare (s : State) (slice v : Nat) : State := s.modM (fun m => { m with spare := spSet 0 m.spare slice v })

/-- RATE and DEPTH of a context as TBCFG0 and TBCFG1 hold them (03 R75). -/
def tbcfg (s : State) (part cls : Nat) : Nat × Nat :=
  let p := s.d.part part
  if cls = 0 then (p.rate0, max 1 p.depth0) else (p.rate1, max 1 p.depth1)

/-- RATE and DEPTH of a context in force since the last refill (03 R76). -/
def tbNow (s : State) (part cls : Nat) : Nat × Nat :=
  let v := spGet 0 s.m.tbNow (2 * part + cls)
  (v / 4096, max 1 (v % 4096))

/-- A context has no bucket at any port (03 R74, R75). -/
def unmetered (s : State) (part cls : Nat) : Bool := (tbNow s part cls).1 == 0 || decide (20 ≤ part)

/-- A token for one transfer (03 R76), from the spare pool when no older request is to have it; none when the request
waits. -/
def takeToken (s : State) (slice part cls : Nat) (spare : Bool) : Option State :=
  if unmetered s part cls then some s
  else if 1 ≤ bucketLevel s slice part cls then some (setBucket s slice part cls (bucketLevel s slice part cls - 1))
  else if spare ∧ 1 ≤ spareLevel s slice then some (setSpare s slice (spareLevel s slice - 1))
  else none

/-- Tokens of a context at a slice, as many of `n` as there are: how many were taken. -/
def takeTokens (s : State) (slice part cls : Nat) (spare : Bool) : Nat → Nat × State
  | 0 => (0, s)
  | n + 1 =>
    let r := takeTokens s slice part cls spare n
    match takeToken r.2 slice part cls spare with
    | some s => (r.1 + 1, s)
    | none => r

/-- The stand's BWTOK has a unit left (08 R184); 0xFFFF is unmetered (08 R182). -/
def bwLeft (s : State) (uid : Nat) : Bool :=
  match s.stand? uid with
  | some st => st.shape.bwtok == 0xFFFF || decide (st.bwUsed < st.shape.bwtok)
  | none => true

/-- One unit of the stand's BWTOK (08 R184); none when its count is at 0. -/
def takeBw (s : State) (uid : Nat) : Option State :=
  if bwLeft s uid then some (s.modStand uid (fun st => { st with bwUsed := st.bwUsed + 1 })) else none

/-- The transfers between a slice and its memory controllers that an access of a line needs: its lines that are read, and
a changed line that leaves for it (03 R74). A re-encode takes no token. -/
def missTokens (s : State) (line part : Nat) : Nat :=
  if inSlice s line then 0
  else (memLinesOf s line).length + (match l2Place s (homeSlice s line) line part with
    | some (_, some v) => if v.dirty && v.visitor.isNone then 1 else 0
    | some (_, none) => 0
    | none => 0)

/-- The tokens that a message takes at its slice's port (03 R74): one for its line of data, and what its access needs. A
REG carries masks and no data. -/
def tokensOf (s : State) (t : ToSlice) : Nat :=
  match t.req with
  | .reg .. => missTokens s t.line (partOfCore s t.core)
  | .read _ part => 1 + missTokens s t.line part
  | .atom .. => 1 + missTokens s t.line (partOfCore s t.core)
  | .wb .. => 1 + (if inSlice s t.line then 0 else (memLinesOf s t.line).length)
  | .data .. => 1
  | .engine .. => 0

/-- The context that a message is charged to (03 R74): the partition of the stand that causes it; none for what no stand
causes (drains, R62, R53). An answer is charged to the partition of the request that waits for it. -/
def ctxOf (s : State) (t : ToSlice) : Option Nat :=
  if t.by_ = 0 then none
  else match t.req with
    | .read _ part => some part
    | .data .. => some (partOfCore s
        (((s.m.lineWaits.find? (fun w => w.line == t.line && w.need.contains t.core)).map (·.core)).getD t.core))
    | .reg .. => some (partOfCore s t.core)
    | .wb .. => some (partOfCore s t.core)
    | .atom .. => some (partOfCore s t.core)
    | .engine .. => none

/-- A message that its port has not accepted. -/
def unpaid (s : State) (t : ToSlice) : Bool := t.by_ != 0 && decide (t.paid < tokensOf s t)

/-- A request of a context waits at a port for a token that its bucket does not hold (03 R76). -/
def starved (s : State) (slice part cls : Nat) : Bool := !unmetered s part cls && bucketLevel s slice part cls == 0

/-- A message carries a line of data between a core and a slice: a transfer of the core's miss queue (08 R184). -/
def carries (r : Req) : Bool :=
  match r with
  | .reg .. => false
  | .engine .. => false
  | .read .. => true
  | .wb .. => true
  | .data .. => true
  | .atom .. => true

/-- A message is held by its stand's BWTOK (08 R184). -/
def bwHeld (s : State) (t : ToSlice) : Bool := t.paid == 0 && carries t.req && !bwLeft s t.by_

/-- The messages that wait at a port for a token of the spare pool. -/
def spareMsgs (s : State) (slice : Nat) : List ToSlice :=
  s.m.toSlice.filter (fun y => y.arr != 0 && homeSlice s y.line == slice && unpaid s y && !bwHeld s y &&
    starved s slice ((ctxOf s y).getD 20) 0)

/-- The copies' transfers that wait at a port for a token of the spare pool: when each was asked for. -/
def spareCopies (s : State) (slice : Nat) : List Nat :=
  (s.stands.filter (fun st => starved s slice st.part 1)).flatMap (fun st => st.copy.queue.filterMap (fun c =>
    match c.asked with
    | some a => if homeSlice s a.1 = slice then some a.2 else none
    | none => none))

/-- No older request of a port waits for the spare pool (03 R76: requests are taken oldest first), for a message. -/
def spareForMsg (s : State) (t : ToSlice) : Bool :=
  (spareMsgs s (homeSlice s t.line)).all (fun y => decide (t.arr ≤ y.arr)) &&
    (spareCopies s (homeSlice s t.line)).all (fun a => decide (t.sent ≤ a))

/-- The same for a transfer of a copy asked for at a time. -/
def spareForCopy (s : State) (slice at_ : Nat) : Bool :=
  (spareMsgs s slice).all (fun y => decide (at_ < y.sent)) && (spareCopies s slice).all (fun a => decide (at_ ≤ a))

/-- The cores whose answers an access of some words of a line asks for. -/
def holders (s : State) (line : Nat) (mask : ByteMask) : Nat :=
  (firnOf s line).countP (fun e => wordsOf e.mask &&& unitsOf mask != 0#128)

/-- Tokens for the transfers by which a walk, an instruction fetch or the fill of a group reaches memory (03 R74, R76): whether
all are paid; those taken so far are kept under a line's number. Such a request takes from the spare pool when no other waits
for it (log entry 48). -/
def prepay (s : State) (slice key part cls need : Nat) : Bool × State :=
  let paid := spGet 0 s.m.prepaid key
  let spare := (spareMsgs s slice).isEmpty && (spareCopies s slice).isEmpty
  let r := takeTokens s slice part cls spare (need - paid)
  let all := decide (need ≤ paid + r.1)
  (all, r.2.modM (fun m => { m with prepaid := spSet 0 m.prepaid key (if all then 0 else paid + r.1) }))

/-! ## Readiness of a line at its home (04 R84, R100; 07 R159; 03 R72) -/

/-- Whether the line's serac group is decoded at its home (07 R158); other lines are always ready. -/
def groupReady (s : State) (line : Nat) : Bool :=
  match windowAt s (line * 128) with
  | some (_, w) =>
    if w.kind = 0 then
      (match findGroup s (w.groupBase (line * 128)) with | some g => !g.filling | none => false)
    else true
  | none => true

/-- A group may leave its slice: it is decoded, and none of its lines is pinned or has a request in progress, nor does it
write to a stack that a recalibration holds. -/
def mayDepart (s : State) (g : Group) : Bool :=
  let w := s.d.windows.getD g.win Window.reset
  let ls := groupLines w g.base
  !g.filling && !ls.any (lineBusy s) && !s.m.l2.any (fun y => ls.contains y.line && y.visitor.isNone && y.pins != 0) &&
    !((w.groupBlocks g.base).flatMap w.codeLines).any (stackHeld s)

/-- The groups of a slice that none of its lines holds: of windows whose partition may allocate in no way (03 R71). -/
def looseGroups (s : State) (slice : Nat) : List Group :=
  s.m.groups.filter (fun g =>
    let w := s.d.windows.getD g.win Window.reset
    homeSlice s (g.base / 128) == slice && (waysOf s w.part).isEmpty && !(groupLines w g.base).any (inSlice s))

/-- An absent group starts to fill (07 R159), charged to the context of the request that needs it (03 R74; 40 for none). A
group that no way may hold passes through its slice one at a time: the one before it departs first (00 R5; 03 R71). -/
def startFill (s : State) (line ctx : Nat) : State :=
  match windowAt s (line * 128) with
  | some (n, w) =>
    let base := w.groupBase (line * 128)
    if w.kind = 0 ∧ (findGroup s base).isNone then
      let begin_ (s : State) : State := s.modM (fun m => { m with groups := ⟨n, base, true, [], [], [], ctx⟩ :: m.groups })
      if (waysOf s w.part).isEmpty then
        match looseGroups s (homeSlice s line) with
        | [] => begin_ s
        | g :: _ => if mayDepart s g then begin_ (departNow s g.base) else s
      else begin_ s
    else s
  | none => s

/-- A line is in its slice or can be read into it; an alias line of kind 1 to 4 is read and written at its codes. -/
def homeOpen (s : State) (line part : Nat) : Bool :=
  ((inSlice s line && regionOf s (line * 128) != .decoded) || !(memLinesOf s line).any (stackHeld s)) && l2Room s line part

/-- A line can be served at its home now: no request of it is in progress, its group is decoded, and it is in its slice or
can be read into it. -/
def homeReady (s : State) (line part : Nat) : Bool := !lineBusy s line && groupReady s line && homeOpen s line part

/-- An access by an agent beside the cores can be served now: further, the host owns no half that it touches. -/
def lineReady (s : State) (line part : Nat) (mask : ByteMask) : Bool :=
  homeReady s line part && (halvesOf line mask).all (fun h => halfState s h != 2)

/-- What a waiting access starts: the fill of its group, on account of a context, or the recall of the halves that the host
owns (04 R100). -/
def lineAsk (s : State) (line : Nat) (mask : ByteMask) (write : Bool) (ctx : Nat) : State :=
  if lineBusy s line then s
  else if !groupReady s line then startFill s line ctx
  else
    let ms := (halvesOf line mask).filter (fun h => halfState s h == 2)
    if ms.isEmpty then s
    else s.modM (fun m => { m with
      lineWaits := m.lineWaits ++ [⟨line, 192, .engine mask write, 0, [], ms, 0, 0, 0⟩] })

/-- The bytes of a line that a run of bytes covers. -/
def runMask (line a n : Nat) : ByteMask :=
  let lo := max a (128 * line)
  let hi := min (a + n) (128 * line + 128)
  if lo < hi then maskRange (lo % 128) (hi - lo) else 0#128

/-- Every line of a run of bytes can be served now. -/
def spanReady (s : State) (a n part : Nat) : Bool :=
  n == 0 || (spanLines a n).all (fun l => lineReady s l part (runMask l a n))

/-- What an access of a run of bytes that waits starts. -/
def spanAsk (s : State) (a n : Nat) (write : Bool) (ctx : Nat) : State :=
  if n = 0 then s else (spanLines a n).foldl (fun s l => lineAsk s l (runMask l a n) write ctx) s

/-- An access of every line of a run of bytes. -/
def spanAccess (s : State) (a n part : Nat) (read : Bool) : State :=
  if n = 0 then s else (spanLines a n).foldl (fun s l => l2Access s l part 0 read) s

/-- A write of the device itself (status bytes, records) is performed (17 R369). -/
def performWrite (s : State) (w : DevWrite) : State :=
  let s := engineWrite (spanAccess s w.pa w.bytes.length w.part false) w.pa w.bytes
  match w.ptr with
  | some v => s.modPart w.part (fun p => { p with tracePtr := v })
  | none => s

/-- The writes of the device that wait are performed in order, as far as their lines are ready (04 R84, R100). -/
def flushWrites : Nat → State → State
  | 0, s => s
  | n + 1, s =>
    match s.m.devWrites with
    | [] => s
    | w :: rest =>
      if spanReady s w.pa w.bytes.length w.part then
        flushWrites n (performWrite (s.modM (fun m => { m with devWrites := rest })) w)
      else spanAsk s w.pa w.bytes.length true (2 * w.part)

/-- A write of the device itself: performed when its lines are ready, after those that wait already; else it waits. -/
def deviceWrite (s : State) (w : DevWrite) : State :=
  if s.m.devWrites.isEmpty ∧ spanReady s w.pa w.bytes.length w.part then performWrite s w
  else (spanAsk s w.pa w.bytes.length true (2 * w.part)).modM (fun m => { m with devWrites := m.devWrites ++ [w] })

/-! ## Loads and stores of a core -/

/-- The core's own bytes over a line that it receives (04 R88): a reply never replaces them. -/
def L1Line.over (x : L1Line) (d : LineData) : LineData :=
  { d with bytes := mergeLine d.bytes x.view x.own, poison := d.poison &&& ~~~x.own, lost := d.lost &&& ~~~x.clean }

/-- A write-back of the line is on its way from the core. -/
def wbOut (s : State) (core line : Nat) : Bool :=
  s.m.toSlice.any (fun t => t.core == core && t.line == line && (match t.req with | .wb .. => true | _ => false))

/-- What a core's L1 gives a load at once (04 R88): its own bytes and the read copy; a tainted load takes its own bytes only
(05 R122). -/
def L1Line.serve (x : L1Line) (need : ByteMask) (tainted : Bool) (stamp : Nat) : Option LineData :=
  if maskSub need (if tainted then x.own else x.own ||| x.valid) then
    some ⟨x.view, x.poison &&& ~~~x.pendMask, x.lost &&& ~~~x.clean, stamp, stamp⟩
  else none

/-- What a visitor copy gives a load: one filled after the core's last acquire of device scope, from a slice copy filled
after its last one of system scope, while the core's L1 holds no read copy of the bytes and no write-back of the line is on
its way (04 R88, R89, R91). -/
def visitorServe (s : State) (core line : Nat) (need : ByteMask) : Option LineData :=
  if homeDie s line = coreDie core ∨ wbOut s core line ∨
      ((l1Find s core line).map (fun x => x.valid &&& need != 0#128)).getD false then none
  else
    match (visitorOf s (coreDie core) line).bind (·.visitor) with
    | some d => if (s.d.core core).visFence < d.stamp ∧ (s.d.core core).hostFence < d.filled then
        some (match l1Find s core line with | some x => x.over d | none => d) else none
    | none => none

/-- What a core's L1 holds of a line for a load. -/
def l1Serve (s : State) (core line : Nat) (need : ByteMask) (tainted : Bool) : Option LineData :=
  (l1Find s core line).bind (fun x => x.serve need tainted s.stamp)

/-- The bytes of a line that a load may take at once (04 R88). After a visitor copy has served it, no reply read before is
installed in L1 (R89). -/
def loadNow (s : State) (core line : Nat) (need : ByteMask) (tainted : Bool) : Option (LineData × State) :=
  match l1Serve s core line need tainted with
  | some d => some (d, s)
  | none =>
    if tainted then none
    else (visitorServe s core line need).map (fun d => (d, overtake s core line))

/-- A core sends a read of a line to its home (04 R88, R95); the fill's number. -/
def sendRead (s : State) (uid core line part : Nat) (tfu : Option Who) (kind01 : Bool) (fence : Nat) : Nat × State :=
  let id := s.nextId
  let s := { s with nextId := id + 1 }
  let s := s.modM (fun m => { m with
    fills := m.fills ++ [⟨id, uid, core, line, false, false, fence, tfu, kind01, false, none⟩] })
  (id, sendSlice s core line (.read id part) uid)

/-- Adds to a grove's count of stores not yet performed. -/
def addOut (s : State) (w : Who) (n : Int) : State :=
  s.modStand w.uid (fun st => { st with groves := st.groves.map (fun g =>
    if g.slot = w.slot then { g with outStores := ((g.outStores : Int) + n).toNat } else g) })

/-- Bytes performed in L1 at once over registered words (04 R85): later than the stores under way, and the die's visitor
copy of the line, which is older, goes (04 R89, 05 R115). -/
def performLocal (s : State) (x : L1Line) (mask : ByteMask) (d : LineBits) : State :=
  dropVisitor (l1Put s { x with
    data := mergeLine x.data d mask
    reg := x.reg ||| mask
    valid := x.valid &&& ~~~mask
    poison := x.poison &&& ~~~mask
    lost := x.lost &&& ~~~fullMask mask
    pend := dropPend x.pend mask }) (coreDie x.core) x.line

/-- A store of a core into its L1 (04 R85): performed at once when every word is registered to the core, else with a
REG. -/
def storeLine (s : State) (core line : Nat) (mask : ByteMask) (d : LineBits) (w : Who) (kind01 : Bool) : State :=
  if mask = 0#128 then s
  else
    let r := l1Take s core line w.uid
    let x := { r.1 with k01 := if kind01 then (w, mask) :: r.1.k01 else r.1.k01 }
    if maskSub (wordsOf mask) (wordsOf x.reg) then performLocal r.2 x mask d
    else sendSlice (addOut (l1Put r.2 { x with pend := x.pend ++ [⟨mask, mask, d⟩] }) w 1) core line (.reg mask w) w.uid

/-- The cache effect of an acquire by a core at a scope (04 R91), with the fills that it overtakes (R95). -/
def acquireAt (s : State) (core scope : Nat) : State :=
  if scope < 2 then s
  else
    let s := s.modM (fun m => { m with
      l1 := (m.l1.map (fun x => if x.core = core then { x with valid := 0 } else x)).filter L1Line.used
      fills := m.fills.map (fun f => if f.core = core then { f with overtaken := true } else f) })
    s.modCore core (fun c => { c with
      visFence := if 4 ≤ scope then s.stamp else c.visFence
      hostFence := if scope = 6 then s.stamp else c.hostFence })

/-- The effect of a range invalidate on one line for a core (04 R94, R95). -/
def invalidateLine (s : State) (core line : Nat) : State :=
  let s := match l1Find s core line with
    | some x => l1Put s { x with valid := 0 }
    | none => s
  let s := overtake (dropVisitor s (coreDie core) line) core line
  s.modM (fun m => { m with hostLines := m.hostLines.filter (fun h => h.line ≠ line) })

/-! ## The home slice -/

/-- The bytes that a request concerns: of a read the whole line, since its reply carries the line, so a core to which any word of
the line is registered is asked for it (04 R88; log entry 130). -/
def Req.mask (r : Req) : ByteMask :=
  match r with
  | .reg m _ => m
  | .read .. => ~~~0#128
  | .wb m _ _ _ => m
  | .data _ m _ _ => m
  | .atom op _ => maskRange (op.addr % 128) op.size
  | .engine m _ => m

/-- A request that only reads. -/
def Req.reads (r : Req) : Bool :=
  match r with
  | .read .. => true
  | .engine _ write => !write
  | .reg .. => false
  | .wb .. => false
  | .data .. => false
  | .atom .. => false

/-- The operation of a home atomic (13 R286) or home store (05 R124, op 9): the new element and its flags; none when
nothing is written. Codes: 0 add, 1 min, 2 max, 3 and, 4 or, 5 xor, 6 xchg, 7 cas, 8 fadd, 9 store. -/
def atomicNew (op : HomeOp) (old : Nat) : Option Nat × FFlags :=
  let w := typeBits op.type
  let x := op.x.toNat % 2 ^ w
  let less (a b : Nat) : Bool := decide (intVal op.type a < intVal op.type b)
  match op.op with
  | 0 => (some ((old + x) % 2 ^ w), 0)
  | 1 => (some (if less x old then x else old), 0)
  | 2 => (some (if less old x then x else old), 0)
  | 3 => (some (old &&& x), 0)
  | 4 => (some (old ||| x), 0)
  | 5 => (some (old ^^^ x), 0)
  | 6 => (some x, 0)
  | 7 => (if old = x then some (op.y.toNat % 2 ^ w) else none, 0)
  | 8 => let r := fAdd (fmtOf op.type) op.rnd old x; (some r.1, r.2)
  | _ => (some op.x.toNat, 0)

/-- The blocks of a group that a mask touches are written (07 R159), without a change of a byte: by a granted REG, or an
atomic at home. -/
def markWritten (s : State) (line : Nat) (mask : ByteMask) : State :=
  match windowAt s (line * 128) with
  | some (_, w) =>
    if w.kind = 0 then
      match findGroup s (w.groupBase (line * 128)) with
      | some g =>
        let off := line * 128 - g.base
        let bb := w.geom.n * w.e
        let js := (List.range (w.groupBytes / bb)).filter (fun j =>
          (List.range 128).any (fun i => mask.getLsbD i && (off + i) / bb == j) && !g.written.contains j)
        setGroup s { g with written := g.written ++ js }
      | none => s
    else s
  | none => s

/-- A whole element stored over a poisoned one clears its mark (07 R161), at the REG that registers it. -/
def clearElems (s : State) (line : Nat) (mask : ByteMask) : State :=
  match windowAt s (line * 128) with
  | some (_, w) =>
    if w.kind = 0 then
      match findGroup s (w.groupBase (line * 128)) with
      | some g =>
        let off := line * 128 - g.base
        let whole := ((List.range 128).filter (fun i => i % w.e = 0 ∧ maskSub (maskRange i w.e) mask)).map (off + ·)
        setGroup s { g with poison := g.poison.filter (fun o => !whole.contains o) }
      | none => s
    else s
  | none => s

/-- The slice's copy of a host line that may serve a read whose older copies are excluded up to a stamp (04 R91): it is
filled again where it is absent or too old, or where one of KIND 0b01 is to serve a page of KIND 0b00, which the bridge keeps
coherent (05 R126). A line that its slice does not hold has no copy (03 R71). -/
def freshHostLine (s : State) (line fence : Nat) (k01 : Bool) : State :=
  match regionOf s (line * 128) with
  | .host =>
    if !inSlice s line then s.modM (fun m => { m with hostLines := m.hostLines.filter (fun h => h.line ≠ line) })
    else if s.m.hostLines.any (fun h => h.line == line && decide (fence < h.data.filled) && (k01 || !h.k01)) then
      s.modM (fun m => { m with hostLines := m.hostLines.map (fun h => if h.line = line then { h with k01 := h.k01 && k01 } else h) })
    else s.modM (fun m => { m with
      hostLines := ⟨line, ⟨hostLineNow s line, 0, 0, s.stamp, s.stamp⟩, k01⟩ :: (m.hostLines.filter (fun h => h.line ≠ line)) })
  | .hbm | .tier2 _ | .decoded | .device | .hole => s

/-- A read reply (04 R88): the home's bytes, what other registrants answered, and the reader's registered bytes. -/
def replyLine (s : State) (lw : LineWait) : LineData :=
  let d := (supplied s lw.core lw.line).over ((Leaving.mk lw.accMask lw.acc lw.clean).over (homeLine s lw.line))
  if removedAt s (lw.line * 128) then { d with poison := ~~~0#128 } else d

/-- The first poisoned byte of an element, else the first lost one: whether it is lost, and its place (03 R81; 04 R99). -/
def badByte (d : LineData) (off n : Nat) : Option (Bool × Nat) :=
  (((List.range n).find? (fun k => d.poison.getLsbD (off + k))).map (fun k => (false, k))).or
    (((List.range n).find? (fun k => d.lost.getLsbD (off + k))).map (fun k => (true, k)))

/-- A request whose DATA answers have all come is served (04 R85, R88, R102). -/
def finishReq (s : State) (lw : LineWait) : State :=
  let line := lw.line
  match lw.req with
  | .reg mask w =>
    let s := register s lw.core line (partOfCore s lw.core) mask
    let s := clearElems (markWritten s line mask) line mask
    let s := dropVisitor s (coreDie lw.core) line
    let s := s.modM (fun m => { m with lost := m.lost.filter (fun x =>
      !(x / 32 == line && (fullMask mask).getLsbD (4 * (x % 32)))) })
    sendCore s lw.core line (.grant mask w)
  | .read id _ =>
    let f := s.m.fills.find? (fun f => f.id == id)
    let s := freshHostLine s line (max ((f.map (·.fence)).getD 0) (s.d.core lw.core).hostFence) ((f.map (·.kind01)).getD false)
    sendCore s lw.core line (.fill id (replyLine s lw))
  | .atom op w =>
    let off := op.addr % 128
    let mask := maskRange off op.size
    let h := homeLine s line
    match if op.op = 9 then none else badByte h off op.size with
    | some f => sendCore s lw.core line (.atomBad w op.lane f.1 f.2)
    | none =>
      let old := ofBytes (lineBytes h.bytes off op.size)
      let r := atomicNew op old
      let s := dropVisitor (match r.1 with
        | some v => homeWrite s line mask (bytesAsLine off (toBytes op.size v)) (fullMask mask) []
        | none => markWritten s line mask) (coreDie lw.core) line
      sendCore s lw.core line (.atomDone w op.lane (BitVec.ofNat 64 old) r.2)
  | .wb .. => s
  | .data .. => s
  | .engine .. => s

/-- A home slice takes a request of a line that is not busy: recalls or forwards first (04 R84, R85, R88, R100). -/
def takeReq (s : State) (core line : Nat) (r : Req) (by_ : Nat) : State :=
  let ws := wordsOf r.mask
  let isRead := r.reads
  let isAtom := match r with | .atom .. => true | _ => false
  let regs := (firnOf s line).filter (fun e => (isAtom || e.core != core) && wordsOf e.mask &&& ws != 0#128)
  let hs := halvesOf line r.mask
  let ms := hs.filter (fun h => halfState s h == 2)
  let s := if isRead then s else dropShared s hs
  let lw : LineWait := ⟨line, core, r, by_, regs.map (·.core), ms, 0, 0, 0⟩
  if regs.isEmpty ∧ ms.isEmpty then finishReq s lw
  else
    let s := regs.foldl (fun acc e => sendCore acc e.core line
      (if isRead then .fwd (wordsOf e.mask) else .recall (wordsOf e.mask &&& ws))) s
    s.modM (fun m => { m with lineWaits := m.lineWaits ++ [lw] })

/-- Serves a line's waiting request once nothing is missing. -/
def tryFinish (s : State) (line : Nat) : State :=
  match s.m.lineWaits.find? (fun w => w.line == line) with
  | some w =>
    if w.need.isEmpty ∧ w.halves.isEmpty then
      finishReq (s.modM (fun m => { m with lineWaits := m.lineWaits.filter (fun x => x.line ≠ line) })) w
    else s
  | none => s

end Sys2Proof.Machine
end

