-- ==== Sys2Proof/Machine/Translate.lean ====
section
/-! DEFINITION. Virtual addresses, page walks, segments, translations held by the dies, and the checks on a translated
access (02 R33 to R46, R51, R55). -/

namespace Sys2Proof.Machine

/-- Trap causes (16 R341). -/
def cILLEGAL : Nat := 1
def cPRIV : Nat := 2
def cPAGE : Nat := 3
def cPROT : Nat := 4
def cALIGN : Nat := 5
def cBOUNDS : Nat := 6
def cFLOE : Nat := 7
def cOWNERLOST : Nat := 8
def cENGINE : Nat := 9
def cPOISON : Nat := 10
def cWATCH : Nat := 11
def cBREAK : Nat := 12
def cSCOPE : Nat := 13
def cHOSTATOMIC : Nat := 14

/-- Access kinds of a walk (02 R35). -/
def accRead : Nat := 0
def accWrite : Nat := 1
def accFetch : Nat := 2

/-- Bits 63 to 57 all equal bit 56 (02 R29). -/
def canonical (va : Nat) : Bool := bits va 63 56 == 0 || bits va 63 56 == 255

/-- A remote physical address is kept as `2^45 * (module + 1) + local` (02 R29, R30). -/
def isRemote (pa : Nat) : Bool := decide (2 ^ 45 ≤ pa)

/-- A module is reachable through the route tables (18 R375). -/
def reachable (s : State) (md : Nat) : Bool :=
  let own := s.d.mgmt.modid
  let e := if md / 128 = own / 128 then spGet 0 s.d.mgmt.routelo (md % 128) else spGet 0 s.d.mgmt.routehi (md / 128)
  e.testBit 15

/-- The port that leads to another module has a peer that no longer answers (18 R375). -/
def peerDown (s : State) (pa : Nat) : Bool :=
  let md := pa / 2 ^ 45 - 1
  let own := s.d.mgmt.modid
  let e := if md / 128 = own / 128 then spGet 0 s.d.mgmt.routelo (md % 128) else spGet 0 s.d.mgmt.routehi (md / 128)
  isRemote pa && s.d.peersDown.contains (e % 16)

/-- An address lies in the save area of some partition (16 R350). -/
def inSaveArea (s : State) (pa : Nat) : Bool :=
  s.d.parts.any (fun p => inRange pa (p.saveBase * 2 ^ 21) (p.saveLen * 2 ^ 21))

/-- Segments (02 R37): where a partition-physical address leads, with the segment's permissions SR, SW and SX, or the detail
of PROT. A remote module number passes unchanged. -/
def segmentOf (s : State) (part gpa : Nat) : Except Nat (Nat × Bool × Bool × Bool) :=
  let md := gpa / 2 ^ 45
  let loc := gpa % 2 ^ 45
  let p := s.d.part part
  if md ≠ s.d.mgmt.modid then
    if reachable s md then .ok (2 ^ 45 * (md + 1) + loc, true, true, true) else .error 6
  else if p.segen then
    match p.segs.find? (fun g => decide (g.len ≠ 0 ∧ g.base ≤ loc / 2 ^ 21 ∧ loc / 2 ^ 21 < g.base + g.len)) with
    | some g => .ok (loc - g.base * 2 ^ 21 + g.target * 2 ^ 21, g.sr, g.sw, g.sx)
    | none => .error 8
  else .ok (loc, true, true, true)

/-- A local address is a hole (02 R31, R51): unpopulated, reserved, or in the alias region outside every window. -/
def isHole (s : State) (pa : Nat) : Bool :=
  match regionOf s pa with
  | .hole => true
  | .decoded => (windowAt s pa).isNone
  | .hbm | .tier2 _ | .host | .device => false

/-- What stage 2 refuses of its result (02 R37): a save area, a hole or reserved region. -/
def resultFault (s : State) (pa : Nat) : Option Nat :=
  if isRemote pa then none
  else if inSaveArea s pa then some 8
  else if isHole s pa then some 6
  else none

/-- A segment permits an access. -/
def permits (acc : Nat) (r : Nat × Bool × Bool × Bool) : Bool :=
  if acc = accWrite then r.2.2.1 else if acc = accFetch then r.2.2.2 else r.2.1

/-- Stage 2 (02 R37): the address and the permissions, or the detail of PROT. The checks are made in the order in which
02 R37 lists them (log entry 93, DEDUCED: the rule states no order). -/
def stage2 (s : State) (part gpa acc : Nat) : Except Nat (Nat × Bool × Bool × Bool) :=
  match segmentOf s part gpa with
  | .error d => .error d
  | .ok r =>
    if !permits acc r then .error 8
    else match resultFault s r.1 with
      | some d => .error d
      | none => .ok r

/-- An entry of 02 R34 is malformed at a level. -/
def pteBad (e level : Nat) : Bool :=
  let kind := bits e 10 9
  let leaf := level == 0 || e.testBit 4
  kind == 3 || e.testBit 11 ||
  (level == 0 && !e.testBit 4) || (decide (3 ≤ level) && e.testBit 4) ||
  (level != 0 && e.testBit 5) ||
  (leaf && level == 1 && bits e 20 12 != 0) || (leaf && level == 2 && bits e 29 12 != 0) ||
  (level == 0 && e.testBit 5 && bits e 15 12 != 0)

/-- What the levels of a walk give: a fault, the leaf, or a line that is not ready at its home. -/
inductive WalkEnd where
  | fault (code detail : Nat)
  | leaf (level pteAddr : Nat) (e : Nat)
  | wait (line : Nat) (mask : ByteMask)
deriving DecidableEq, Repr

/-- The levels of a walk from `level` down (02 R35, R45), each entry read at its home with its current value, for the tokens
of the transfers that this takes (03 R74). Where stage 2 leads to a block of device registers, the entry reads as 0 (log entry
124, DESIGN CHOICE: 02 R35 does not say what a walk obtains there). An entry with a poisoned or a lost byte ends the walk with
POISON or OWNERLOST at the access (log entry 125, DESIGN CHOICE: 03 R81 and 04 R99 speak of the bytes of a load). -/
def walkLevels (part va : Nat) : Nat → Nat → Nat → State → WalkEnd × State
  | 0, _, _, s => (.fault cPROT 5, s)
  | fuel + 1, level, t, s =>
    let a := t + 8 * bits va (12 + 9 * level + 8) (12 + 9 * level)
    let line := a / 128
    let mask := maskRange (a % 128) 8
    if !spanReady s a 8 part then (.wait line mask, s)
    else
      let p := prepay s (homeSlice s line) line part 0 (missTokens s line part + holders s line mask)
      if !p.1 then (.wait line mask, p.2) else
      let s := l2Access p.2 line part 0 true
      let bs := curBytes s a 8
      let e := ofBytes (bs.map (·.1))
      if bs.any (·.2.1) then (.fault cPOISON 0, s)
      else if bs.any (·.2.2) then (.fault cOWNERLOST 0, s)
      else if e % 2 = 0 then (.fault cPAGE 1, s)
      else if pteBad e level then (.fault cPROT 5, s)
      else if level = 0 ∨ e.testBit 4 then (.leaf level a e, s)
      else if e / 2 ^ 45 ≠ s.d.mgmt.modid then (.fault cPROT 5, s)
      else match stage2 s part (e / 4096 * 4096) accRead with
        | .error d => (.fault cPROT d, s)
        | .ok r => walkLevels part va fuel (level - 1) r.1 s

/-- A walk down to the leaf (02 R35). A PTROOT that names another module gives PROT, detail 5, as a table pointer that does
(02 R34; log entry 94, DESIGN CHOICE: 02 R30 says only that PTROOT names local memory). -/
def walk (s : State) (part va ptroot : Nat) : WalkEnd × State :=
  if ptroot / 2 ^ 45 ≠ s.d.mgmt.modid then (.fault cPROT 5, s)
  else match stage2 s part (ptroot / 4096 * 4096) accRead with
    | .error d => (.fault cPROT d, s)
    | .ok r => walkLevels part va 5 4 r.1 s

/-- Page size in bytes of a leaf (02 R33). -/
def leafSize (level e : Nat) : Nat :=
  match level with
  | 0 => if e.testBit 5 then 2 ^ 16 else 2 ^ 12
  | 1 => 2 ^ 21
  | _ => 2 ^ 30

/-- The frame of the 4 KiB page `vpage` under a leaf. An entry with C translates as a 64 KiB page from itself, one of
the outcomes 02 R36 allows when a group disagrees (log entry 26). -/
def leafFrame (level e vpage : Nat) : Nat :=
  match level with
  | 0 => if e.testBit 5 then e / 2 ^ 16 * 2 ^ 16 + vpage % 16 * 4096 else e / 4096 * 4096
  | 1 => e / 2 ^ 21 * 2 ^ 21 + vpage % 512 * 4096
  | _ => e / 2 ^ 30 * 2 ^ 30 + vpage % (512 * 512) * 4096

/-- What a leaf denies an access (02 R35): the detail of PROT. -/
def leafDenies (e acc : Nat) (user : Bool) : Option Nat :=
  if acc = accWrite ∧ ¬ e.testBit 1 then some 2
  else if acc = accFetch ∧ ¬ e.testBit 2 then some 3
  else if user ∧ ¬ e.testBit 3 then some 4
  else none

/-- Where a leaf's frame leads before stage 2 refuses it: another module's stays one (02 R37). -/
def leafPlace (s : State) (part frame : Nat) : Nat :=
  match segmentOf s part frame with
  | .ok r => r.1
  | .error _ => if frame / 2 ^ 45 = s.d.mgmt.modid then 0 else 2 ^ 45 * (frame / 2 ^ 45 + 1) + frame % 2 ^ 45

/-- The fault of one waiting miss at the leaf of its walk (02 R35, R46): the leaf's own bits, then stage 2 of the frame. -/
def askFault (s : State) (part frame e : Nat) (q : WalkAsk) : Option WalkFault :=
  let leaf : Option (Nat × Nat) := some (leafPlace s part frame, bits e 10 9)
  match leafDenies e q.acc q.user with
  | some d => some ⟨cPROT, d, leaf⟩
  | none => match stage2 s part frame q.acc with
    | .error d => some ⟨cPROT, d, leaf⟩
    | .ok _ => none

/-- A walk ends with the answers of its misses: those that faulted stay until they are reported. -/
def walkAnswers (s : State) (q : WalkReq) (f : WalkAsk → Option WalkFault) : State :=
  let asks := (q.asks.map (fun a => { a with result := f a })).filter (fun a => a.result.isSome)
  s.modM (fun m => { m with
    walks := (if asks.isEmpty then m.walks.erase q
      else m.walks.map (fun y => if y = q then { q with asks := asks, done := true } else y)) })

/-- A walk performed for a 4 KiB page, once for every miss of it (02 R45): A and D set (02 R34, R35), stage 2 of the final
address, and the translation installed; or the faults. A walk whose entries are not ready at their homes waits. -/
def performWalk (s : State) (q : WalkReq) : State :=
  let va := q.vpage * 4096
  match walk s q.part va q.ptroot.toNat with
  | (.wait line mask, s) => lineAsk s line mask false (2 * q.part)
  | (.fault c d, s) => walkAnswers s q (fun _ => some ⟨c, d, none⟩)
  | (.leaf level a e, s) =>
    let passed := q.asks.filter (fun k => (leafDenies e k.acc k.user).isNone)
    let e' := (e ||| (if passed.isEmpty then 0 else 0x40)) ||| (if passed.any (fun k => k.acc == accWrite) then 0x80 else 0)
    let s := if e' = e then s else engineWrite s a (toBytes 8 e')
    let frame := leafFrame level e q.vpage
    let size := leafSize level e
    let good := q.asks.any (fun k => (askFault s q.part frame e k).isNone)
    let s := match good, segmentOf s q.part frame with
      | true, .ok r =>
        let ent : TlbEntry := ⟨q.die, q.part, q.asid, q.vpage, va / size * size, size, r.1, bits e 10 9,
          e.testBit 8, e.testBit 3, e.testBit 2, e.testBit 1, e'.testBit 7, r.2.1, r.2.2.1, r.2.2.2⟩
        s.modM (fun m => { m with tlb := ent :: (m.tlb.filter (fun x =>
          !(x.die == q.die && x.part == q.part && x.asid == q.asid && x.vpage == q.vpage))) })
      | _, _ => s
    walkAnswers s q (askFault s q.part frame e)

/-- The address translated by a die, or what it meets. -/
inductive Tr where
  | ok (pa kind : Nat)
  | fault (f : WalkFault)
  | miss
deriving DecidableEq, Repr

/-- Whose tables an access uses, and who makes it. -/
structure Mmu where
  die : Nat
  part : Nat
  asid : Nat
  ptroot : Word
  isGrove : Bool
  who : Who
deriving DecidableEq, Repr

/-- The MMU view of a stand's agent (02 R38, R41). -/
def Stand.mmu (st : Stand) (isGrove : Bool) (slot : Nat) : Mmu :=
  ⟨coreDie st.core, st.part, st.asid, st.ptroot, isGrove, ⟨st.uid, slot⟩⟩

/-- A finished walk's fault for an agent's miss. -/
def walkResult (s : State) (u : Mmu) (vpage acc : Nat) : Option WalkFault :=
  (s.m.walks.filter (fun q => q.done && q.die == u.die && q.part == u.part && q.asid == u.asid && q.vpage == vpage)).findSome?
    (fun q => q.asks.findSome? (fun a => if a.who = u.who ∧ a.acc = acc ∧ a.user = u.isGrove then a.result else none))

/-- One lookup of a 4 KiB page (02 R41): the fault that a walk found for it, a held translation, or a miss. A first write
through a translation whose D is clear is a miss (02 R34). A translation with G = 1 serves every ASID of its partition (log
entry 95, DESIGN CHOICE: 02 R34 says only that it is not removed by the invalidation of one ASID). -/
def lookup (s : State) (u : Mmu) (va acc : Nat) : Tr :=
  if !canonical va then .fault ⟨cPROT, 1, none⟩
  else
    let vpage := va / 4096
    match walkResult s u vpage acc with
    | some f => .fault f
    | none =>
      match s.m.tlb.find? (fun x => x.die == u.die && x.part == u.part && (x.asid == u.asid || x.g) && x.vpage == vpage) with
      | none => .miss
      | some x =>
        let deny (d : Nat) : Tr := .fault ⟨cPROT, d, some (x.pa, x.kind)⟩
        if acc = accWrite ∧ !x.w then deny 2
        else if acc = accFetch ∧ !x.x then deny 3
        else if u.isGrove ∧ !x.u then deny 4
        else if !permits acc (x.pa, x.sr, x.sw, x.sx) then deny 8
        else if acc = accWrite ∧ !x.d then .miss
        else .ok (x.pa + va % 4096) x.kind

/-- Queues a miss; misses of one page of one ASID merge into one walk (02 R45). -/
def queueWalk (s : State) (u : Mmu) (va acc : Nat) : State :=
  let a : WalkAsk := ⟨u.who, acc, u.isGrove, none⟩
  let same (q : WalkReq) : Bool :=
    !q.done && q.die == u.die && q.part == u.part && q.asid == u.asid && q.vpage == va / 4096
  s.modM (fun m => { m with
    walks := (if m.walks.any same then
        m.walks.map (fun q => if same q then { q with asks := if q.asks.contains a then q.asks else q.asks ++ [a] } else q)
      else m.walks ++ [⟨u.die, u.part, u.asid, va / 4096, u.ptroot, [a], false⟩]) })

/-- An agent's access has ended: nothing waits for its walks, and faults that they found are not used again (02 R40,
R44). -/
def dropAsks (s : State) (w : Who) : State :=
  s.modM (fun m => { m with walks := (m.walks.map (fun q =>
    { q with asks := q.asks.filter (fun a => a.who ≠ w) })).filter (fun q => !q.asks.isEmpty) })

/-- What is being done at a translated address, for the checks of 13 R278. -/
inductive Use where
  | load | store | atomic | fetch
deriving DecidableEq, Repr

/-- The conditions on a translated run of bytes inside one page, in the order in which an access reports them (02 R46, R51,
R55; 13 R278): 0 ALIGN 1, 1 PROT 9, 2 PROT 7 of an atomic or an i4x store, 3 stage 2 of the address as it stands, 4 PROT 5,
5 PROT 7 of a window. Cause, detail and offset of the first faulting byte. `whole` says that the access is this run alone.
A KIND 0b10 page on another module gives PROT 5; a page of another KIND on another module's device registers is not refused
here (log entry 96, DESIGN CHOICE: 02 R55 leaves remote device registers open). -/
def pieceFault (s : State) (part : Nat) (use : Use) (whole : Bool) (pa len kind : Nat) (cond : Nat) :
    Option (Nat × Nat × Nat) :=
  let w : Option Window := if isRemote pa || kind = 2 then none else (windowAt s pa).map (·.2)
  let device := !isRemote pa && regionOf s pa == .device
  match cond with
  | 0 =>
    if kind = 2 then
      if whole && ((len == 4 && pa % 4 == 0) || (len == 8 && pa % 8 == 0)) then none else some (cALIGN, 1, 0)
    else (w.filter (fun w => pa % w.e ≠ 0 ∨ len % w.e ≠ 0 ∨ (use = .atomic ∧ w.kind = 0 ∧ len ≠ w.e))).map
      (fun _ => (cALIGN, 1, 0))
  | 1 => if kind = 2 ∧ use = .atomic then some (cPROT, 9, 0) else none
  | 2 => (w.filter (fun w => (use = .atomic ∧ w.kind ≠ 0) ∨ (use = .store ∧ w.kind = 1))).map (fun _ => (cPROT, 7, 0))
  | 3 => (resultFault s pa).map (fun d => (cPROT, d, 0))
  | 4 => if (kind == 2) != device then some (cPROT, 5, 0) else none
  | _ =>
    if isRemote pa || kind = 2 then none
    else match w with
      | some w => if w.busy ∨ w.part ≠ part then some (cPROT, 7, 0) else none
      | none => ((List.range len).find? (fun i => inCoded s (pa + i))).map (fun i => (cPROT, 7, i))

/-- The first condition that a translated run meets. -/
def pieceCheck (s : State) (part pa len kind : Nat) (use : Use) (whole : Bool) : Option (Nat × Nat × Nat) :=
  (List.range 6).findSome? (pieceFault s part use whole pa len kind)

/-- The runs of an access, one per 4 KiB page: address and length. -/
def pageRuns : Nat → Nat → Nat → List (Nat × Nat)
  | 0, _, _ => []
  | fuel + 1, va, len =>
    if len = 0 then []
    else
      let room := 4096 - va % 4096
      let n := min room len
      (va, n) :: pageRuns fuel ((va + n) % 2 ^ 64) (len - n)

/-- Outcome of translating one lane's access: its physical runs, its fault, or the pages still to be walked. -/
inductive LaneTr where
  | ok (segs : List Seg)
  | fault (code detail addr : Nat)
  | miss (vas : List Nat)
deriving DecidableEq, Repr

/-- The place of a walk's fault in the order of 02 R46: the walk's levels, the leaf's bits, then stage 2 of the frame. -/
def walkRank (f : WalkFault) : Nat :=
  if f.code ≠ cPROT then 1
  else match f.detail with
    | 1 => 0
    | 2 => 2
    | 3 => 3
    | 4 => 4
    | 5 => 1
    | _ => if f.leaf.isSome then 5 else 1

/-- The fault of a lane whose pages have all been looked up (02 R46; 13 R278): the first condition in order, at the first
page that meets it, whether a walk found it or a held translation shows it (log entry 98, DEDUCED: the address reported is the first byte that meets the condition reported). -/
def laneFault (s : State) (part : Nat) (use : Use) (rs : List ((Nat × Nat) × Tr)) : Option (Nat × Nat × Nat) :=
  let whole := rs.length == 1
  let piece (cond : Nat) : Option (Nat × Nat × Nat) := rs.findSome? (fun r =>
    let at_ : Option (Nat × Nat) := match r.2 with
      | .ok pa kind => some (pa, kind)
      | .fault f => if cond < 3 then f.leaf.map (fun l => (l.1 + r.1.1 % 4096, l.2)) else none
      | .miss => none
    at_.bind (fun l => (pieceFault s part use whole l.1 r.1.2 l.2 cond).map (fun f => (f.1, f.2.1, r.1.1 + f.2.2))))
  let walked (k : Nat) (r : (Nat × Nat) × Tr) : Option (Nat × Nat × Nat) := match r.2 with
    | .fault f => if walkRank f = k then some (f.code, f.detail, r.1.1) else none
    | .ok pa kind => if k = 5 then (pieceFault s part use whole pa r.1.2 kind 3).map (fun f => (f.1, f.2.1, r.1.1 + f.2.2)) else none
    | .miss => none
  ((List.range 3).findSome? piece).or (((List.range 6).findSome? (fun k => rs.findSome? (walked k))).or
    ([4, 5].findSome? piece))

/-- Translates an access to some runs of consecutive addresses (02 R41, R42, R46). -/
def translateRuns (s : State) (u : Mmu) (rs : List (Nat × Nat)) (acc : Nat) (use : Use) : LaneTr :=
  let runs := (rs.flatMap (fun r => pageRuns (r.2 / 4096 + 2) r.1 r.2)).map (fun r => (r, lookup s u r.1 acc))
  let missing := (runs.filter (fun r => r.2 == .miss)).map (·.1.1)
  if !missing.isEmpty then .miss missing
  else match laneFault s u.part use runs with
    | some (c, d, a) => .fault c d a
    | none => .ok (runs.filterMap (fun r => match r.2 with
      | .ok pa kind => some ⟨pa, r.1.2, kind⟩
      | .fault _ => none
      | .miss => none))

/-- Translates an access to consecutive addresses. -/
def translateRun (s : State) (u : Mmu) (va len acc : Nat) (use : Use) : LaneTr := translateRuns s u [(va, len)] acc use

end Sys2Proof.Machine
end

