-- ==== Sys2Proof/Machine/Ops.lean ====
section
/-! DEFINITION. The shared operations of grove instructions: operand values and results (10 R218 to R230), the checks
before an instruction acts (10 R223), retiring and waiting, taking a trap and returning from one (16 R342 to R345), and
the abort of a fault domain (08 R186). -/

namespace Sys2Proof.Machine

/-! ## Lanes and masks -/

/-- The mask of the lanes below `n` that satisfy `f`. -/
def laneMaskOf (n : Nat) (f : Nat → Bool) : LaneMask :=
  (List.range n).foldl (fun acc l => if f l then acc ||| (1#1024 <<< l) else acc) 0#1024

/-- The lanes of a mask below `n`, rising. -/
def laneList (n : Nat) (m : LaneMask) : List Nat := (List.range n).filter (fun l => m.getLsbD l)

/-- λ of a grove. -/
def Grove.lam (g : Grove) : Nat := g.lanes.length
def Grove.allLanes (g : Grove) : LaneMask := BitVec.ofNat 1024 (2 ^ g.lanes.length - 1)

def Lane.zero : Lane := ⟨Vector.replicate 56 0, 0, 0, 0⟩
def Grove.lane (g : Grove) (l : Nat) : Lane := g.lanes.getD l Lane.zero

/-! ## MODE (10 R224) -/

def Grove.type (g : Grove) : Nat := (g.mode.extractLsb' 0 4).toNat
def Grove.rnd (g : Grove) : Nat := (g.mode.extractLsb' 4 3).toNat
def Grove.gen (g : Grove) : Bool := g.mode.getLsbD 12

/-- The lane's guard value allows it (01 R22). -/
def Grove.guardOk (g : Grove) (l : Nat) : Bool :=
  !g.mode.getLsbD 12 || ((g.lane l).p.getLsbD (g.mode.extractLsb' 8 3).toNat != g.mode.getLsbD 11)

/-- Active lanes that are not guarded off (10 R230). -/
def Grove.enabled (g : Grove) : LaneMask :=
  if g.mode.getLsbD 12 then laneMaskOf g.lam (fun l => g.active.getLsbD l && g.guardOk l) else g.active &&& g.allLanes

/-! ## Elements -/

/-- The elements of 64-bit registers under a type, lowest register first (06 R129). -/
def elems (t : Nat) (ws : List Word) : List Nat :=
  ws.flatMap (fun w => (List.range (typeCount t)).map (fun j => w.toNat / 2 ^ (j * typeBits t) % 2 ^ typeBits t))

/-- One register from its elements. -/
def packWord (t : Nat) (es : List Nat) : Word :=
  BitVec.ofNat 64 (es.foldr (fun e acc => e % 2 ^ typeBits t + 2 ^ typeBits t * acc) 0)

/-- Registers from elements, `n` registers. -/
def packElems (t : Nat) : Nat → List Nat → List Word
  | 0, _ => []
  | n + 1, es => packWord t (es.take (typeCount t)) :: packElems t n (es.drop (typeCount t))

/-- One value in every element of a register. -/
def splat (t v : Nat) : Word := packWord t (List.replicate (typeCount t) v)

/-! ## Sources and results -/

def sGet (g : Grove) (n : Nat) : Word := vget g.s n 0
def Grove.setS (g : Grove) (n : Nat) (v : Word) : Grove := { g with s := g.s.setIfInBounds n v }
def Grove.setK (g : Grove) (n : Nat) (m : LaneMask) : Grove := { g with k := g.k.setIfInBounds n (m &&& g.allLanes) }

/-- The literal of the pfx word before the instruction. -/
def Grove.lit (g : Grove) : BitVec 32 := g.pfx.getD 0

/-- `imm` widened for f64: f32 bits widened exactly, a signalling NaN made quiet (01 R20). -/
def immF64 (v : BitVec 32) : Nat := (cvtFF (fmtOf 11) (fmtOf 10) 0 false ((fmtOf 10).decode v.toNat)).1

/-- A special source as one register under a type (01 R20). -/
def special (g : Grove) (t n l : Nat) : Word :=
  match n with
  | 57 => splat t l
  | 58 => if t = 11 then BitVec.ofNat 64 (immF64 g.lit)
          else if t = 3 then g.lit.signExtend 64
          else splat t g.lit.toNat
  | 59 => packWord t (List.range (typeCount t))
  | 56 => 0
  | _ => splat t (sGet g (n - 60)).toNat

/-- A special source read whole, `imm` sign- or zero-extended (07 R164; 12 R266, R267, R270, R275; 13 R281). -/
def specialWhole (g : Grove) (immSigned : Bool) (n l : Nat) : Word :=
  match n with
  | 57 => BitVec.ofNat 64 l
  | 58 => if immSigned then g.lit.signExtend 64 else g.lit.setWidth 64
  | 59 => 0
  | 56 => 0
  | _ => sGet g (n - 60)

def Lane.reg (x : Lane) (n : Nat) : Word := vget x.v n 0

/-- `w` registers of a V source in a lane, special sources expanded under `t` (10 R230). -/
def srcRegs (g : Grove) (b : BitVec 8) (t w l : Nat) : List Word :=
  let n := opNum b
  if n < 56 then (List.range w).map (fun i => (g.lane l).reg (n + i))
  else List.replicate w (special g t n l)

/-- A source of width code 0b00 read whole. -/
def srcWhole (g : Grove) (b : BitVec 8) (immSigned : Bool) (l : Nat) : Word :=
  let n := opNum b
  if n < 56 then (g.lane l).reg n else specialWhole g immSigned n l

/-- A base operand (13 R276): a register or a scalar, whole. -/
def baseVal (g : Grove) (b : BitVec 8) (l : Nat) : Word := srcWhole g b true l

/-- Whether a base register is tainted in a lane (05 R122). -/
def baseTaint (g : Grove) (b : BitVec 8) (l : Nat) : Bool := opNum b < 56 && (g.lane l).taint.getLsbD (opNum b)

/-- A U class source (11 R243): `imm` sign-extended. -/
def uVal (g : Grove) (b : BitVec 8) : Word :=
  match opNum b with
  | 56 => 0
  | 58 => g.lit.signExtend 64
  | n => sGet g n

/-- Writes registers from `n` up with their taint bit; register 56 discards (10 R219; 05 R121). -/
def Lane.setRegs (x : Lane) (n : Nat) (ws : List Word) (tn : Bool) : Lane :=
  if 56 ≤ n then x
  else
    { x with
      v := ws.zipIdx.foldl (fun v (w, i) => v.setIfInBounds (n + i) w) x.v
      taint := (List.range ws.length).foldl (fun t i =>
        if tn then t ||| (1#56 <<< (n + i)) else t &&& ~~~(1#56 <<< (n + i))) x.taint }

/-- Any of the registers a V source names is tainted in a lane. -/
def srcTaint (g : Grove) (b : BitVec 8) (w l : Nat) : Bool :=
  opNum b < 56 && (List.range w).any (fun i => (g.lane l).taint.getLsbD (opNum b + i))

def Lane.setP (x : Lane) (n : Nat) (v : Bool) : Lane :=
  { x with p := if v then x.p ||| (1#8 <<< n) else x.p &&& ~~~(1#8 <<< n) }

def Lane.addFlags (x : Lane) (f : FFlags) : Lane := { x with flags := x.flags ||| f }

/-- Changes the lanes of a mask; the others keep everything (10 R230). -/
def Grove.mapLanes (g : Grove) (m : LaneMask) (f : Nat → Lane → Lane) : Grove :=
  { g with lanes := g.lanes.mapIdx (fun l x => if m.getLsbD l then f l x else x) }

/-! ## Retiring and waiting -/

def Prog.none : Prog := ⟨0, [], 0, 0, [], [], [], 0, [], 0, 0, 0⟩

/-- A started instruction waits for what its own accesses bring: it goes on while its stand stops (16 R344, R349). -/
def Wait.own (w : Wait) : Bool := w == .data || w == .walk

/-- The grove is inside an instruction that has started (09 R210, R211). -/
def Grove.begun (g : Grove) : Bool :=
  g.held.isSome && (g.wait.own || g.wait == .inside || g.prog != Prog.none)

/-- Address of the instruction word: behind its pfx word and literal when it has them (10 R215, R221). -/
def Grove.wordAddr (g : Grove) : Word := if g.pfx.isSome then g.pc + 8 else g.pc

/-! ## Paths (08 R173; 11 R249) -/

/-- Parked lanes of the path that runs (17 R359): they are live, so the path is not over. -/
def Grove.pathParked (g : Grove) : LaneMask :=
  match g.div with
  | [] => g.parked
  | e :: _ => g.parked &&& (if e.deferRun then e.defer else e.rest &&& ~~~e.defer)

/-- The effect of reaching the top entry's JOIN (11 R249). -/
def Grove.reachJoin (g : Grove) (e : DivEntry) (rest : List DivEntry) : Grove :=
  if !e.deferRun && e.defer &&& g.live != 0#1024 then
    { g with
      active := e.defer &&& g.live &&& ~~~g.parked
      pc := e.deferPc
      div := { e with deferRun := true, passes := 0 } :: rest }
  else { g with div := rest, active := e.rest &&& g.live &&& ~~~g.parked, pc := e.join + 4 }

/-- Paths whose lanes have all stopped being live act as having reached their JOIN (08 R173; 11 R249). -/
def Grove.endPaths : Nat → Grove → Grove
  | 0, g => g
  | fuel + 1, g =>
    if g.active = 0#1024 ∧ g.pathParked = 0#1024 then
      match g.div with
      | [] => g
      | e :: rest => Grove.endPaths fuel (g.reachJoin e rest)
    else g

/-- The settled grove after lanes have stopped being live. -/
def Grove.settle (g : Grove) : Grove := Grove.endPaths (2 * g.div.length + 1) g

/-- What follows an instruction executed again for some lanes (11 R257; 17 R360, R367): the mask to continue with takes over,
and a path without a live lane acts as at its JOIN. -/
def Grove.resumed (g : Grove) : Grove :=
  match g.redo with
  | some r => Grove.settle { g with
      active := r.resume &&& g.live &&& ~~~g.parked
      supp := if r.supp then 0 else g.supp }
  | none => g

/-- The instruction is over: PC moves, and what belonged to it is cleared. A skid instruction is counted (16 R345). -/
def Grove.retireTo (g : Grove) (pc : Word) : Grove :=
  let ended : Grove := { g with
    pc := pc
    pfx := none
    held := none
    prog := Prog.none
    wait := .none
    skidLeft := g.skidLeft - 1
    trap := if g.skidLeft = 0 then g.trap else { g.trap with skidCount := g.trap.skidCount + 1 }
    singleDone := g.single.isSome
    redo := none }
  let after := Grove.resumed { ended with redo := g.redo }
  { ended with active := after.active, pc := after.pc, div := after.div, supp := after.supp }

/-- Retires to the next word (10 R215). -/
def Grove.retire (g : Grove) : Grove := g.retireTo (g.wordAddr + 4)

/-! ## Taking a trap, and the abort of a fault domain -/

/-- CAUSE of 16 R340 for an abort: HND, PGEN and PREQ 0 (08 R186). -/
def causeWord (code detail : Nat) : Word := BitVec.ofNat 64 (code + 256 * detail)

/-- CAUSE as `csrr` reads it (16 R340). -/
def Grove.causeReg (g : Grove) (preq : Bool) : Word :=
  BitVec.ofNat 64 ((if g.trap.hnd then 2 ^ 63 else 0) + (if g.trap.pgen then 2 ^ 62 else 0) +
    (if preq then 2 ^ 61 else 0) + 256 * g.trap.detail + g.trap.code)

/-- SKID as `csrr` reads it (16 R345). -/
def Grove.skidReg (g : Grove) : Word :=
  BitVec.ofNat 64 (2 ^ 12 * g.trap.skidOrigin + 2 ^ 10 * g.trap.skidKind + g.trap.skidCount)

/-- The 32 bytes of a clearing's status area (08 R181). -/
def statusBytes (c : Clearing) : List Byte :=
  toBytes 8 (c.num * 2 ^ 32 + c.parNum * 2 ^ 16 + c.depth * 2 ^ 8 + c.state) ++ toBytes 8 c.done ++
  toBytes 8 c.fcause.toNat ++ toBytes 8 c.fpc.toNat

/-- Writes the status area to the location that the launch translated, and at the host for a KIND 0b01 block
(08 R181). -/
def writeStatus (s : State) (c : Clearing) : State :=
  let pa := c.blockPa + 0xE0
  if isRemote pa then s
  else deviceWrite s ⟨pa, statusBytes c, c.part, none⟩

/-- Replaces a clearing. -/
def setClearing (s : State) (c : Clearing) : State :=
  s.modD (fun d => { d with clearings := d.clearings.map (fun x => if x.id = c.id then c else x) })

def Clearing.isLive (c : Clearing) : Bool := c.state == 1 || c.state == 2

/-- The live clearing of a number in a partition. -/
def clearing? (s : State) (part num : Nat) : Option Clearing :=
  s.d.clearings.find? (fun c => c.part == part && c.num == num && c.isLive)

/-- Operations leave the matrix unit; the one behind moves up (14 R308). -/
def Core.leaveUnit (c : Core) (gone : Who → Bool) : Core :=
  match ([c.mxOp, c.mxNext].filterMap id).filter (fun w => !gone w) with
  | a :: rest => { c with mxOp := some a, mxNext := rest.head? }
  | [] => { c with mxOp := none, mxNext := none }

/-- Releases what a stand holds on its core: waiting pins, the matrix unit (08 R179, R186). A pin that is held goes with
the arrival of its line. -/
def releaseStand (s : State) (st : Stand) : State :=
  let s := s.modM (fun m => { m with pinQueue := m.pinQueue.filter (fun p => p.uid ≠ st.uid) })
  let s := s.modCore st.core (fun c => c.leaveUnit (fun w => w.uid == st.uid))
  { s with stands := s.stands.filter (fun x => x.uid ≠ st.uid) }

/-- The ancestors of a clearing, nearest first (08 R184). -/
def ancestors (cs : List Clearing) : Nat → Clearing → List Nat
  | 0, _ => []
  | fuel + 1, c =>
    match c.parent with
    | none => []
    | some p => p :: (match cs.find? (fun x => x.id == p) with
      | some k => ancestors cs fuel k
      | none => [])

/-- A clearing number is free again after state 3 or 4 (08 R185). The entry stays while a live descendant counts against
its budgets (R184). -/
def dropDeadClearings (s : State) : State :=
  s.modD (fun d => { d with clearings := d.clearings.filter (fun c =>
    c.isLive || d.clearings.any (fun k => k.isLive && (ancestors d.clearings 8 k).contains c.id)) })

/-- Every live clearing whose stands have all ended, with no live child, takes state 3 (08 R185), children first. -/
def finishClearings : Nat → State → State
  | 0, s => s
  | fuel + 1, s =>
    match s.d.clearings.find? (fun c => c.state == 2 && c.done == c.shape.nx * c.shape.ny * c.shape.nz &&
        !s.d.clearings.any (fun k => k.parent == some c.id && k.isLive)) with
    | none => s
    | some c =>
      let c := { c with state := 3 }
      finishClearings fuel (dropDeadClearings (writeStatus (setClearing s c) c))

def settleClearings (s : State) : State := finishClearings (s.d.clearings.length + 1) s

/-- The grove is inside an atomic of which some lane has acted: it stops only once the instruction is over (08 R186; 04
R102). -/
def Grove.midAtomic (g : Grove) : Bool := g.held.isSome && (g.prog.sent != 0#1024 || !g.prog.replies.isEmpty)

/-- A stand stops for good (08 R186): at once, or when its groves that are inside an atomic have ended it; until then it
does nothing else. -/
def stopStand (s : State) (st : Stand) : State :=
  let keep := st.groves.filter Grove.midAtomic
  if keep.isEmpty then releaseStand s st
  else s.modStand st.uid (fun st => { st with
    dying := true
    groves := keep
    bins := []
    halt := none
    dbgHalt := false
    seq := { st.seq with run := 0, ops := [] }
    copy := { st.copy with queue := [] } })

/-- The abort of 08 R186: every live clearing of the partition with the same domain takes state 4; FCAUSE and FPC are
written in the clearing whose stand aborted. -/
def abortDomain (s : State) (uid : Nat) (fcause fpc : Word) : State :=
  match s.stand? uid with
  | none => s
  | some st =>
    let hit (c : Clearing) : Bool := c.part == st.part && c.isLive && c.shape.domain == st.shape.domain
    let nums := (s.d.clearings.filter hit).map (·.num)
    let mine (x : Stand) : Bool := x.part == st.part && nums.contains x.clnum
    let ids := (s.d.clearings.filter hit).map (·.id)
    let s := (s.stands.filter mine).foldl stopStand s
    let s := s.modD (fun d => { d with
      saved := d.saved.filter (fun x => !mine x)
      batches := d.batches.filter (fun b => !ids.contains b.clearing)
      clearings := d.clearings.map (fun c => if hit c then
        { c with state := 4, remaining := [],
                 fcause := if c.num = st.clnum then fcause else c.fcause,
                 fpc := if c.num = st.clnum then fpc else c.fpc } else c) })
    let s := (s.d.clearings.filter (fun c => ids.contains c.id)).foldl (fun acc c => writeStatus acc c) s
    settleClearings (dropDeadClearings s)

/-- s30 holds a handler (16 R342). -/
def handlerOk (a : Word) : Bool := a != 0 && a.toNat % 4 == 0 && canonical a.toNat

/-- A grove runs in its stand: nothing has halted it, but for its own handler (16 R344). -/
def groveRuns (st : Stand) (g : Grove) : Bool := (st.halt.isNone || g.trap.hnd) && !st.dbgHalt && !g.dbgHalt

/-- The stand holds a trap not yet ended by `eret` (16 R342): its halt is no debugger's. -/
def Stand.holdsTrap (st : Stand) : Bool := st.halt.any (fun h => h.kind != 3)

/-- A stand halt (16 R344, R345): SKID is written in every grove; a grove that runs may retire four more
instructions, but for the one that traps or receives the trap; one that is stopping already keeps what it has left. The halt
for a trap stays one while a debugger halts the stand too. -/
def haltStand (st : Stand) (origin kind receiver : Nat) : Stand :=
  { st with
    halt := if kind = 3 ∧ st.holdsTrap then st.halt else some ⟨origin, kind⟩
    groves := st.groves.map (fun g => { g with
      trap := { g.trap with skidOrigin := receiver, skidKind := kind, skidCount := 0 }
      skidLeft := if (kind ≠ 3 ∧ g.slot = receiver) ∨ (g.wait ≠ .none ∧ !g.wait.own) then 0
        else if groveRuns st g then 4 else g.skidLeft }) }

/-- The shape of the divergence stack that a handler must leave as it found it (16 R343). -/
def divShape (g : Grove) : List Nat := g.basePasses :: g.div.map (·.passes)

/-- Trap entry of a grove, into its own handler (16 R342). -/
def enterHandler (g : Grove) (code detail : Nat) (lanes : LaneMask) (pc addr : Word) : Grove :=
  let prior := match g.redo with
    | some r => r.resume
    | none => g.active
  let g := (g.setK 6 prior).setK 7 lanes
  { g with
    divShape := divShape g
    supp := match g.redo with | some r => (if r.supp then 0 else g.supp) | none => g.supp
    watchTrap := false
    trap := { g.trap with hnd := true, pgen := g.gen, code := code, detail := detail, faultPc := pc, faultAddr := addr }
    mode := g.mode &&& 0xFFF#13
    active := g.live &&& ~~~g.parked
    lanes := g.lanes.map (fun x => { x with taint := 0 })
    pc := sGet g 30
    pfx := none
    held := none
    kept := none
    prog := Prog.none
    wait := .none
    redo := none
    skidLeft := 0 }

/-- The grove at an instruction boundary: what was under way is given up. -/
def Grove.stopped (g : Grove) : Grove := { g with pfx := none, held := none, prog := Prog.none, wait := .none }

/-- TAKING A TRAP (16 R342): the abort of a grove without a handler, or with a trap not yet ended in its stand; a
single step that faults only reports (17 R367); a skid instruction that would trap is not executed (16 R344). -/
def trapEntry (s : State) (uid : Nat) (g : Grove) (code detail : Nat) (lanes : LaneMask) (pc addr : Word) : State :=
  match s.stand? uid with
  | none => s
  | some st =>
    if s.skidding then { s with skidStop := true }
    else
      let s := dropAsks s ⟨uid, g.slot⟩
      if st.dying then s.setGrove uid g.stopped
      else if g.single.isSome then s.setGrove uid { g.stopped with stepst := code + 256 * detail, singleDone := true }
      else if !handlerOk (sGet g 30) || st.holdsTrap then
        abortDomain (s.setGrove uid g.stopped) uid (causeWord code detail) pc
      else
        let s := s.modStand uid (fun st => (haltStand (st.setGrove g) g.slot 0 g.slot).setGrove
          (enterHandler { g with trap := { g.trap with skidOrigin := g.slot, skidKind := 0, skidCount := 0 } }
            code detail lanes pc addr))
        acquireAt s st.core 6

/-- A FAULT OF THE SEQUENCER OR THE COPY CONTEXT (14 R319, 15 R336): the stand halts at once, and an ENGINE trap is
raised in grove slot 0, or in the lowest live grove when slot 0 is empty; with no live grove the stand aborts with `fpc`. When
the stand holds a trap not yet ended, or one not yet taken (16 R342), it aborts with the FAULTPC that this trap would record:
the receiver's resume address (08 R186; 16 R341). -/
def engineFault (s : State) (uid detail : Nat) (addr : Word) (okind : Nat) (fpc : Word) : State :=
  match s.stand? uid with
  | none => s
  | some st =>
    match st.groves.map (·.slot) with
    | [] => abortDomain s uid (causeWord cENGINE detail) fpc
    | a :: rest =>
      let slot := rest.foldl min a
      if st.holdsTrap then
        abortDomain s uid (causeWord cENGINE detail) (((st.grove? slot).map (·.pc)).getD fpc)
      else
        s.modStand uid (fun st =>
          let h := haltStand st slot okind slot
          { h with groves := h.groves.map (fun g =>
              if g.slot = slot then { g with pend := some ⟨cENGINE, detail, 0, addr, okind⟩ } else g) })

/-- TAKING AN ENGINE TRAP of the sequencer or the copy context: at the grove's boundary, or inside its wait, whose
waiting point is kept for the return. FAULTPC is the resume address. -/
def engineTrap (s : State) (st : Stand) (g : Grove) (p : PendTrap) : State :=
  let g := { g with pend := none }
  if !handlerOk (sGet g 30) || st.groves.any (fun h => h.trap.hnd) then
    abortDomain (s.setGrove st.uid g.stopped) st.uid (causeWord p.code p.detail) g.pc
  else
    let kept : Option Kept := g.held.map (fun i => ⟨g.pc, g.pfx, i, g.prog, g.wait⟩)
    let s := s.modStand st.uid (fun st =>
      (if st.halt.isNone then haltStand st g.slot p.okind g.slot else st).setGrove
        { enterHandler { g with trap := { g.trap with skidOrigin := g.slot, skidKind := p.okind, skidCount := 0 } }
            p.code p.detail p.lanes g.pc p.addr with kept := kept })
    acquireAt s st.core 6

/-- Puts a kept waiting point back when the grove resumes at it. -/
def Grove.resumeKept (g : Grove) : Grove :=
  match g.kept with
  | some k => if k.pc = g.pc then
      { g with kept := none, pfx := k.pfx, held := some k.instr, prog := k.prog, wait := k.wait }
    else { g with kept := none }
  | none => g

/-- At the end of a halt, or at once outside one, a context that `cpy.res` has marked goes on; the fault is over (15 R337). -/
def CopyCtx.goOn (c : CopyCtx) : CopyCtx :=
  if c.resume then
    { c with paused := false, resume := false, queue := c.queue.map (fun k => { k with faultDetail := 0 }) }
  else c

/-- RETURNING FROM A TRAP (11 R257; 16 R343): the guard and HND, the halt's end, and PC and the active mask; `replay`
executes the instruction at FAULTPC for the lanes of k7 first. A path whose lanes have all ended in the handler acts as
having reached its JOIN (11 R249). Under a debugger's halt the stand stays halted, and its groves stop as before (16 R344). -/
def trapReturn (s : State) (st : Stand) (g : Grove) (replay : Bool) : State :=
  if g.divShape ≠ divShape g then abortDomain (s.setGrove st.uid g.stopped) st.uid (causeWord cBOUNDS 10) g.pc
  else
    let k6 := vget g.k 6 0 &&& g.live &&& ~~~g.parked
    let k7 := vget g.k 7 0 &&& g.live &&& ~~~g.parked
    let g' : Grove := { g.retireTo g.trap.faultPc with
      mode := if g.trap.pgen then g.mode ||| 0x1000#13 else g.mode &&& 0xFFF#13
      trap := { g.trap with hnd := false }
      divShape := []
      active := if replay then k7 else k6
      watchTrap := false
      redo := if replay then some ⟨vget g.k 6 0, g.watchTrap, false⟩ else none }
    let g' := if replay then g' else g'.settle
    let st' := { st.setGrove g'.resumeKept with
      halt := if st.dbgHalt then some ⟨g.trap.skidOrigin, 3⟩ else none
      seq := if st.seq.run = 2 then { st.seq with run := 1 } else st.seq
      copy := st.copy.goOn }
    s.modStand st.uid (fun _ => { st' with groves := st'.groves.map (fun h =>
      { h with skidLeft := if st.dbgHalt then h.skidLeft else 0 }) })

/-! ## A grove instruction -/

/-- The grove that executes, its stand, its enabled lanes and the instruction. -/
structure Gx where
  s : State
  st : Stand
  g : Grove
  en : LaneMask
  i : Instr

/-- The grove of the state's current turn. -/
def gx? (s : State) (i : Instr) : Option Gx :=
  match s.cur with
  | none => none
  | some w =>
    match s.stand? w.uid with
    | none => none
    | some st =>
      match st.grove? w.slot with
      | none => none
      | some g => some ⟨s, st, g, g.enabled, i⟩

def Gx.put (x : Gx) (g : Grove) : State := x.s.setGrove x.st.uid g
/-- The instruction retires with the grove as given. -/
def Gx.done (x : Gx) (g : Grove) : State := x.put g.retire
/-- The instruction retires to another PC. -/
def Gx.jump (x : Gx) (g : Grove) (pc : Word) : State := x.put (g.retireTo pc)
/-- A single step of an instruction that would wait so has no effect (17 R367). -/
def Wait.endsStep (w : Wait) : Bool :=
  match w with
  | .memory | .barrier | .deposit => true
  | .none | .data | .score | .copy | .queue | .walk | .inside => false

/-- The instruction waits; a later turn tries it again from where it stands. -/
def Gx.hold (x : Gx) (w : Wait) (g : Grove) : State :=
  if x.g.single.isSome && w.endsStep then
    x.put { x.g with stepst := 0x10000, singleDone := true, pfx := none, held := none, prog := Prog.none, wait := .none }
  else x.put { g with wait := w, held := some x.i }
/-- A trap at the instruction (16 R341): FAULTPC is the word or its pfx word. -/
def Gx.trap (x : Gx) (code detail : Nat) (lanes : LaneMask) (addr : Word) : State :=
  trapEntry x.s x.st.uid x.g code detail lanes x.g.pc addr
/-- A trap that lists every active lane. -/
def Gx.trapAll (x : Gx) (code detail : Nat) (addr : Word) : State := x.trap code detail x.g.active addr
/-- Retires after its lanes are changed. -/
def Gx.lanes (x : Gx) (f : Nat → Lane → Lane) : State := x.done (x.g.mapLanes x.en f)

def stTiles (st : Stand) : Nat := st.shape.tiles

/-- The group counts of a conversion disagree (12 R264). -/
def cvtCountBad (t : Nat) (i : Instr) : Bool :=
  let bad (d a : BitVec 8) (st : Nat) (ts ss : List Nat) : Bool :=
    ts.contains t && ss.contains st && !(decide (56 ≤ opNum a) && opCode a == 0) &&
      opW d * typeCount t != opW a * typeCount st
  match i with
  | .cvtF d a s => bad d a s.toNat floatTypes (List.range 14)
  | .cvtI d a s => bad d a s.toNat intTypes [8, 9, 10, 11, 12, 13]
  | .cvt8Sat d a s => bad d a s.toNat [12, 13] [8, 9, 10, 11, 12, 13]
  | .cvt8Inf d a s => bad d a s.toNat [12, 13] [8, 9, 10, 11, 12, 13]
  | _ => false

/-- The geometry value of a codec instruction, whole (07 R164). -/
def geomVal (g : Grove) (b : BitVec 6) : Nat :=
  if b.toNat = 58 then g.lit.toNat else (sGet g (b.toNat - 60)).toNat

def geomOf (g : Grove) (b : BitVec 6) : SGeom :=
  ⟨bits (geomVal g b) 19 18, decide (g.type = 11), geomVal g b % 512⟩

/-- Detail 0x20 of a codec instruction (07 R168). -/
def geomBad (g : Grove) (i : Instr) : Bool :=
  match i with
  | .sdec _ _ b => let q := geomOf g b; !q.ok || g.lam % q.n != 0
  | .senc _ _ b => let q := geomOf g b; !q.ok || g.lam % q.n != 0
  | .serr _ _ b => !(geomOf g b).ok
  | .sblk _ _ b => let q := geomOf g b; q.d == 0 || q.q == 0
  | _ => false

/-- A register at or above BOUNDARY, or a tile outside the stand's (08 R175; 10 R219). -/
def opdBoundBad (o : Opd) (boundary tiles : Nat) : Bool :=
  match o.cls with
  | .tile => decide (tiles ≤ opNum o.byte)
  | .vsrc | .vdst | .vreg | .vsrcImm | .base => decide (opNum o.byte < 56 ∧ boundary < opNum o.byte + opW o.byte)
  | .geom | .usrc | .udst | .scalar | .pred | .mask => false

/-- Registers an operand names: first and count. -/
def opdRegs (o : Opd) : Option (Nat × Nat) :=
  match o.cls with
  | .vsrc | .vdst | .vreg | .vsrcImm | .base => if opNum o.byte < 56 then some (opNum o.byte, opW o.byte) else none
  | .tile | .geom | .usrc | .udst | .scalar | .pred | .mask => none

/-- The vector registers an instruction reads or writes, besides its operand bytes the records of `spawn` and
`rebin`. -/
def touchedRegs (st : Stand) (i : Instr) : List (Nat × Nat) :=
  i.operands.filterMap opdRegs ++
    (match i with
     | .spawn _ a _ => [(opNum a, st.shape.recw)]
     | .rebin _ _ => [(0, st.shape.recw)]
     | _ => [])

/-- Instructions that read their destination (11 R237; 12 R259, R268). -/
def readsDst (i : Instr) : Bool :=
  match i with
  | .mad .. | .fshl .. | .fshr .. | .bfi .. | .fma .. | .fnma .. | .fdot .. | .fdot8 .. | .lih .. => true
  | _ => false

/-- Operands that an instruction reads: not a destination that it only writes; the first operand of a codec instruction is
one (07 R164). -/
def readOpds (i : Instr) : List Opd :=
  match i with
  | .sdec .. | .senc .. | .serr .. | .sblk .. => i.operands.drop 1
  | _ => i.operands.filter (fun o => o.cls != .vdst || readsDst i)

/-- The vector registers an instruction reads. -/
def readRegs (st : Stand) (i : Instr) : List (Nat × Nat) :=
  (readOpds i).filterMap opdRegs ++
    (match i with
     | .spawn _ a _ => [(opNum a, st.shape.recw)]
     | .rebin _ _ => [(0, st.shape.recw)]
     | _ => [])

def rangesMeet (a b : Nat × Nat) : Bool := decide (a.1 < b.1 + b.2 ∧ b.1 < a.1 + a.2)

/-- Some outstanding `ldx` reply will write one of the registers (10 R227; 12 R269). -/
def pendingIn (g : Grove) (rs : List (Nat × Nat)) : Bool :=
  g.ldx.any (fun e => !e.scratch && opNum e.dst < 56 && !e.lanes.isEmpty &&
    rs.any (rangesMeet (opNum e.dst, opW e.dst)))

/-- Errors of `ldx` replies in registers that the instruction reads (13 R284). -/
def errorsIn (g : Grove) (rs : List (Nat × Nat)) : List LdxErr :=
  g.ldxErrs.filter (fun e => rs.any (rangesMeet (e.reg, e.width)))

/-- What the checks of 10 R223 decide. -/
inductive Chk where
  | skip
  | trap (code detail : Nat)
  | wait
  | ldxErr (errs : List LdxErr)
  | go
deriving DecidableEq, Repr

/-- Details 0x02 to 0x07 in order (10 R222, R223). -/
def Gx.illegal (x : Gx) : Option Nat :=
  match x.i.illegalDetail with
  | some d => if d ≠ 2 ∧ cvtCountBad x.g.type x.i then some 3 else some d
  | none => if cvtCountBad x.g.type x.i then some 3 else none

/-- The checks of 10 R223 from step 3 on, for an instruction whose word decoded. -/
def Gx.check (x : Gx) : Chk :=
  if !x.i.always && x.en == 0#1024 then .skip
  else if x.i.namesImm != x.g.pfx.isSome then .trap cILLEGAL 6
  else match x.illegal with
    | some d => .trap cILLEGAL d
    | none =>
      if (match x.i.types with | some ts => !ts.contains x.g.type | none => false) then .trap cILLEGAL 0x21
      else if geomBad x.g x.i then .trap cILLEGAL 0x20
      else if x.i.operands.any (fun o => opdBoundBad o x.g.boundary (stTiles x.st)) then .trap cBOUNDS 1
      else if pendingIn x.g (touchedRegs x.st x.i) then .wait
      else if (errorsIn x.g (readRegs x.st x.i)).isEmpty then .go
      else .ldxErr (errorsIn x.g (readRegs x.st x.i))

/-- The trap of `ldx` errors at the instruction that meets them (13 R284): the lanes concerned, the first byte of the
lowest. A single step that meets them has no effect, so they stay (17 R367). -/
def Gx.ldxTrap (x : Gx) (errs : List LdxErr) : State :=
  let low := errs.foldl (fun a e => if e.lane < a.lane then e else a) (errs.headD ⟨0, 0, 0, 0, cPOISON, 0⟩)
  let g := if x.g.single.isSome then x.g else { x.g with ldxErrs := x.g.ldxErrs.filter (fun e => !errs.contains e) }
  trapEntry (x.put g) x.st.uid g low.code 0 (laneMaskOf g.lam (fun l => errs.any (fun e => e.lane == l))) g.pc low.addr

/-- A grove instruction: nothing executes it without a grove; its checks; then its own effect. -/
def groveInstr (i : Instr) (s : State) (body : Gx → State) : Out State Fault Refusal :=
  match gx? s i with
  | none => .fault .noGrove
  | some x =>
    .next (match x.check with
      | .skip => x.done x.g
      | .trap c d => x.trapAll c d 0
      | .wait => x.hold .score x.g
      | .ldxErr es => x.ldxTrap es
      | .go => body x)

end Sys2Proof.Machine
end

