-- ==== Sys2Proof/Machine/Watch.lean ====
section
/-! DEFINITION. Rime predicates: matching, counting and the actions that they fire (17 R354 to R361). -/

namespace Sys2Proof.Machine

/-- A fired action: predicate number, ACT, matching lanes. -/
structure Fired where
  num : Nat
  act : Nat
  lanes : LaneMask
deriving DecidableEq, Repr

/-- Counts one instruction's matching lanes in every predicate of the core (17 R356), and gives the action with the
largest ACT among those whose countdown is reached (R357). `hit r l` says that lane `l` matches predicate `r`. -/
def watchCount (s : State) (st : Stand) (g : Grove) (lanes : List Nat) (hit : Rime → Nat → Bool) :
    State × Option Fired :=
  if !watchOn g || !(s.d.core st.core).rime.any (fun r => r.watches st) then (s, none)
  else
    let rs := (s.d.core st.core).rime
    let ms := rs.map (fun r => if r.watches st then lanes.filter (hit r) else [])
    let rs' := (rs.zip ms).map (fun (r, m) => { r with count := min (r.count + m.length) (2 ^ 64 - 1) })
    let fired := ((List.range 16).zip (rs'.zip ms)).filterMap (fun (n, r, m) =>
      if r.act ≠ 0 ∧ m ≠ [] ∧ r.cdown ≤ r.count then
        some (⟨n, r.act, laneMaskOf g.lam (fun l => m.contains l)⟩ : Fired) else none)
    let best := fired.foldl (fun (b : Option Fired) f => match b with
      | some p => if p.act < f.act then some f else b
      | none => some f) none
    (s.modCore st.core (fun c => { c with rime := rs' }), if g.single.isSome then none else best)

/-- Parks lanes (17 R359). -/
def Grove.park (g : Grove) (m : LaneMask) : Grove :=
  { g with parked := g.parked ||| m, active := g.active &&& ~~~m }

/-! ## The trace ring (17 R369, R370) -/

/-- The offset of the next record: TRACEPTR, or behind the records that wait to be performed. -/
def tracePos (s : State) (part : Nat) : Nat :=
  ((s.m.devWrites.filter (fun w => w.part == part)).reverse.findSome? (·.ptr)).getD (s.d.part part).tracePtr

/-- A 64-byte record appended to a partition's ring; TRACEPTR, the offset of the next record, counts it once it is
performed, and is 0 again after the record that fills a ring with WRAP. A base that stage 2 refuses, or that lies on
another module, receives no record. -/
def traceRecord (s : State) (part : Nat) (dwords : List Nat) : State :=
  let p := s.d.part part
  let len := p.traceLen * 4096
  let pos := if p.traceWrap && decide (len < tracePos s part + 64) then 0 else tracePos s part
  let fills := decide (len < pos + 128)
  let next := if p.traceWrap && fills then 0 else pos + 64
  if !p.traceEn || p.traceFull || len == 0 then s
  else if len < pos + 64 then s.modPart part (fun p => { p with traceFull := true })
  else
    match stage2 s part (p.traceBase + pos) accWrite with
    | .error _ => s
    | .ok r =>
      let s := s.modPart part (fun p => { p with traceFull := !p.traceWrap && fills })
      if isRemote r.1 then s.modPart part (fun p => { p with tracePtr := next })
      else deviceWrite s ⟨r.1, dwords.flatMap (toBytes 8), part, some next⟩

/-- The first five dwords of a record of a stand. -/
def traceHead (s : State) (st : Stand) (kind slot bar : Nat) (pc : Word) : List Nat :=
  [kind * 2 ^ 60 + s.d.vf.getD (coreDie st.core) 0 * 2 ^ 56 + st.core * 2 ^ 48 + st.clnum * 2 ^ 32,
   slot * 2 ^ 60 + st.index % 2 ^ 48,
   s.d.time.getD (coreDie st.core) 0,
   bar * 2 ^ 32 + (st.barriers.getD bar ⟨0, [], false, false, []⟩).phase,
   pc.toNat]

def slotBits (l : List Nat) : Nat := (l.map (2 ^ ·)).sum

/-- The records of a debug halt: one of KIND 2, and for a stand halt one of KIND 3 for each barrier that holds an
arrival in its phase in progress; `pc` is the instruction concerned (17 R370). -/
def haltRecords (s : State) (uid slot code : Nat) (stand : Bool) (pc : Word) : State :=
  match s.stand? uid with
  | none => s
  | some st =>
    let g := (st.grove? slot).getD default
    let bar := (s.d.part st.part).traceBar
    let s := traceRecord s st.part (traceHead s st 2 slot bar pc ++ [g.skidReg.toNat, code, 0])
    if stand then
      (st.barriers.zipIdx.filter (fun x => !x.1.arrived.isEmpty || x.1.seqArrived)).foldl (fun acc x =>
        traceRecord acc st.part (traceHead acc st 3 slot x.2 pc ++
          [slotBits x.1.arrived + (if x.1.seqArrived then 2 ^ 16 else 0), 0, 0])) s
    else s

/-- A WATCH trap of a predicate of kinds 0 to 2 (17 R361): a replay ignores every predicate. -/
def markWatch (s : State) (w : Who) : State :=
  s.modStand w.uid (fun st => { st with groves := st.groves.map (fun g =>
    if g.slot = w.slot ∧ g.trap.hnd then { g with watchTrap := true } else g) })

/-- Halts a grove for a debugger (17 R358); with `stand`, the whole stand (16 R344, OKIND 3). `code` is what the halt
record says of its cause, `pc` the instruction that caused it. -/
def debugHalt (s : State) (uid : Nat) (g : Grove) (stand : Bool) (code : Nat) (pc : Word) : State :=
  let s := s.modStand uid (fun st =>
    let st := st.setGrove { g with dbgHalt := true }
    if stand then
      let h := haltStand st g.slot 3 g.slot
      { h with dbgHalt := true, groves := h.groves.map (fun x => if x.slot = g.slot then { x with skidLeft := 0 } else x) }
    else st)
  haltRecords s uid g.slot code stand pc

/-- Predicates of kind 3 count the lanes in which an instruction raises flags (17 R356, R357). -/
def Gx.flagWatch (x : Gx) (lam : Nat) (fl : Nat → FFlags) : State × Option Fired :=
  watchCount x.s x.st x.g (laneList lam x.en) (fun r l => r.kind == 3 && (fl l &&& BitVec.ofNat 5 r.a.toNat) != 0)

/-- The action of a predicate of kind 3, after the writes of the instruction at `pc` (17 R358). -/
def flagAction (s : State) (uid : Nat) (gr : Grove) (f : Fired) (pc : Word) : State :=
  match f.act with
  | 1 => s.setGrove uid (gr.park f.lanes)
  | 2 => trapEntry (s.setGrove uid gr) uid gr cWATCH f.num f.lanes gr.pc 0
  | 3 => debugHalt s uid { gr with supp := 0 } false f.num pc
  | _ => debugHalt s uid { gr with supp := 0 } true f.num pc

/-- Retires an instruction that raised floating-point flags in lanes: FPFLAGS takes them (06 R135), and predicates of
kind 3 count and act after its writes (17 R358). -/
def Gx.finishFlags (x : Gx) (g : Grove) (fl : Nat → FFlags) : State :=
  let g := { g with fpflags := (laneList g.lam x.en).foldl (fun a l => a ||| fl l) g.fpflags }
  let w := x.flagWatch g.lam fl
  match w.2 with
  | none => w.1.setGrove x.st.uid g.retire
  | some f => flagAction w.1 x.st.uid g.retire f x.g.pc

/-- Lane results with flags: every enabled lane takes its result and its flags. -/
def Gx.lanesFlags (x : Gx) (f : Nat → Lane → Lane) (fl : Nat → FFlags) : State :=
  x.finishFlags (x.g.mapLanes x.en (fun l ln => (f l ln).addFlags (fl l))) fl

end Sys2Proof.Machine
end

