-- ==== Sys2Proof/Machine/Stands.lean ====
section
/-! DEFINITION. The life of groves and stands: starting a grove (08 R171, R191), lanes that stop being live (R170,
R173), barriers (R178), the end of a grove and of a stand (R178, R179), collective copies that become complete in their
slices (15 R321), and clearings (R185). -/

namespace Sys2Proof.Machine

/-! ## Starting a grove -/

def TrapRegs.zero : TrapRegs := ⟨false, false, 0, 0, 0, 0, 0, 0, 0⟩

/-- A lane at the start of its grove (08 R171); `rec` fills v0 up (R191). -/
def Lane.start (record : List Word) : Lane :=
  { Lane.zero with v := Vector.ofFn (fun i : Fin 56 => record.getD i 0) }

/-- A grove at its start (08 R171, R191, 09 R205): `recs` holds the records of the live lanes of a grove from a bin. -/
def Grove.start (slot lam m : Nat) (pc : Word) (live : LaneMask) (args : List Word) (tag count : Word)
    (recs : List (List Word)) : Grove where
  slot := slot
  pc := pc
  active := live
  live := live
  s := Vector.ofFn (fun i : Fin 32 => if i.val < 4 then args.getD i 0 else if i.val = 4 then tag else if i.val = 5 then count else 0)
  k := Vector.replicate 8 0
  ac := Vector.replicate 16 0
  mode := 7
  boundary := m
  div := []
  basePasses := 0
  fpflags := 0
  phase := 0
  pfx := none
  held := none
  trap := TrapRegs.zero
  parked := 0
  supp := 0
  stepst := 0
  dbgHalt := false
  single := none
  singleDone := false
  redo := none
  divShape := []
  barLast := List.replicate 16 none
  ldx := []
  ldxErrs := []
  prog := Prog.none
  wait := .none
  age := 0
  outStores := 0
  outWbs := 0
  openCopies := []
  batches := []
  pend := none
  kept := none
  skidLeft := 0
  taintFence := 0
  watchTrap := false
  lanes := (List.range lam).map (fun l => Lane.start (recs.getD l []))

def laneCount (n : Nat) : LaneMask := BitVec.ofNat 1024 (2 ^ n - 1)

/-- A swap under way has stopped the core (08 R193). -/
def swapping (s : State) (core : Nat) : Bool :=
  match (s.d.clusters.getD (coreCluster core) (Cluster.reset 0)).pair with
  | some p => p.1 == core || p.2 == core
  | none => false

/-- The stand finishes what is under way and starts nothing: it is being saved (16 R349), or its core is stopped for a
swap (08 R193). -/
def draining (s : State) (st : Stand) : Bool := st.saving || swapping s st.core

/-- The grove may execute now (09 R210; 16 R344, R349; 17 R358; 04 R99). A stand that is being saved or swapped
finishes the instructions whose own data are under way; a halted stand's groves retire skid instructions, unless it is the
handler's own; a stand that has been aborted ends what it is inside (08 R186). -/
def runnable (s : State) (st : Stand) (g : Grove) : Bool :=
  !(s.d.core st.core).quarantined &&
    (if st.dying then g.held.isSome
     else if g.single.isSome then !g.singleDone
     else (!draining s st || (g.held.isSome && g.wait.own)) && !g.dbgHalt &&
       (st.halt.isNone || (!st.dbgHalt && (g.trap.hnd || g.pend.isSome)) ||
        (decide (0 < g.skidLeft) && (g.wait == .none || g.wait.own))))

/-- A port is held by the grove's instruction. -/
def onPort (s : State) (st : Stand) (g : Grove) : Bool :=
  ((s.d.core st.core).portGroves.zip (s.d.core st.core).ports).any (fun p =>
    p.2 != 0 && (match p.1 with | some u => u.who == ⟨st.uid, g.slot⟩ | none => false))

/-- A grove that starts instructions: it executes none now, has no trap to take first, and is not a debugger's. -/
def Grove.between (g : Grove) : Bool :=
  !g.begun && g.single.isNone && g.pend.isNone && g.live &&& ~~~g.parked != 0#1024

/-- A ready grove (09 R210): its next instruction waits for nothing, and no instruction of it holds a port. -/
def readyGrove (s : State) (st : Stand) (g : Grove) : Bool :=
  runnable s st g && g.between && g.wait == .none && !st.dying && !onPort s st g

/-! ## Barriers (08 R178) -/

def Barrier.zero : Barrier := ⟨0, [], false, false, []⟩

/-- The phase in progress holds an arrival, and every participant and every attached signal (15 R329) has arrived. -/
def barrierReady (st : Stand) (b : Barrier) : Bool :=
  (!b.arrived.isEmpty || b.seqArrived) && st.groves.all (fun g => b.arrived.contains g.slot) &&
    (!b.seqJoined || b.seqArrived) && b.signals.isEmpty

/-- The next phase begins. -/
def Barrier.advance (b : Barrier) : Barrier :=
  { b with phase := (b.phase + 1) % 2 ^ 32, arrived := [], seqArrived := false, signals := [] }

/-- Completes every phase that nothing holds open. -/
def settleBarriers (st : Stand) : Stand :=
  { st with barriers := st.barriers.map (fun b => if barrierReady st b then b.advance else b) }

/-- An arrival of a grove. -/
def arriveAt (st : Stand) (n slot : Nat) : Stand :=
  settleBarriers { st with barriers := st.barriers.modify n (fun b => { b with arrived := slot :: b.arrived }) }

/-- A multicast signal arrives at a receiver (15 R329). -/
def signalArrives (st : Stand) (bar copy : Nat) : Stand :=
  settleBarriers { st with barriers := st.barriers.modify bar (fun b =>
    { b with signals := b.signals.filter (· ≠ copy) }) }

/-- The sequencer's stream ends: it leaves every barrier (14 R313). -/
def seqLeaves (st : Stand) : Stand :=
  settleBarriers { st with barriers := st.barriers.map (fun b => { b with seqJoined := false, seqArrived := false }) }

/-! ## Collective copies (15 R321) -/

/-- The slot's grove has supplied its slice to the copy. -/
def suppliedBy (st : Stand) (slot id : Nat) : Bool := (st.copy.supplied.getD slot []).contains id

/-- Gathering copies to which every live grove has supplied start. -/
def settleCopies (st : Stand) : Stand :=
  { st with copy := { st.copy with queue := st.copy.queue.map (fun c =>
      if c.kind = 0 ∧ !c.started ∧ st.groves.all (fun g => suppliedBy st g.slot c.id) then
        { c with started := true } else c) } }

/-! ## The end of a stand (08 R179) -/

/-- Messages of a grove that has ended keep their stand but name no slot. -/
def orphanWho (uid slot : Nat) (w : Who) : Who := if w.uid = uid ∧ w.slot = slot then ⟨uid, 2 ^ 16⟩ else w

def orphanReq (f : Who → Who) (r : Req) : Req :=
  match r with
  | .reg m w => .reg m (f w)
  | .read id p => .read id p
  | .wb m b c ws => .wb m b c (ws.map f)
  | .data fw m b c => .data fw m b c
  | .atom op w => .atom op (f w)
  | .engine m w => .engine m w

def orphanRep (f : Who → Who) (r : Rep) : Rep :=
  match r with
  | .grant m w => .grant m (f w)
  | .atomDone w l o fl => .atomDone (f w) l o fl
  | .atomBad w l lost off => .atomBad (f w) l lost off
  | .wbAck ws => .wbAck (ws.map f)
  | .fwd w => .fwd w
  | .recall w => .recall w
  | .fill id d => .fill id d

def orphanPend (f : Who → Who) (q : HostPend) : HostPend :=
  match q with
  | .push l m b ws => .push l m b (ws.map f)
  | .atom op w => .atom op (f w)

def orphan (s : State) (uid slot : Nat) : State :=
  let f := orphanWho uid slot
  (dropAsks s ⟨uid, slot⟩).modM (fun m => { m with
    toSlice := m.toSlice.map (fun t => { t with req := orphanReq f t.req })
    toCore := m.toCore.map (fun t => { t with rep := orphanRep f t.rep })
    lineWaits := m.lineWaits.map (fun t => { t with req := orphanReq f t.req })
    hostQ := m.hostQ.map (orphanPend f) })

def reqOf (uid : Nat) (r : Req) : Bool :=
  match r with
  | .reg _ w => w.uid == uid
  | .wb _ _ _ ws => ws.any (fun w => w.uid == uid)
  | .atom _ w => w.uid == uid
  | .read .. => false
  | .data .. => false
  | .engine .. => false

def repOf (uid : Nat) (r : Rep) : Bool :=
  match r with
  | .grant _ w => w.uid == uid
  | .atomDone w _ _ _ => w.uid == uid
  | .atomBad w _ _ _ => w.uid == uid
  | .wbAck ws => ws.any (fun w => w.uid == uid)
  | .fwd _ => false
  | .recall _ => false
  | .fill .. => false

/-- Every store and atomic of a stand is performed (04 R98, 05 R128). -/
def standQuiet (s : State) (uid : Nat) : Bool :=
  !s.m.toSlice.any (fun t => reqOf uid t.req) && !s.m.toCore.any (fun t => repOf uid t.rep) &&
    !s.m.lineWaits.any (fun t => reqOf uid t.req) &&
    !s.m.hostQ.any (fun q => match q with
      | .push _ _ _ ws => ws.any (fun w => w.uid == uid)
      | .atom _ w => w.uid == uid)

/-- The conditions of 08 R179 at which a stand ends, the operations handed over before its `mend` complete (14 R301; log
entry 118) and its stores and atomics performed (11 R251; log entry 92). -/
def standOver (s : State) (st : Stand) : Bool :=
  st.groves.isEmpty && st.bins.all (fun b => b.key.isNone) && st.seq.run == 0 && st.seq.ops.isEmpty && st.copy.queue.isEmpty &&
    standQuiet s st.uid

/-- A receiver of a multicast that ends counts as having received (15 R329). -/
def dropReceiver (s : State) (uid : Nat) : State :=
  { s with stands := s.stands.map (fun st => { st with copy := { st.copy with queue := st.copy.queue.map (fun c =>
      { c with recvs := c.recvs.filter (fun r => r.uid ≠ uid) }) } }) }

/-- A stand ends: DONE and the clearing's state (08 R179, R181, R185), and its resources. With a faulted copy batch
outstanding when its last grove has ended, it aborts instead (R179, R186; 15 R337). -/
def standEnd (s : State) (uid : Nat) : State :=
  match s.stand? uid with
  | none => s
  | some st =>
    let last := st.groves.isEmpty && st.bins.all (fun b => b.key.isNone)
    if last && st.copy.paused then
      abortDomain s uid (causeWord cENGINE (st.copy.queue.foldl (fun d c => max d c.faultDetail) 0)) 0
    else
      if standOver s st then
        let s := dropReceiver (releaseStand s st) uid
        match clearing? s st.part st.clnum with
        | none => s
        | some c =>
          let c := { c with done := c.done + 1 }
          settleClearings (writeStatus (setClearing s c) c)
      else s

/-- The stands end that waited for nothing but their stores and atomics (11 R251; log entry 92). -/
def endQuiet (s : State) : State :=
  s.stands.foldl (fun s st => if standOver s st then standEnd s st.uid else s) s

/-! ## The end of a path and of a grove -/

/-- Lanes that stop being live, removed from every entry (08 R170, R173). -/
def Grove.removeLanes (g : Grove) (m : LaneMask) : Grove :=
  { g with
    live := g.live &&& ~~~m
    active := g.active &&& ~~~m
    parked := g.parked &&& ~~~m
    supp := g.supp &&& ~~~m
    div := g.div.map (fun e => { e with rest := e.rest &&& ~~~m, defer := e.defer &&& ~~~m }) }

/-- A grove with no live lane ends: its slot empties, it leaves every barrier, and it owes no slice any more. -/
def groveEnd (s : State) (uid : Nat) (g : Grove) : State :=
  let s := s.modStand uid (fun st =>
    let st := { st with
      groves := st.groves.filter (fun h => h.slot ≠ g.slot)
      freed := (g.slot, s.d.clkCount) :: st.freed.filter (fun f => f.1 ≠ g.slot)
      barriers := st.barriers.map (fun b => { b with arrived := b.arrived.filter (· ≠ g.slot) })
      copy := { st.copy with supplied := st.copy.supplied.set g.slot [] } }
    settleCopies (settleBarriers st))
  standEnd (orphan s uid g.slot) uid

/-- Stores a grove whose instruction retired, after lanes may have stopped being live. -/
def putSettled (s : State) (uid : Nat) (g : Grove) : State :=
  let g := g.settle
  if g.live = 0#1024 then groveEnd (s.setGrove uid g) uid g else s.setGrove uid g

/-! ## Spawn bins (08 R188 to R191) -/

/-- One deposit: the bin chosen by 08 R189, or none when the lane must wait: a bin that is full, launching, or whose timer has
run out takes no record (09 R208). -/
def depositBin (st : Stand) (key : Word × BitVec 16) : Option Nat :=
  match (List.range st.bins.length).find? (fun i => (st.bins.getD i ⟨none, [], 0, none⟩).key == some key) with
  | some i =>
    let b := st.bins.getD i ⟨none, [], 0, none⟩
    if b.launching.isSome ∨ st.shape.lanes ≤ b.recs.length ∨ b.timer = 0 then none else some i
  | none => (List.range st.bins.length).find? (fun i => (st.bins.getD i ⟨none, [], 0, none⟩).key.isNone)

/-- A filling bin's timer has run out: it is to enter launching (08 R190). -/
def Bin.expired (b : Bin) : Bool := b.key.isSome && b.launching.isNone && b.timer == 0 && !b.recs.isEmpty

/-- Bins whose count has reached λ enter launching, in the clk after the deposit that filled them (08 R190; 09 R208). -/
def fullBins (st : Stand) : Stand :=
  (List.range st.bins.length).foldl (fun st i =>
    let b := st.bins.getD i ⟨none, [], 0, none⟩
    if b.key.isSome ∧ b.launching.isNone ∧ st.shape.lanes ≤ b.recs.length then
      { st with bins := st.bins.set i { b with launching := some st.binOrder }, binOrder := st.binOrder + 1 }
    else st) st

/-- Deposits a record under a key; none when the lane must wait (08 R189). -/
def deposit1 (st : Stand) (key : Word × BitVec 16) (record : List Word) : Option Stand :=
  match depositBin st key with
  | none => none
  | some i =>
    let b := st.bins.getD i ⟨none, [], 0, none⟩
    let b' := if b.key.isSome then { b with recs := b.recs ++ [record] }
      else ⟨some key, [record], st.shape.bintime, none⟩
    some { st with bins := st.bins.set i b' }

/-- The grove slots that a launching bin may take: those that emptied in a clk before this one (09 R208). -/
def freeSlots (clk : Nat) (st : Stand) : List Nat :=
  (List.range st.shape.groves).filter (fun i => !st.groves.any (fun g => g.slot == i) && !st.freed.contains (i, clk))

/-- Bins of the stand have a change to make or a slot to take in this clk, before any deposit (09 R208). -/
def binsBusy (s : State) (st : Stand) : Bool :=
  !draining s st && (st.bins.any Bin.expired || (st.bins.any (·.launching.isSome) && !(freeSlots s.d.clkCount st).isEmpty))

/-- A launching bin takes an empty grove slot, the longest waiting first (08 R190, R191). -/
def launchBin (clk : Nat) (st : Stand) : Stand :=
  let free := freeSlots clk st
  let cand := (List.range st.bins.length).foldl (fun (best : Option (Nat × Nat)) i =>
    match (st.bins.getD i ⟨none, [], 0, none⟩).launching, best with
    | some o, some (_, p) => if o < p then some (i, o) else best
    | some o, none => some (i, o)
    | none, _ => best) none
  match free, cand with
  | slot :: _, some (i, _) =>
    let b := st.bins.getD i ⟨none, [], 0, none⟩
    let key := b.key.getD (0, 0)
    let c := b.recs.length
    { st with
      bins := st.bins.set i ⟨none, [], 0, none⟩
      groves := st.groves ++ [Grove.start slot st.shape.lanes st.shape.regs key.1 (laneCount c) st.args
        (key.2.setWidth 64) (BitVec.ofNat 64 c) b.recs]
      copy := { st.copy with supplied := st.copy.supplied.set slot [] } }
  | _, _ => st

end Sys2Proof.Machine
end

