-- ==== Sys2Proof/Machine/RegRead.lean ====
section
/-! DEFINITION. Device registers: their addresses, who reads them, their values, and what a read clears (02 R38 to R40,
R47 to R49, R55; 03 R59 to R75; 04 R101; 05 R125; 08 R192; 09 R200, R214; 16 R347, R350; 17 R354, R363, R369, R372;
18 R376 to R384). -/

namespace Sys2Proof.Machine

/-- A device register by name. -/
inductive Reg where
  | modid | hostbase | hostcap | owner | errcnt | xfercnt | mdrop
  | fwstart | fwstat | partctl (p : Nat) | mailbox | dumpbase | pwrceil
  | routehi (i : Nat) | routelo (i : Nat)
  | window (n off : Nat)
  | block (p off : Nat)
  | drift (k : Nat)
  | occ (core idx : Nat)
  | rimeReg (core n r : Nat)
  | skew (off : Nat)
  | none
deriving DecidableEq, Repr

/-- The register at an 8-byte address; an address that the manual lists no register for names none. -/
def regAt (a : Nat) : Reg :=
  let o := a - 0x1F0000000000
  if a < 0x1F0000000000 then .none
  else if o = 0x000 then .modid
  else if o = 0x008 then .hostbase
  else if o = 0x010 then .hostcap
  else if o = 0x018 then .owner
  else if o = 0x020 then .errcnt
  else if o = 0x028 then .xfercnt
  else if o = 0x030 then .mdrop
  else if o = 0x100 then .fwstart
  else if o = 0x108 then .fwstat
  else if 0x200 ≤ o ∧ o < 0x2A0 then .partctl ((o - 0x200) / 8)
  else if o = 0x300 then .mailbox
  else if o = 0x400 then .dumpbase
  else if o = 0x500 then .pwrceil
  else if 0x8000 ≤ o ∧ o < 0x9000 then .window ((o - 0x8000) / 0x40) (o % 0x40)
  else if 0x10000 ≤ o ∧ o < 0x18000 then .routehi ((o - 0x10000) / 8)
  else if 0x18000 ≤ o ∧ o < 0x18400 then .routelo ((o - 0x18000) / 8)
  else if 0x100000 ≤ o ∧ o < 0x114000 then .block ((o - 0x100000) / 0x1000) (o % 0x1000)
  else if 0x300000 ≤ o ∧ o < 0x301000 ∧ o % 0x100 = 0 then .drift ((o - 0x300000) / 0x100)
  else if 0x400000 ≤ o ∧ o < 0x418000 then .occ ((o - 0x400000) / 0x200) (o % 0x200 / 8)
  else if 0x500000 ≤ o ∧ o < 0x530000 ∧ o % 0x400 < 0x200 then
    .rimeReg ((o - 0x500000) / 0x400) (o % 0x400 / 0x20) (o % 0x20 / 8)
  else if 0x600000 ≤ o ∧ o < 0x6000C0 then .skew (o - 0x600000)
  else .none

/-- Firmware acts only while an image runs: nothing else runs on the management core (18 R377; 00 R13; log
entry 119). -/
def isFirmware (s : State) (ag : Agent) : Bool := ag == .firmware && s.d.mgmt.fwRunning

/-- Whether an agent reads a register (02 R38, R55; 09 R214; 17 R354, R363; 18 R373, R376, R380, R381). -/
def mayRead (s : State) (ag : Agent) (r : Reg) : Bool :=
  let top := ag == .owner || isFirmware s ag
  let master := top || (match ag with
    | .master _ => true
    | .owner => true
    | .firmware => false
    | .hv _ => false
    | .groveOf _ => false)
  match r with
  | .window _ _ => top || (match ag with
    | .hv p => (s.d.part p).alive
    | .groveOf _ => false
    | .master _ => false
    | .owner => false
    | .firmware => false)
  | .block p _ => (s.d.part p).alive && (top || ag == .hv p)
  | .drift _ => top
  | .occ core _ => top || ag == .hv (partOfCore s core) || ag == .groveOf (partOfCore s core)
  | .rimeReg core _ _ => top || ag == .hv (partOfCore s core)
  | .skew _ => true
  | .none => true
  | .modid | .hostbase | .hostcap | .owner | .errcnt | .xfercnt | .mdrop | .fwstart | .fwstat | .partctl _
  | .mailbox | .dumpbase | .pwrceil | .routehi _ | .routelo _ => master

def b2n (b : Bool) (k : Nat) : Nat := if b then 2 ^ k else 0

/-- A window register (02 R48, R49). -/
def windowReg (w : Window) (off : Nat) : Nat :=
  match off with
  | 0x00 => b2n w.en 31 + b2n w.busy 30 + w.err * 2 ^ 28 + w.part * 2 ^ 23 + w.kind * 2 ^ 20 + w.dim * 2 ^ 18 +
      w.stype * 2 ^ 17 + w.at16 * 2 ^ 16 + w.ovf * 2 ^ 15 + w.q
  | 0x08 => w.cbase
  | 0x10 => w.abase
  | 0x18 => w.alen * 4096
  | 0x20 => w.sbase
  | _ => 0

def segLo (g : Segment) : Nat := g.len * 2 ^ 40 + g.base * 2 ^ 16 + b2n g.sx 2 + b2n g.sw 1 + b2n g.sr 0

/-- LAUNCHST (09 R200). -/
def launchstReg (l : Launchst) : Nat :=
  b2n l.busy 63 + l.drop * 2 ^ 48 + l.clnum * 2 ^ 32 + b2n l.fprot 8 + l.detail * 2 ^ 4 + l.result

/-- A register of a partition block. -/
def blockReg (p : Partition) (off : Nat) : Nat :=
  match off with
  | 0x000 => p.ptroot.toNat
  | 0x008 => p.asid
  | 0x010 => b2n p.segen 0
  | 0x018 => p.tlbiaddr.toNat
  | 0x020 => b2n p.tlbi.isSome 63
  | 0x200 => p.lmax * 16 + p.lmin
  | 0x208 => p.l2ways
  | 0x210 => p.depth0 * 2 ^ 32 + p.rate0
  | 0x218 => p.depth1 * 2 ^ 32 + p.rate1
  | 0x220 => p.probemis
  | 0x228 => b2n p.scopeclip 2 + b2n p.scopeTrap 1 + b2n p.scopeOn 0
  | 0x240 => 0
  | 0x248 => launchstReg p.launchst
  | 0x250 => b2n p.occFreeze 1
  | 0x260 => 0
  | 0x268 => p.saveLen * 2 ^ 48 + p.saveBase * 2 ^ 21
  | 0x270 => b2n p.brkHalt 48 + p.dbgcl * 2 ^ 32 + b2n p.dbgEn 0
  | 0x278 => p.traceBase
  | 0x280 => b2n p.traceEn 63 + b2n p.traceWrap 62 + b2n p.traceFull 61 + p.traceCw * 2 ^ 56 + p.traceBar * 2 ^ 52 +
      p.traceLen * 2 ^ 32
  | 0x288 => p.tracePtr
  | _ =>
    if 0x100 ≤ off ∧ off < 0x200 then
      let g := p.segs.getD ((off - 0x100) / 16) Segment.reset
      if off % 16 = 0 then segLo g else g.target
    else 0

/-- CTL of a rime predicate (17 R355). -/
def Rime.ctl (r : Rime) : Nat :=
  b2n r.en 63 + r.kind * 2 ^ 60 + r.act * 2 ^ 57 + r.type * 2 ^ 53 + b2n r.space 52 + b2n r.vdir 51 + b2n r.anycl 50 +
    r.clnum * 2 ^ 32 + r.cdown

def rimeVal (r : Rime) (k : Nat) : Nat :=
  match k with
  | 0 => r.ctl
  | 1 => r.a.toNat
  | 2 => r.b.toNat
  | _ => r.count

/-- The value a register holds. -/
def regValue (s : State) (r : Reg) : Nat :=
  let m := s.d.mgmt
  match r with
  | .modid => m.modid
  | .hostbase => m.hostbase
  | .hostcap => b2n m.atomics 0
  | .owner => b2n m.held 63 + m.next.getD 0 * 2 ^ 32 + m.owner
  | .errcnt => m.lostCnt * 2 ^ 32 + m.poisCnt
  | .xfercnt => m.hwdrop * 2 ^ 32 + m.linkwr
  | .mdrop => m.mdrop
  | .fwstart => m.fwLen
  | .fwstat => m.fwStat
  | .partctl p => b2n (s.d.part p).busy 63 + (s.d.part p).halvesReg
  | .mailbox => m.mboxStatus
  | .dumpbase => m.dumpbase.toNat
  | .pwrceil => m.pwrceil
  | .routehi i => spGet 0 m.routehi i
  | .routelo i => spGet 0 m.routelo i
  | .window n off => windowReg (s.d.windows.getD n Window.reset) off
  | .block p off => blockReg (s.d.part p) off
  | .drift k =>
    let c := s.d.clusters.getD k (Cluster.reset k)
    c.swaps * 2 ^ 48 + c.delta * 2 ^ 8 + b2n c.en 7 + c.intv
  | .occ core idx => spGet 0 (s.d.core core).occ idx
  | .rimeReg core n k => rimeVal ((s.d.core core).rime.getD n Rime.reset) k
  | .skew off => spGet 0 s.d.skew off
  | .none => 0

/-- What a read clears: the RC fields that lie wholly in the half that is read (02 R55); `lo` and `hi` say which halves
are read. -/
def regClear (s : State) (r : Reg) (lo hi : Bool) : State :=
  match r with
  | .errcnt => s.modMgmt (fun m => { m with lostCnt := if hi then 0 else m.lostCnt, poisCnt := if lo then 0 else m.poisCnt })
  | .xfercnt => s.modMgmt (fun m => { m with hwdrop := if hi then 0 else m.hwdrop, linkwr := if lo then 0 else m.linkwr })
  | .mdrop => if lo then s.modMgmt (fun m => { m with mdrop := 0 }) else s
  | .block p off =>
    if off = 0x220 ∧ lo then s.modPart p (fun q => { q with probemis := 0 })
    else if off = 0x248 ∧ hi then s.modPart p (fun q => { q with launchst := { q.launchst with drop := 0 } })
    else s
  | .modid | .hostbase | .hostcap | .owner | .fwstart | .fwstat | .partctl _ | .mailbox | .dumpbase | .pwrceil
  | .routehi _ | .routelo _ | .window _ _ | .drift _ | .occ _ _ | .rimeReg _ _ _ | .skew _ | .none => s

/-- A read of 4 or 8 bytes of a register by an agent: an agent that may not read it reads 0 and clears nothing
(02 R55). -/
def regRead (s : State) (ag : Agent) (a size : Nat) : Nat × State :=
  let r := regAt (a / 8 * 8)
  if mayRead s ag r then
    let v := regValue s r
    if size = 8 then (v, regClear s r true true)
    else if a % 8 = 0 then (v % 2 ^ 32, regClear s r true false)
    else (v / 2 ^ 32 % 2 ^ 32, regClear s r false true)
  else (0, s)

/-- A write to a register address that is not taken: counted in MDROP for the management block, the partition blocks and
the window blocks (02 R55; 18 R376, R380). -/
def countDrop (s : State) (a : Nat) : State :=
  let o := a - 0x1F0000000000
  if o < 0x114000 then s.modMgmt (fun m => { m with mdrop := min (m.mdrop + 1) (2 ^ 32 - 1) }) else s

end Sys2Proof.Machine
end

