-- ==== Sys2Proof/Machine/Fetch.lean ====
section
/-! DEFINITION. Fetching a word of an instruction stream (02 R43; 10 R215; 14 R298). -/

namespace Sys2Proof.Machine

/-- A fetched word, the fault of the fetch, or a page still to be walked. -/
inductive Fetched where
  | word (w : BitVec 32)
  | fault (code detail : Nat)
  | miss
deriving DecidableEq, Repr

/-- The word at a virtual address. Code bytes are read as they stand at their home (log entry 6), once their line can be
served (04 R100; 07 R159; 03 R71), for the tokens of the transfers that reach memory or cores (03 R74); the word itself is no
line, so it takes none. A word of another module is a free value (log entry 9), one of a device register the value the
stand's groves read there. A fault that a walk found goes with the fetch that reports it. -/
def fetchWord (s : State) (u : Mmu) (va : Word) : Fetched × State :=
  match translateRun s u va.toNat 4 accFetch .fetch with
  | .ok segs =>
    match segs with
    | q :: _ =>
      let line := q.pa / 128
      let mask := maskRange (q.pa % 128) 4
      if isRemote q.pa then let f := s.freeWord; (.word (f.1.setWidth 32), f.2)
      else if q.kind = 2 then (.word (BitVec.ofNat 32 (regRead s (.groveOf u.part) q.pa 4).1), s)
      else if lineReady s line u.part mask then
        let p := prepay s (homeSlice s line) line u.part 0 (missTokens s line u.part + holders s line mask)
        if p.1 then
          let s := l2Access p.2 line u.part 0 true
          (.word (BitVec.ofNat 32 (curNat s q.pa 4)), s)
        else (.miss, p.2)
      else (.miss, lineAsk s line mask false (2 * u.part))
    | [] => (.miss, s)
  | .fault c d _ => (.fault c d, dropAsks s u.who)
  | .miss _ => (.miss, queueWalk s u va.toNat accFetch)

end Sys2Proof.Machine
end

