-- ==== Sys2Proof/Machine/Control.lean ====
section
/-! DEFINITION. Control instructions of a grove: branches, divergence, calls, ends, breaks and returns, MODE, control
registers, BOUNDARY (11 R244 to R257; 08 R173, R176; 10 R225; 03 R61, R62). -/

namespace Sys2Proof.Machine

def execNop (s : State) : Out State Fault Refusal := groveInstr .nop s (fun x => x.done x.g)

/-- The pfx word and its literal (01 R21, 10 R221): the word after them is part of the instruction, so PC stays. -/
def execPfx (lit : BitVec 32) (s : State) : Out State Fault Refusal :=
  groveInstr (.pfx lit) s (fun x => x.put { x.g with pfx := some lit })

/-! ## Uniform branches (11 R246) -/

/-- Address of the word plus 4 times a signed word offset (10 R217). -/
def branchTarget (g : Grove) {n : Nat} (o : BitVec n) : Word := g.wordAddr + 4 * o.signExtend 64

def execBra (o : BitVec 16) (s : State) : Out State Fault Refusal :=
  groveInstr (.bra o) s (fun x => x.jump x.g (branchTarget x.g o))

/-- Lanes of the enabled mask whose tested predicate is 1 (11 R246, R248). -/
def testLanes (x : Gx) (n : BitVec 1) (p : BitVec 3) : LaneMask :=
  laneMaskOf x.g.lam (fun l => x.en.getLsbD l && ((x.g.lane l).p.getLsbD p.toNat != (n == 1#1)))

def brcOp (x : Gx) (o : BitVec 16) (taken : Bool) : State :=
  if taken then x.jump x.g (branchTarget x.g o) else x.done x.g

def execBrcAny (n : BitVec 1) (p : BitVec 3) (o : BitVec 16) (s : State) : Out State Fault Refusal :=
  groveInstr (.brcAny n p o) s (fun x => brcOp x o (testLanes x n p != 0#1024))
def execBrcAll (n : BitVec 1) (p : BitVec 3) (o : BitVec 16) (s : State) : Out State Fault Refusal :=
  groveInstr (.brcAll n p o) s (fun x => brcOp x o (testLanes x n p == x.en))
def execBrcNone (n : BitVec 1) (p : BitVec 3) (o : BitVec 16) (s : State) : Out State Fault Refusal :=
  groveInstr (.brcNone n p o) s (fun x => brcOp x o (testLanes x n p == 0#1024))

/-! ## Divergence (08 R173; 11 R247 to R249) -/

/-- The current pass count. -/
def Grove.passes (g : Grove) : Nat :=
  match g.div with
  | [] => g.basePasses
  | e :: _ => e.passes

def Grove.setPasses (g : Grove) (n : Nat) : Grove :=
  match g.div with
  | [] => { g with basePasses := n }
  | e :: rest => { g with div := { e with passes := n } :: rest }

/-- The split of 11 R248: the path that runs first is a free value (08 R173; log entry 4). -/
def brdSplit (x : Gx) (j f : Word) (t n : LaneMask) : State :=
  let a := x.g.wordAddr + 4
  let fr := x.s.freeWord
  let firstTrue := fr.1.getLsbD 0
  let g := { x.g with
    div := ⟨j, x.g.active, if firstTrue then n else t, if firstTrue then f else a, false, 0⟩ :: x.g.div
    active := if firstTrue then t else n }
  { x with s := fr.2 }.put (g.retireTo (if firstTrue then a else f))

def brdOp (x : Gx) (n : BitVec 1) (p : BitVec 3) (o : BitVec 16) : State :=
  let j := branchTarget x.g o
  match fetchWord x.s (x.st.mmu true x.g.slot) j with
  | (.miss, s') => { x with s := s' }.hold .inside x.g
  | (.fault c d, s') => { x with s := s' }.trapAll c d j
  | (.word wj, s') =>
    let x := { x with s := s' }
    if wj.extractLsb' 24 8 ≠ 0x05#8 then x.trapAll cBOUNDS 5 0
    else
      let f := j + 4 * (wj.extractLsb' 0 24).signExtend 64
      let t := testLanes x n p
      let nn := x.en &&& ~~~t
      if t = 0#1024 ∨ nn = 0#1024 then
        if x.g.passes = 255 then x.trapAll cBOUNDS 3 0
        else
          x.jump (x.g.setPasses (x.g.passes + 1)) (if t = 0#1024 ∧ nn ≠ 0#1024 then f else x.g.wordAddr + 4)
      else if 16 ≤ x.g.div.length then x.trapAll cBOUNDS 3 0
      else brdSplit x j f t nn

def execBrd (n : BitVec 1) (p : BitVec 3) (o : BitVec 16) (s : State) : Out State Fault Refusal :=
  groveInstr (.brd n p o) s (fun x => brdOp x n p o)

def joinOp (x : Gx) : State :=
  let j := x.g.wordAddr
  let byCount : State :=
    if x.g.passes = 0 then x.trapAll cBOUNDS 4 0 else x.jump (x.g.setPasses (x.g.passes - 1)) (j + 4)
  match x.g.div with
  | [] => byCount
  | e :: rest =>
    if e.join = j then
      let g := x.g.reachJoin e rest
      putSettled x.s x.st.uid (g.retireTo g.pc)
    else byCount

def execJoin (i : BitVec 24) (s : State) : Out State Fault Refusal := groveInstr (.join i) s joinOp

/-! ## Calls and jumps (11 R250) -/

def execCall (i : BitVec 24) (s : State) : Out State Fault Refusal :=
  groveInstr (.call i) s (fun x => x.jump (x.g.setS 31 (x.g.wordAddr + 4)) (branchTarget x.g i))

def jumpOp (x : Gx) (target : Word) : State :=
  if target.extractLsb' 0 2 ≠ 0#2 then x.trapAll cALIGN 2 target else x.jump x.g target

def execRet (s : State) : Out State Fault Refusal := groveInstr .ret s (fun x => jumpOp x (sGet x.g 31))
def execJmpi (a : BitVec 8) (s : State) : Out State Fault Refusal :=
  groveInstr (.jmpi a) s (fun x => jumpOp x (sGet x.g (opNum a)))

/-! ## Ending and yielding (11 R251, R252) -/

/-- An `ldx` reply addressed to one of the lanes has not landed. -/
def laneOwed (g : Grove) (m : LaneMask) : Bool :=
  g.ldx.any (fun e => e.lanes.any (fun l => m.getLsbD l.lane))

/-- Errors of `ldx` replies addressed to lanes that are waited for (13 R284). -/
def laneErrs (g : Grove) (m : LaneMask) : List LdxErr := g.ldxErrs.filter (fun e => m.getLsbD e.lane)

/-- The lanes stop being live and the grove goes on at the next word, or where its paths lead (11 R251). -/
def retireLanes (s : State) (uid : Nat) (g : Grove) (m : LaneMask) : State := putSettled s uid (g.retire.removeLanes m)

def exitOp (x : Gx) : State :=
  if laneOwed x.g x.en then x.hold .score x.g
  else if (laneErrs x.g x.en).isEmpty then retireLanes x.s x.st.uid x.g x.en
  else x.ldxTrap (laneErrs x.g x.en)

def execExitG (s : State) : Out State Fault Refusal := groveInstr .exitG s exitOp

/-- With the pre-emption request set, the stand's save begins at the next boundary (11 R252, 16 R348). -/
def execYield (s : State) : Out State Fault Refusal :=
  groveInstr .yield s (fun x =>
    (x.done x.g).modStand x.st.uid (fun st => { st with saving := st.saving || st.preq }))

/-! ## Breaks (11 R256; 17 R363) -/

def breakTrap (x : Gx) (detail : Nat) (i : BitVec 24) : State :=
  trapEntry x.s x.st.uid x.g cBREAK detail x.g.active (x.g.wordAddr + 4) (i.setWidth 64)

def execBrk (i : BitVec 24) (s : State) : Out State Fault Refusal :=
  groveInstr (.brk i) s (fun x =>
    let p := x.s.d.part x.st.part
    if p.brkHalt ∧ ¬ (p.dbgcl = x.st.clnum ∨ p.dbgcl = 0xFFFF) then debugHalt x.s x.st.uid x.g.retire true 0x11 x.g.pc
    else breakTrap x 1 i)
def execTrap (i : BitVec 24) (s : State) : Out State Fault Refusal :=
  groveInstr (.trap i) s (fun x => breakTrap x 2 i)

/-! ## Returns (11 R257; 16 R343) -/

def execEret (s : State) : Out State Fault Refusal :=
  groveInstr .eret s (fun x =>
    if x.g.trap.hnd then trapReturn x.s x.st x.g false else x.trapAll cPRIV 1 0)

/-- A B-format or J-format instruction or `jmpi`, for which `eret.replay` acts as `eret` (11 R257). -/
def noReplay (w : BitVec 32) : Bool := decide ((w.extractLsb' 24 8).toNat ≤ 0x0E)

/-- The word at FAULTPC decides between replay and plain return; behind a pfx word it is the third word. -/
def replayOp (x : Gx) : State :=
  let u := x.st.mmu true x.g.slot
  let ret (s : State) (replay : Bool) : State := trapReturn s x.st x.g replay
  match fetchWord x.s u x.g.trap.faultPc with
  | (.miss, s') => { x with s := s' }.hold .inside x.g
  | (.fault _ _, _) => ret x.s true
  | (.word w, s') =>
    if w.extractLsb' 24 8 = 0x01#8 then
      match fetchWord s' u (x.g.trap.faultPc + 8) with
      | (.miss, s'') => { x with s := s'' }.hold .inside x.g
      | (.fault _ _, _) => ret s' true
      | (.word w2, s'') => ret s'' (!noReplay w2)
    else ret s' (!noReplay w)

def execEretReplay (s : State) : Out State Fault Refusal :=
  groveInstr .eretReplay s (fun x => if x.g.trap.hnd then replayOp x else x.trapAll cPRIV 1 0)

/-! ## Grove state (11 R244, R245; 10 R225; 08 R176) -/

def execPhase (n : BitVec 4) (s : State) : Out State Fault Refusal :=
  groveInstr (.phase n) s (fun x => x.done { x.g with phase := n.toNat })

def execMode (g h : BitVec 1) (p r : BitVec 3) (t : BitVec 4) (s : State) : Out State Fault Refusal :=
  groveInstr (.mode g h p r t) s (fun x => x.done { x.g with mode := g ++ h ++ p ++ 0#1 ++ r ++ t })

/-- A control register's value (11 R244). -/
def csrValue (x : Gx) (c : Nat) : Word :=
  let nx := x.st.shape.nx
  let ny := x.st.shape.ny
  let core := x.s.d.core x.st.core
  match c with
  | 0x0000 => x.g.mode.setWidth 64
  | 0x0001 => x.g.fpflags.setWidth 64
  | 0x0002 => BitVec.ofNat 64 x.g.boundary
  | 0x0003 => BitVec.ofNat 64 x.g.phase
  | 0x0010 => BitVec.ofNat 64 x.g.slot
  | 0x0011 => BitVec.ofNat 64 x.g.lam
  | 0x0012 => BitVec.ofNat 64 (x.st.index % nx)
  | 0x0013 => BitVec.ofNat 64 (x.st.index / nx % ny)
  | 0x0014 => BitVec.ofNat 64 (x.st.index / (nx * ny))
  | 0x0015 => BitVec.ofNat 64 x.st.clnum
  | 0x0016 => BitVec.ofNat 64 x.st.lcore
  | 0x0017 => BitVec.ofNat 64 (coreCluster x.st.core)
  | 0x0018 => BitVec.ofNat 64 x.st.core
  | 0x0019 => BitVec.ofNat 64 x.st.part
  | 0x0020 => BitVec.ofNat 64 (core.l1st * 2 ^ 6 + core.l1req * 2 ^ 3 + core.l1cur)
  | 0x0030 => x.g.causeReg x.st.preq
  | 0x0031 => x.g.trap.faultPc
  | 0x0032 => x.g.trap.faultAddr
  | 0x0033 => x.g.skidReg
  | _ => BitVec.ofNat 64 (x.s.d.time.getD (coreDie x.st.core) 0)

def execCsrr (d : BitVec 8) (c : BitVec 16) (s : State) : Out State Fault Refusal :=
  groveInstr (.csrr d c) s (fun x => x.done (x.g.setS d.toNat (csrValue x c.toNat)))

/-- A value that MODE admits (10 R225). -/
def modeOk (v : Word) : Bool :=
  decide (v.toNat < 2 ^ 13) && !v.getLsbD 7 && decide ((v.extractLsb' 4 3).toNat < 5) && decide (v.extractLsb' 0 4 ≠ 15#4)

/-- ChangeWays of 03 R62, up to the start of the conversion. -/
def changeWays (s : State) (st : Stand) (slot m : Nat) : State :=
  let c := s.d.core st.core
  let p := s.d.part st.part
  let refuse (v : Nat) : State := s.modCore st.core (fun c => { c with l1st := v })
  let accepted : State := s.modCore st.core (fun c => { c with l1st := 0, l1req := m })
  let inUse := s.stands.any (fun t => t.core == st.core && t.scratchSize != 0 &&
    decide ((16 - m) * 262144 < t.scratchBase + t.scratchSize))
  if m < p.lmin ∨ p.lmax < m then refuse 1
  else if c.conv.isSome then refuse 3
  else if c.l1cur < m ∧ inUse then refuse 2
  else if m = c.l1cur then accepted
  else
    let n := st.tlc.last + 1
    let s := accepted.modCore st.core (fun c => { c with conv := some ⟨st.uid, n, m, s.nextId⟩ })
    s.modStand st.uid (fun st => { st with
      tlc := { st.tlc with last := n }
      batches := st.batches ++ [⟨n, [], true, st.copy.bank⟩]
      groves := st.groves.map (fun h => if h.slot = slot then { h with batches := h.batches ++ [n] } else h) })

/-- A write of a control register (10 R225; 06 R135; 16 R339; 03 R62). -/
def csrwOp (x : Gx) (c : Nat) (v : Word) : State :=
  match c with
  | 0x0000 => if modeOk v then x.done { x.g with mode := v.setWidth 13 } else x.trapAll cILLEGAL 7 0
  | 0x0001 =>
    let f := v.setWidth 5
    x.done { x.g with fpflags := f, lanes := x.g.lanes.map (fun l => { l with flags := l.flags &&& f }) }
  | 0x0031 =>
    if v.extractLsb' 0 2 = 0#2 then x.done { x.g with trap := { x.g.trap with faultPc := v } }
    else x.trapAll cILLEGAL 7 0
  | _ => changeWays (x.done x.g) x.st x.g.slot (v.extractLsb' 3 3).toNat

def execCsrw (d : BitVec 8) (c : BitVec 16) (s : State) : Out State Fault Refusal :=
  groveInstr (.csrw d c) s (fun x => csrwOp x c.toNat (if d.toNat = 56 then 0 else sGet x.g d.toNat))

/-- BOUNDARY (08 R176). Registers at and above the lower bound hold 0 from then on (log entry 27). -/
def boundOp (x : Gx) (b : Nat) : State :=
  if x.st.shape.regs < b then x.trapAll cBOUNDS 8 0
  else if pendingIn x.g [(b, 56 - b)] then x.hold .score x.g
  else
    let lo := min b x.g.boundary
    x.done { x.g with
      boundary := b
      lanes := x.g.lanes.map (fun l => l.setRegs lo (List.replicate (max b x.g.boundary - lo) 0) false) }

def execBound (b : BitVec 6) (s : State) : Out State Fault Refusal :=
  groveInstr (.bound b) s (fun x => boundOp x b.toNat)

end Sys2Proof.Machine
end

