-- ==== Sys2Proof/Machine/Access.lean ====
section
/-! DEFINITION. What the memory instructions share: translating the lanes' accesses (02 R41, R42), watching them
(17 R356 to R361), gathering loaded lines, performing stores, releases (04 R92, 05 R125), and the end of a memory
instruction. -/

namespace Sys2Proof.Machine

/-- What a lane touches: runs of consecutive virtual or scratch addresses. -/
structure Want where
  lane : Nat
  runs : List (Nat × Nat)
deriving DecidableEq, Repr

/-- The grove as the state now holds it: messages it sent are counted there. -/
def Gx.at (x : Gx) (s : State) : Gx := { x with s := s }

/-- Counts that the state keeps for the executing grove while it acts. -/
def Gx.counts (x : Gx) (s : State) (g : Grove) : Grove :=
  match (s.stand? x.st.uid).bind (fun st => st.grove? x.g.slot) with
  | some h => { g with outStores := h.outStores, outWbs := h.outWbs }
  | none => g

def Gx.who (x : Gx) : Who := ⟨x.st.uid, x.g.slot⟩

/-! ## Translation (02 R41, R42) -/

/-- Progress of translating an instruction: translated lanes, faulting lanes, missing pages. -/
structure Walked where
  segs : List LaneSegs
  faults : List LaneFault
  miss : List Nat
deriving DecidableEq, Repr

def translateLane (s : State) (u : Mmu) (acc : Nat) (use : Use) (r : Walked) (w : Want) : Walked :=
  if r.segs.any (fun y => y.lane == w.lane) || r.faults.any (fun f => f.lane == w.lane) then r
  else
    match translateRuns s u w.runs acc use with
    | .ok segs => { r with segs := r.segs ++ [⟨w.lane, segs⟩] }
    | .fault c d a => { r with faults := r.faults ++ [⟨w.lane, c, d, BitVec.ofNat 64 a⟩] }
    | .miss vas => { r with miss := r.miss ++ vas }

/-- Translates every lane of an instruction that has not been translated yet. -/
def translateLanes (s : State) (u : Mmu) (acc : Nat) (use : Use) (p : Prog) (ws : List Want) : Walked :=
  ws.foldl (translateLane s u acc use) ⟨p.segs, p.faults, []⟩

/-- An instruction goes on once every lane is translated, with its clean lanes in lane order; `bad` are lanes that make
no lookup (13 R277). Pages that miss are walked, and the grove waits; the faults that walks found go with the
translation (02 R40). -/
def Gx.translated (x : Gx) (acc : Nat) (use : Use) (ws : List Want) (bad : List LaneFault) (k : Gx → State) : State :=
  if x.g.prog.phase ≠ 0 then k x
  else
    let u := x.st.mmu true x.g.slot
    let r := translateLanes x.s u acc use x.g.prog ws
    if r.miss.isEmpty then
      let segs := ws.filterMap (fun w => r.segs.find? (fun y => y.lane == w.lane))
      k { x with s := dropAsks x.s x.who,
                 g := { x.g with prog := { x.g.prog with phase := 1, segs := segs, faults := bad ++ r.faults } } }
    else (x.at (r.miss.foldl (fun s va => queueWalk s u va acc) x.s)).hold (if use = .store then .walk else .data)
      { x.g with prog := { x.g.prog with segs := r.segs, faults := r.faults } }

/-! ## Watching (17 R356) -/

/-- Words as one number, lowest first. -/
def wordsNat (ws : List Word) : Nat := ws.foldr (fun w acc => w.toNat + 2 ^ 64 * acc) 0

/-- The address that a WATCH trap reports (17 R361). -/
def watchAddr (s : State) (st : Stand) (ws : List Want) (f : Fired) : Word :=
  let r := (s.d.core st.core).rime.getD f.num Rime.reset
  match ws.find? (fun w => f.lanes.getLsbD w.lane) with
  | some w => if r.kind = 2 then BitVec.ofNat 64 ((w.runs.headD (0, 0)).1) else BitVec.ofNat 64 (firstHit r w.runs)
  | none => 0

/-- What watching an instruction decides: the state with its counts, the suppressed lanes, and the action to take. An
action of ACT 2 to 4 gives way to a fault of another lane: its lanes join the faulting ones and count when they are executed
again; the lanes that complete count now. -/
structure Watched where
  s : State
  supp : LaneMask
  fired : Option Fired

def watchMem (x : Gx) (lanes : List Nat) (faulty : Bool) (hit : Rime → Nat → Bool) : Watched :=
  let w := watchCount x.s x.st x.g lanes hit
  match w.2 with
  | none => ⟨w.1, 0, none⟩
  | some f =>
    if faulty ∧ 2 ≤ f.act then
      ⟨(watchCount x.s x.st x.g (lanes.filter (fun l => !f.lanes.getLsbD l)) hit).1, f.lanes, none⟩
    else ⟨w.1, f.lanes, some f⟩

/-! ## The end of a memory instruction -/

/-- The trap of faulting lanes (02 R42): the lowest lane gives cause, detail and address. -/
def Gx.faultTrap (x : Gx) (fs : List LaneFault) (extra : LaneMask) : State :=
  let low := fs.foldl (fun a f => if f.lane < a.lane then f else a) (fs.headD ⟨0, 0, 0, 0⟩)
  x.trap low.code low.detail (laneMaskOf x.g.lam (fun l => fs.any (fun f => f.lane == l)) ||| extra) low.addr

/-- A memory instruction ends: it retires by `fin`, traps for its faulting lanes, or takes a fired action. `g` is the
grove with what its clean lanes wrote. -/
def Gx.endMem (x : Gx) (g : Grove) (fs : List LaneFault) (w : Watched) (addr : Word) (fin : Gx → State) : State :=
  let x := { x with s := w.s, g := g }
  let halted : Grove := { g with pfx := none, held := none, prog := Prog.none, wait := .none }
  match w.fired with
  | none => if fs.isEmpty then fin x else x.faultTrap fs w.supp
  | some f =>
    match f.act with
    | 1 =>
      let x := { x with g := g.park f.lanes }
      if fs.isEmpty then fin x else x.faultTrap fs 0
    | 2 => markWatch (x.trap cWATCH f.num f.lanes addr) x.who
    | 3 => debugHalt x.s x.st.uid { halted with supp := f.lanes } false f.num x.g.pc
    | _ => debugHalt x.s x.st.uid { halted with supp := f.lanes } true f.num x.g.pc

/-- Retires with the grove as it stands. -/
def Gx.fin (x : Gx) : State := x.done x.g

/-! ## Runs of physical bytes -/

/-- A piece of a lane's access inside one line: line, offset, length, page kind, place in the access. -/
structure Piece where
  line : Nat
  off : Nat
  len : Nat
  kind : Nat
  pos : Nat
deriving DecidableEq, Repr

/-- Splits a physical run into pieces, one per line. -/
def segPieces : Nat → Nat → Nat → Nat → Nat → List Piece
  | 0, _, _, _, _ => []
  | fuel + 1, pa, len, kind, pos =>
    if len = 0 then []
    else
      let n := min (128 - pa % 128) len
      ⟨pa / 128, pa % 128, n, kind, pos⟩ :: segPieces fuel (pa + n) (len - n) kind (pos + n)

/-- A run that goes to lines of this module's memory or the host's: not remote, not a device register. -/
def Seg.cached (q : Seg) : Bool := !isRemote q.pa && q.kind != 2

/-- The pieces of a lane's cached runs; places count the bytes of all its runs in order. -/
def lanePieces (qs : List Seg) : List Piece :=
  (qs.foldl (fun (acc : Nat × List Piece) q =>
    (acc.1 + q.len, acc.2 ++ (if q.cached then segPieces (q.len / 128 + 2) q.pa q.len q.kind acc.1 else []))) (0, [])).2

/-! ## Loads -/

/-- A home operation of the core on a line is on its way: later loads go behind it (05 R107, R124). -/
def homeOpOut (s : State) (core line : Nat) : Bool :=
  s.m.toSlice.any (fun t => t.core == core && t.line == line && (match t.req with | .atom .. => true | _ => false)) ||
    s.m.lineWaits.any (fun t => t.core == core && t.line == line && (match t.req with | .atom .. => true | _ => false))

/-- A power window of a partition is open (17 R369, R371). -/
def inPowerWindow (s : State) (part : Nat) : Bool := (s.d.part part).powerEnd.any (fun e => decide (s.d.clkCount < e))

/-- The sampling rate of a stand: its own, or that of a power window (17 R371); 0 is off. -/
def sampRate (s : State) (st : Stand) : Nat := if inPowerWindow s st.part then 8 else st.sampK

/-- An L1 miss of a stand is counted: whether it is a 2^k-th one, which is sampled (17 R371). -/
def countMiss (s : State) (st : Stand) : Bool × State :=
  let k := sampRate s st
  if k = 0 then (false, s)
  else
    let n := ((s.stand? st.uid).map (·.sampCount)).getD 0 + 1
    (n % 2 ^ k == 0, s.modStand st.uid (fun t => { t with sampCount := n % 2 ^ k }))

/-- The sample record of an L1 miss (17 R370, R371). The clk that it spent in queues are free values, but 0 for the die link
of a read that passed none, and for the memory controllers where none was asked (log entry 99). -/
def sampleRecord (s : State) (link : Bool) (q : Samp) : State :=
  match s.stand? q.uid with
  | some st =>
    let a := s.freeWord
    let b := a.2.freeWord
    let low := if link then 1 else 2 ^ 16
    traceRecord b.2 st.part (traceHead s st 1 q.slot (s.d.part st.part).traceBar q.pc ++
      [q.va.toNat, a.1.toNat / low * low, if q.mem then b.1.toNat / 2 ^ 48 * 2 ^ 48 else 0])
  | none => s

/-- An L1 miss that the die's visitor copy serves: its reply returns at once, from a slice of the core's own die. -/
def visitorMiss (s : State) (st : Stand) (slot : Nat) (va pc : Word) : State :=
  let r := countMiss s st
  if r.1 then sampleRecord r.2 false ⟨st.uid, slot, va, pc, false⟩ else r.2

/-- A read sent by a grove on an L1 miss. -/
def missRead (s : State) (st : Stand) (slot line : Nat) (kind01 : Bool) (fence : Nat) (va pc : Word) : Nat × State :=
  let r := sendRead s st.uid st.core line st.part none kind01 fence
  let c := countMiss r.2 st
  (r.1, if c.1 then c.2.modM (fun m => { m with fills := m.fills.map (fun f =>
    if f.id = r.1 then { f with samp := some ⟨st.uid, slot, va, pc, false⟩ } else f) }) else c.2)

/-- The lines that the clean lanes of a load touch. -/
def loadLines (p : Prog) : List Nat := (p.segs.flatMap (fun y => (lanePieces y.segs).map (·.line))).eraseDups

/-- Obtains one line for a load: at once from L1 or a visitor copy (04 R88), else by a read. -/
def loadLine (tainted : Nat → Bool) (vaOf : Nat → Word) (x : Gx) (line : Nat) : Gx :=
  let here := x.g.prog.segs.filterMap (fun y =>
    match (lanePieces y.segs).filter (fun q => q.line == line) with
    | [] => none
    | qs => some (y.lane, qs))
  let need := here.foldl (fun m h => h.2.foldl (fun m q => m ||| maskRange q.off q.len) m) 0#128
  let tn := here.any (fun h => tainted h.1)
  let now := if homeOpOut x.s x.st.core line then none else loadNow x.s x.st.core line need tn
  match now with
  | some d =>
    let va := vaOf ((here.map (·.1)).headD 0)
    { x with
      s := if (l1Serve x.s x.st.core line need tn).isSome then d.2 else visitorMiss d.2 x.st x.g.slot va x.g.pc
      g := { x.g with prog := { x.g.prog with got := x.g.prog.got ++ [(line, d.1)] } } }
  | none =>
    let k01 := here.any (fun h => h.2.any (fun q => q.kind == 1))
    let r := missRead x.s x.st x.g.slot line k01 (if tn then x.g.taintFence else 0) (vaOf ((here.map (·.1)).headD 0)) x.g.pc
    { x with s := r.2, g := { x.g with prog := { x.g.prog with fills := x.g.prog.fills ++ [r.1] } } }

/-- Bytes of one physical run of a load, with poison and lost marks: from the lines obtained; a device register as the
stand's groves read it (02 R55); free values from another module (log entry 9). -/
def runBytes (part : Nat) (got : List (Nat × LineData)) (s : State) (q : Seg) : List (Byte × Bool × Bool) × State :=
  if isRemote q.pa then
    (List.range ((q.len + 7) / 8)).foldl (fun (acc : List (Byte × Bool × Bool) × State) i =>
      let f := acc.2.freeWord
      (acc.1 ++ ((toBytes 8 f.1.toNat).take (q.len - 8 * i)).map (fun b => (b, peerDown s q.pa, false)), f.2)) ([], s)
  else if q.kind = 2 then
    let r := regRead s (.groveOf part) q.pa q.len
    ((toBytes q.len r.1).map (fun b => (b, false, false)), r.2)
  else
    ((List.range q.len).map (fun i =>
      let a := q.pa + i
      match got.find? (fun y => y.1 == a / 128) with
      | some y => (lineByte y.2.bytes (a % 128), y.2.poison.getLsbD (a % 128) || removedAt s a, y.2.lost.getLsbD (a % 128))
      | none => (0, false, false)), s)

/-- The loaded bytes of every clean lane, in lane order. -/
def laneBytes (part : Nat) (got : List (Nat × LineData)) (segs : List LaneSegs) (s : State) :
    List (Nat × List (Byte × Bool × Bool)) × State :=
  segs.foldl (fun (acc : List (Nat × List (Byte × Bool × Bool)) × State) y =>
    let r := y.segs.foldl (fun (a : List (Byte × Bool × Bool) × State) q =>
      let b := runBytes part got a.2 q
      (a.1 ++ b.1, b.2)) ([], acc.2)
    (acc.1 ++ [(y.lane, r.1)], r.2)) ([], s)

/-- Registers from bytes, lowest register first (01 R24). -/
def bytesRegs (bs : List Byte) : Nat → List Word
  | 0 => []
  | n + 1 => BitVec.ofNat 64 (ofBytes (bs.take 8)) :: bytesRegs (bs.drop 8) n

/-- POISON or OWNERLOST of a lane's loaded bytes (03 R81; 04 R99; 13 R278), at the first such byte from `va`. -/
def dataFault (lane : Nat) (va : Nat) (bs : List (Byte × Bool × Bool)) : Option LaneFault :=
  match bs.findIdx? (fun b => b.2.1) with
  | some i => some ⟨lane, cPOISON, 0, BitVec.ofNat 64 (va + i)⟩
  | none => (bs.findIdx? (fun b => b.2.2)).map (fun i => ⟨lane, cOWNERLOST, 0, BitVec.ofNat 64 (va + i)⟩)

/-! ## Stores -/

/-- A unit that one store writes whole (05 R105): its physical address, page kind and bytes. -/
structure Unit8 where
  pa : Nat
  kind : Nat
  bytes : List Byte
deriving DecidableEq, Repr

/-- Splits a physical run with its bytes at multiples of a size. -/
def splitUnits (size : Nat) : Nat → Nat → Nat → List Byte → List Unit8
  | 0, _, _, _ => []
  | fuel + 1, pa, kind, bs =>
    if bs.isEmpty then []
    else
      let n := size - pa % size
      ⟨pa, kind, bs.take n⟩ :: splitUnits size fuel (pa + n) kind (bs.drop n)

/-- The window of an alias address whose stores execute at the home (05 R124). -/
def homeStoreWin (s : State) (pa : Nat) : Option Window :=
  match windowAt s pa with
  | some (_, w) => if w.kind = 0 then none else some w
  | none => none

/-- Unit size of a store at an address: an alias element of a byte-wise store (05 R105), one byte of another byte-wise
store, else 8 bytes. -/
def unitSize (s : State) (bytewise : Bool) (pa : Nat) : Nat :=
  if bytewise then (match windowAt s pa with | some (_, w) => w.e | none => 1) else 8

/-- The units of a lane's cached runs. -/
def laneUnits (s : State) (bytewise : Bool) (qs : List Seg) (bs : List Byte) : List Unit8 :=
  (qs.foldl (fun (acc : List Byte × List Unit8) q =>
    (acc.1.drop q.len, acc.2 ++ (if q.cached then
      splitUnits (unitSize s bytewise q.pa) (q.len + 1) q.pa q.kind (acc.1.take q.len) else []))) (bs, [])).2

/-- Where lanes store to one unit, one of their values is left, a free choice (05 R106; log entry 4). -/
def chooseUnits (s : State) (us : List Unit8) : List Unit8 × State :=
  ((us.map (·.pa)).eraseDups).foldl (fun (acc : List Unit8 × State) a =>
    match us.filter (fun u => u.pa == a) with
    | [] => acc
    | [u] => (acc.1 ++ [u], acc.2)
    | u :: rest =>
      let f := acc.2.freeWord
      (acc.1 ++ [(u :: rest).getD (f.1.toNat % (rest.length + 1)) u], f.2)) ([], s)

/-- A core prepares an operation at the home on a line: its own copies of the line are dropped, and fills in flight are
overtaken, so that its later loads see the operation (05 R107). -/
def homeOpPrep (s : State) (core line : Nat) : State :=
  let s := match l1Find s core line with
    | some x => l1Put s { x with valid := 0 }
    | none => s
  overtake s core line

/-- A store executed at the home (05 R124). -/
def sendHomeStore (s : State) (core : Nat) (w : Who) (u : Unit8) : State :=
  let s := addOut (homeOpPrep s core (u.pa / 128)) w 1
  sendSlice s core (u.pa / 128) (.atom ⟨9, u.pa, u.bytes.length, BitVec.ofNat 64 (ofBytes u.bytes), 0, 7, 0, 1024⟩ w) w.uid

/-- Performs the chosen units of a store: one L1 store for each line (04 R85), or operations at the home. -/
def performUnits (s : State) (core : Nat) (w : Who) (us : List Unit8) : State :=
  let atHome := us.filter (fun u => (homeStoreWin s u.pa).isSome)
  let inL1 := us.filter (fun u => (homeStoreWin s u.pa).isNone)
  let s := atHome.foldl (fun s u => sendHomeStore s core w u) s
  ((inL1.map (fun u => u.pa / 128)).eraseDups).foldl (fun s line =>
    let mine := inL1.filter (fun u => u.pa / 128 == line)
    let mask := mine.foldl (fun m u => m ||| maskRange (u.pa % 128) u.bytes.length) 0#128
    let d := mine.foldl (fun a u => a ||| bytesAsLine (u.pa % 128) u.bytes) 0#1024
    storeLine s core line mask d w (mine.any (fun u => u.kind == 1))) s

/-- The lines that a store writes in L1. -/
def storeLines (s : State) (lanes : List LaneSegs) : List Nat :=
  ((lanes.flatMap (fun y => (lanePieces y.segs).map (·.line))).eraseDups).filter (fun l => (homeStoreWin s (l * 128)).isNone)

/-- L1 can take every line of a store (03 R57): the lines that it holds none of find room or a victim each. -/
def storeRoom (s : State) (core : Nat) (lines : List Nat) : Bool :=
  let new := lines.filter (fun l => (l1Find s core l).isNone)
  let free := ((List.range (l1Ways s core)).map (fun w =>
    2048 - (s.m.l1.filter (fun x => x.core == core && x.way == w)).length)).sum
  decide (new.length ≤ free + (l1Victims s core).countP (fun x => !lines.contains x.line))

/-- Writes lost to a peer that has stopped answering (18 R375). -/
def countLost (s : State) (n : Nat) : State := s.modMgmt (fun m => { m with linkwr := min (m.linkwr + n) (2 ^ 32 - 1) })

/-- Stores of some lanes: cached bytes by units; a grove's writes of device registers are dropped, lane by lane (02 R55;
18 R380); bytes for another module leave this one, or are lost to a peer that no longer answers, a write for each lane's run
(log entry 9). -/
def storeLanes (x : Gx) (bytewise : Bool) (lanes : List LaneSegs) (data : Nat → List Byte) : State :=
  let us := lanes.flatMap (fun y => laneUnits x.s bytewise y.segs (data y.lane))
  let c := chooseUnits x.s us
  let s := performUnits c.2 x.st.core x.who c.1
  lanes.foldl (fun s y => y.segs.foldl (fun s q =>
    if q.kind = 2 ∧ !isRemote q.pa then countDrop s q.pa else if peerDown s q.pa then countLost s 1 else s) s) s

/-! ## Releases (04 R92; 05 R112, R125; 13 R290) -/

/-- Everything that a release at a scope waits for: from cluster scope on, the grove's stores; at every scope, its range
write-backs (13 R290) and the reads of its `ldx` executions, which precede the release (05 R112). -/
def releaseQuiet (g : Grove) (scope : Nat) : Bool :=
  (decide (scope < 2) || g.outStores == 0) && g.outWbs == 0 && g.ldx.isEmpty

/-- The words of a KIND 0b01 line that a grove wrote. -/
def L1Line.hostWords (x : L1Line) (w : Who) : ByteMask :=
  wordsOf (x.k01.foldl (fun m k => if k.1 = w then m ||| k.2 else m) 0#128)

/-- No store under way names a word that a release of a grove pushes (log entry 121). -/
def pushReady (s : State) (w : Who) : Bool := s.m.l1.all (fun x => wbReady s x.core x.line (x.hostWords w))

/-- Sends home every registered word of a KIND 0b01 line that the grove `w` wrote, from the L1 of any core, as the grove may
have moved (04 R92, R98); `ack` waits for them. -/
def pushHost (s : State) (w ack : Who) : State :=
  (s.m.l1.filter (fun x => x.k01.any (fun k => k.1 == w))).foldl (fun s x =>
    let s := writeBack s x.core x.line (x.hostWords w) [ack] ack.uid
    s.modM (fun m => { m with l1 := m.l1.map (fun y =>
      if y.core = x.core ∧ y.line = x.line then { y with k01 := y.k01.filter (fun k => k.1 ≠ w) } else y) })) s

/-- Words of a host line are on their way from some L1 to the home. -/
def hostWbOut (s : State) : Bool :=
  s.m.toSlice.any (fun t => regionOf s (t.line * 128) == .host && (match t.req with
    | .wb .. => true
    | .data .. => true
    | _ => false))

/-- A release at a scope, then what follows it. At system scope the grove's words are sent home, and when no word of a host
line is on its way any more, the release waits behind the pushes that the link has yet to acknowledge (04 R92): `aux`
counts these steps. `others` are groves whose words go too. -/
def Gx.releasedWith (x : Gx) (others : List Who) (scope : Nat) (k : Gx → State) : State :=
  if !releaseQuiet x.g scope then x.hold .inside x.g
  else if scope ≠ 6 then k x
  else if x.g.prog.aux = 0 ∧ !(x.who :: others).all (pushReady x.s) then x.hold .inside x.g
  else
    let x := if x.g.prog.aux = 0 then
        let s := (x.who :: others).foldl (fun s w => pushHost s w x.who) x.s
        { x with s := s, g := { x.counts s x.g with prog := { x.g.prog with aux := 1 } } }
      else x
    if x.g.prog.aux = 1 then
      if x.g.outWbs ≠ 0 ∨ hostWbOut x.s then x.hold .inside x.g
      else if x.s.m.hostQ.isEmpty then k x
      else
        let s := addWbs x.s [x.who] 1
        (x.at (s.modM (fun m => { m with hostQ := m.hostQ ++ [.push 0 0 0 [x.who]] }))).hold .inside
          { x.counts s x.g with prog := { x.g.prog with aux := 3 } }
    else k x

/-- A release of the grove's own words. -/
def Gx.released (x : Gx) (scope : Nat) (k : Gx → State) : State := x.releasedWith [] scope k

/-- The scope of a fence or release under SCOPEPOL (05 R125); `none` is the SCOPE trap. -/
def clipScope (s : State) (part scope : Nat) : Option Nat × State :=
  let p := s.d.part part
  if scope = 6 ∧ p.scopeOn then
    (if p.scopeTrap then none else some 4, s.modPart part (fun p => { p with scopeclip := true }))
  else (some scope, s)

/-- A fence or release at a scope of the instruction (05 R125). -/
def Gx.clipped (x : Gx) (scope : Nat) (k : Gx → Nat → State) : State :=
  match clipScope x.s x.st.part scope with
  | (none, s) => (x.at s).trapAll cSCOPE 1 0
  | (some sc, s) => k (x.at s) sc

end Sys2Proof.Machine
end

