-- ==== Sys2Proof/Machine/Mem.lean ====
section
/-! DEFINITION. Loads and stores of a grove: global, scratch, masked, and the acquire, release and consume forms
(13 R276 to R281). -/

namespace Sys2Proof.Machine

/-! ## Addresses (13 R276) -/

/-- The global address of a lane. -/
def globalAddr (g : Grove) (b o : BitVec 8) (l : Nat) : Nat :=
  (baseVal g b l + o.signExtend 64 * BitVec.ofNat 64 (esize g.type)).toNat

/-- The scratch address of a lane (02 R32). -/
def scratchAddr (g : Grove) (b o : BitVec 8) (l : Nat) : Nat := globalAddr g b o l % 2 ^ 32

/-- Lanes whose address breaks an alignment (13 R277). -/
def misaligned (n : Nat) (va : Nat → Nat) (lanes : List Nat) : List LaneFault :=
  (lanes.filter (fun l => va l % n ≠ 0)).map (fun l => ⟨l, cALIGN, 3, BitVec.ofNat 64 (va l)⟩)

/-- The accesses of the other lanes. -/
def wants (n : Nat) (va : Nat → Nat) (len : Nat) (lanes : List Nat) : List Want :=
  (lanes.filter (fun l => va l % n = 0)).map (fun l => ⟨l, [(va l, len)]⟩)

/-! ## Loads -/

/-- Whether a load predicate matches a lane: its address, or its data. -/
def loadHits (scratch : Bool) (runs : Nat → List (Nat × Nat)) (data : Nat → List Word) (r : Rime) (l : Nat) : Bool :=
  addrHits r 0 scratch (runs l) || valueHits r true (64 * (data l).length) (wordsNat (data l))

/-- A global load when every line has been obtained. -/
def loadFinish (x : Gx) (d : BitVec 8) (va : Nat → Nat) (tn : Bool) (fin : Gx → State) : State :=
  let r := laneBytes x.st.part x.g.prog.got x.g.prog.segs x.s
  let dfs := r.1.filterMap (fun y => dataFault y.1 (va y.1) y.2)
  let good := (r.1.map (·.1)).filter (fun l => !dfs.any (fun f => f.lane == l))
  let bytes (l : Nat) : List Byte := match r.1.find? (fun y => y.1 == l) with
    | some y => y.2.map (·.1)
    | none => []
  let regs (l : Nat) : List Word := bytesRegs (bytes l) (opW d)
  let fs := x.g.prog.faults ++ dfs
  let runs (l : Nat) : List (Nat × Nat) := [(va l, 8 * opW d)]
  let w := watchMem (x.at r.2) good (!fs.isEmpty) (loadHits false runs regs)
  let m := laneMaskOf x.g.lam (fun l => good.contains l) &&& ~~~w.supp
  let g := x.g.mapLanes m (fun l ln => ln.setRegs (opNum d) (regs l) tn)
  let addr := match w.fired with
    | some f => watchAddr r.2 x.st (good.map (fun l => ⟨l, runs l⟩)) f
    | none => 0
  x.endMem g fs w addr fin

/-- A global load: translation, the lines, then the registers. `align` is the alignment that the form requires. -/
def loadOp (x : Gx) (d b o : BitVec 8) (align : Nat) (tn : Bool) (fin : Gx → State) : State :=
  let lanes := laneList x.g.lam x.en
  let va := globalAddr x.g b o
  x.translated accRead .load (wants align va (8 * opW d) lanes) (misaligned align va lanes) (fun x =>
    let x := if x.g.prog.phase = 1 then
        let x := (loadLines x.g.prog).foldl (loadLine (fun l => baseTaint x.g b l) (fun l => BitVec.ofNat 64 (va l))) x
        { x with g := { x.g with prog := { x.g.prog with phase := 2 } } }
      else x
    if x.g.prog.fills.isEmpty then loadFinish x d va tn fin else x.hold .data x.g)

def execLd (d b o : BitVec 8) (s : State) : Out State Fault Refusal :=
  groveInstr (.ld d b o) s (fun x => loadOp x d b o 8 false Gx.fin)
def execLdu (d b o : BitVec 8) (s : State) : Out State Fault Refusal :=
  groveInstr (.ldu d b o) s (fun x => loadOp x d b o 1 false Gx.fin)

/-! ## Stores -/

/-- Whether a store predicate matches a lane. -/
def storeHits (scratch : Bool) (runs : Nat → List (Nat × Nat)) (data : Nat → List Word) (r : Rime) (l : Nat) : Bool :=
  addrHits r 1 scratch (runs l) || valueHits r false (64 * (data l).length) (wordsNat (data l))

/-- The store data of a lane, special sources expanded (01 R20). -/
def storeRegs (g : Grove) (d : BitVec 8) (l : Nat) : List Word := srcRegs g d g.type (opW d) l

def regsBytes (ws : List Word) : List Byte := ws.flatMap (fun w => toBytes 8 w.toNat)

/-- A global store after translation; it waits while stores under way leave no room for its lines in L1 (03 R57). -/
def storeFinish (x : Gx) (bytewise : Bool) (runs : Nat → List (Nat × Nat)) (data : Nat → List Byte)
    (hit : Rime → Nat → Bool) : State :=
  let p := x.g.prog
  if !storeRoom x.s x.st.core (storeLines x.s p.segs) then x.hold .inside x.g else
  let good := p.segs.map (·.lane)
  let w := watchMem x good (!p.faults.isEmpty) hit
  let s := storeLanes { x with s := w.s } bytewise (p.segs.filter (fun y => !w.supp.getLsbD y.lane)) data
  let addr := match w.fired with
    | some f => watchAddr x.s x.st (good.map (fun l => ⟨l, runs l⟩)) f
    | none => 0
  x.endMem (x.counts s x.g) p.faults { w with s := s } addr Gx.fin

def storeOp (x : Gx) (d b o : BitVec 8) : State :=
  let lanes := laneList x.g.lam x.en
  let va := globalAddr x.g b o
  x.translated accWrite .store (wants 8 va (8 * opW d) lanes) (misaligned 8 va lanes) (fun x =>
    let runs (l : Nat) : List (Nat × Nat) := [(va l, 8 * opW d)]
    storeFinish x false runs (fun l => regsBytes (storeRegs x.g d l)) (storeHits false runs (storeRegs x.g d)))

def execSt (d b o : BitVec 8) (s : State) : Out State Fault Refusal :=
  groveInstr (.st d b o) s (fun x => storeOp x d b o)

/-! ## Masked stores (13 R281) -/

/-- Runs of set bits below `n`: start and length, rising. -/
def maskRuns (m n : Nat) : List (Nat × Nat) :=
  ((List.range n).foldl (fun (acc : List (Nat × Nat)) k =>
    if m.testBit k then
      match acc with
      | (a, c) :: rest => if a + c = k then (a, c + 1) :: rest else (k, 1) :: acc
      | [] => [(k, 1)]
    else acc) []).reverse

/-- A value predicate matches an element whose bytes are all selected. -/
def maskedHits (r : Rime) (m : Nat) (ws : List Word) : Bool :=
  let w := typeBits r.type
  (List.range (64 * ws.length / w)).any (fun j =>
    (List.range ((w + 7) / 8)).all (fun i => m.testBit (j * w / 8 + i)) &&
      valueHits r false w (wordsNat ws / 2 ^ (j * w)))

def stmOp (x : Gx) (d a b : BitVec 8) : State :=
  let n := 8 * opW d
  let mask (l : Nat) : Nat := (srcWhole x.g b false l).toNat % 2 ^ n
  let lanes := (laneList x.g.lam x.en).filter (fun l => mask l ≠ 0)
  let runs (l : Nat) : List (Nat × Nat) :=
    (maskRuns (mask l) n).map (fun q => (((baseVal x.g a l).toNat + q.1) % 2 ^ 64, q.2))
  x.translated accWrite .store (lanes.map (fun l => ⟨l, runs l⟩)) [] (fun x =>
    let bytes (l : Nat) : List Byte :=
      ((regsBytes (storeRegs x.g d l)).zipIdx.filter (fun q => (mask l).testBit q.2)).map (·.1)
    storeFinish x true runs bytes (fun r l => addrHits r 1 false (runs l) || maskedHits r (mask l) (storeRegs x.g d l)))

def execStm (d a b : BitVec 8) (s : State) : Out State Fault Refusal :=
  groveInstr (.stm d a b) s (fun x => stmOp x d a b)

/-! ## Scratch (02 R32) -/

/-- Lanes whose scratch access leaves the reservation. -/
def outside (st : Stand) (va : Nat → Nat) (len : Nat) (lanes : List Nat) : List LaneFault :=
  (lanes.filter (fun l => va l % 8 = 0 ∧ st.scratchSize < va l + len)).map (fun l => ⟨l, cBOUNDS, 2, 0⟩)

def scratchGood (st : Stand) (va : Nat → Nat) (len : Nat) (lanes : List Nat) : List Nat :=
  lanes.filter (fun l => va l % 8 = 0 ∧ va l + len ≤ st.scratchSize)

def ldsOp (x : Gx) (d b o : BitVec 8) : State :=
  let lanes := laneList x.g.lam x.en
  let va := scratchAddr x.g b o
  let n := 8 * opW d
  let fs := misaligned 8 va lanes ++ outside x.st va n lanes
  let good := scratchGood x.st va n lanes
  let regs (l : Nat) : List Word := bytesRegs (memBytes x.st.scratch (va l) n) (opW d)
  let runs (l : Nat) : List (Nat × Nat) := [(va l, n)]
  let w := watchMem x good (!fs.isEmpty) (loadHits true runs regs)
  let m := laneMaskOf x.g.lam (fun l => good.contains l) &&& ~~~w.supp
  let addr := match w.fired with
    | some f => watchAddr x.s x.st (good.map (fun l => ⟨l, runs l⟩)) f
    | none => 0
  x.endMem (x.g.mapLanes m (fun l ln => ln.setRegs (opNum d) (regs l) false)) fs w addr Gx.fin

def execLds (d b o : BitVec 8) (s : State) : Out State Fault Refusal :=
  groveInstr (.lds d b o) s (fun x => ldsOp x d b o)

/-- Writes lanes' 8-byte units into scratch; where lanes meet, one value is left (05 R106). -/
def scratchStore (s : State) (uid : Nat) (us : List Unit8) : State :=
  let c := chooseUnits s us
  c.2.modStand uid (fun st => { st with scratch := c.1.foldl (fun m u => memSetBytes m u.pa u.bytes) st.scratch })

def stsOp (x : Gx) (d b o : BitVec 8) : State :=
  let lanes := laneList x.g.lam x.en
  let va := scratchAddr x.g b o
  let n := 8 * opW d
  let fs := misaligned 8 va lanes ++ outside x.st va n lanes
  let good := scratchGood x.st va n lanes
  let runs (l : Nat) : List (Nat × Nat) := [(va l, n)]
  let w := watchMem x good (!fs.isEmpty) (storeHits true runs (storeRegs x.g d))
  let us := (good.filter (fun l => !w.supp.getLsbD l)).flatMap (fun l =>
    splitUnits 8 (opW d + 1) (va l) 0 (regsBytes (storeRegs x.g d l)))
  let addr := match w.fired with
    | some f => watchAddr x.s x.st (good.map (fun l => ⟨l, runs l⟩)) f
    | none => 0
  x.endMem x.g fs { w with s := scratchStore w.s x.st.uid us } addr Gx.fin

def execSts (d b o : BitVec 8) (s : State) : Out State Fault Refusal :=
  groveInstr (.sts d b o) s (fun x => stsOp x d b o)

/-! ## Acquire, release and consume forms (13 R280) -/

/-- `lda`: the cache effect follows the loads. -/
def ldaOp (x : Gx) (d b o : BitVec 8) (scope : Nat) : State :=
  loadOp x d b o 8 false (fun x => acquireAt x.fin x.st.core scope)

/-- `stl`: the release comes before the stores. -/
def stlOp (x : Gx) (d b o : BitVec 8) (scope : Nat) : State :=
  if x.g.prog.phase ≠ 0 ∨ x.g.prog.aux = 2 then storeOp x d b o
  else
    x.clipped scope (fun x sc => x.released sc (fun x =>
      storeOp { x with g := { x.g with prog := { x.g.prog with aux := 2 } } } d b o))

/-- `ldc`: the loaded registers are tainted (05 R121); at system scope, loads through them are not served by slice copies
of host memory filled before (05 R122). -/
def ldcOp (x : Gx) (d b o : BitVec 8) (scope : Nat) : State :=
  loadOp x d b o 8 true (fun x =>
    Gx.fin { x with g := { x.g with taintFence := if scope = 6 then x.s.stamp else x.g.taintFence } })

def execLdaGrove (d b o : BitVec 8) (s : State) : Out State Fault Refusal :=
  groveInstr (.ldaGrove d b o) s (fun x => ldaOp x d b o 0)
def execLdaStand (d b o : BitVec 8) (s : State) : Out State Fault Refusal :=
  groveInstr (.ldaStand d b o) s (fun x => ldaOp x d b o 1)
def execLdaCluster (d b o : BitVec 8) (s : State) : Out State Fault Refusal :=
  groveInstr (.ldaCluster d b o) s (fun x => ldaOp x d b o 2)
def execLdaDie (d b o : BitVec 8) (s : State) : Out State Fault Refusal :=
  groveInstr (.ldaDie d b o) s (fun x => ldaOp x d b o 3)
def execLdaPartition (d b o : BitVec 8) (s : State) : Out State Fault Refusal :=
  groveInstr (.ldaPartition d b o) s (fun x => ldaOp x d b o 4)
def execLdaDevice (d b o : BitVec 8) (s : State) : Out State Fault Refusal :=
  groveInstr (.ldaDevice d b o) s (fun x => ldaOp x d b o 5)
def execLdaSystem (d b o : BitVec 8) (s : State) : Out State Fault Refusal :=
  groveInstr (.ldaSystem d b o) s (fun x => ldaOp x d b o 6)

def execStlGrove (d b o : BitVec 8) (s : State) : Out State Fault Refusal :=
  groveInstr (.stlGrove d b o) s (fun x => stlOp x d b o 0)
def execStlStand (d b o : BitVec 8) (s : State) : Out State Fault Refusal :=
  groveInstr (.stlStand d b o) s (fun x => stlOp x d b o 1)
def execStlCluster (d b o : BitVec 8) (s : State) : Out State Fault Refusal :=
  groveInstr (.stlCluster d b o) s (fun x => stlOp x d b o 2)
def execStlDie (d b o : BitVec 8) (s : State) : Out State Fault Refusal :=
  groveInstr (.stlDie d b o) s (fun x => stlOp x d b o 3)
def execStlPartition (d b o : BitVec 8) (s : State) : Out State Fault Refusal :=
  groveInstr (.stlPartition d b o) s (fun x => stlOp x d b o 4)
def execStlDevice (d b o : BitVec 8) (s : State) : Out State Fault Refusal :=
  groveInstr (.stlDevice d b o) s (fun x => stlOp x d b o 5)
def execStlSystem (d b o : BitVec 8) (s : State) : Out State Fault Refusal :=
  groveInstr (.stlSystem d b o) s (fun x => stlOp x d b o 6)

def execLdcGrove (d b o : BitVec 8) (s : State) : Out State Fault Refusal :=
  groveInstr (.ldcGrove d b o) s (fun x => ldcOp x d b o 0)
def execLdcStand (d b o : BitVec 8) (s : State) : Out State Fault Refusal :=
  groveInstr (.ldcStand d b o) s (fun x => ldcOp x d b o 1)
def execLdcCluster (d b o : BitVec 8) (s : State) : Out State Fault Refusal :=
  groveInstr (.ldcCluster d b o) s (fun x => ldcOp x d b o 2)
def execLdcDie (d b o : BitVec 8) (s : State) : Out State Fault Refusal :=
  groveInstr (.ldcDie d b o) s (fun x => ldcOp x d b o 3)
def execLdcPartition (d b o : BitVec 8) (s : State) : Out State Fault Refusal :=
  groveInstr (.ldcPartition d b o) s (fun x => ldcOp x d b o 4)
def execLdcDevice (d b o : BitVec 8) (s : State) : Out State Fault Refusal :=
  groveInstr (.ldcDevice d b o) s (fun x => ldcOp x d b o 5)
def execLdcSystem (d b o : BitVec 8) (s : State) : Out State Fault Refusal :=
  groveInstr (.ldcSystem d b o) s (fun x => ldcOp x d b o 6)

end Sys2Proof.Machine
end

