-- ==== Sys2Proof/Machine/SplitLoad.lean ====
section
/-! DEFINITION. Split-phase loads and arrival counters (13 R282 to R285). -/

namespace Sys2Proof.Machine

/-- Adds one to an arrival counter. -/
def Grove.bumpAc (g : Grove) (n : Nat) : Grove := { g with ac := g.ac.setIfInBounds n (vget g.ac n 0 + 1) }

/-- An execution whose replies have all been written leaves the list; it counts once unless its issue trapped
(13 R283, R284). -/
def Grove.settleLdx (g : Grove) : Grove :=
  let ended := g.ldx.filter (fun e => e.lanes.isEmpty)
  let g := { g with ldx := g.ldx.filter (fun e => !e.lanes.isEmpty) }
  ended.foldl (fun g e => if e.counts then g.bumpAc e.ac else g) g

/-- The execution that an instruction takes over after a trap at its issue (13 R284). -/
def uncounted (g : Grove) : Option LdxExec := g.ldx.find? (fun e => !e.counts && e.pc == g.pc)

def ldxWidth (d : BitVec 8) (f : BitVec 1) (z : BitVec 2) : Nat := if f = 1#1 then 2 ^ z.toNat else opW d

/-- The lanes that read a device register do so in turn as the instruction executes (02 R55). -/
def readRegLanes (part : Nat) (lanes : List LdxLane) (s : State) : List LdxLane × State :=
  lanes.foldl (fun (acc : List LdxLane × State) l =>
    match l.segs with
    | [q] =>
      if q.kind = 2 ∧ !isRemote q.pa then
        let r := regRead acc.2 (.groveOf part) q.pa q.len
        (acc.1 ++ [{ l with val := some r.1 }], r.2)
      else (acc.1 ++ [l], acc.2)
    | _ => (acc.1 ++ [l], acc.2)) ([], s)

/-- The bytes of a lane's reply: those of the register that it has read, or of its lines. -/
def ldxBytes (part : Nat) (l : LdxLane) (s : State) : List (Byte × Bool × Bool) × State :=
  match l.val with
  | some v => ((toBytes (l.segs.map (·.len)).sum v).map (fun b => (b, false, false)), s)
  | none => l.segs.foldl (fun (a : List (Byte × Bool × Bool) × State) q =>
      let b := runBytes part l.got a.2 q
      (a.1 ++ b.1, b.2)) ([], s)

/-- The issue of `ldx` after translation. -/
def ldxIssue (x : Gx) (d b : BitVec 8) (f : BitVec 1) (z : BitVec 2) (c : BitVec 4) : State :=
  let n := 8 * ldxWidth d f z
  let p := x.g.prog
  let land_ (l : Nat) : Nat := (srcWhole x.g d true l).toNat % 2 ^ 32
  let out := if f = 1#1 then (p.segs.map (·.lane)).filter (fun l => x.st.scratchSize < land_ l + n) else []
  let fs := p.faults ++ out.map (fun l => ⟨l, cBOUNDS, 2, 0⟩)
  let clean := p.segs.filter (fun y => !out.contains y.lane)
  let va (l : Nat) : Word := baseVal x.g b l
  let runs (l : Nat) : List (Nat × Nat) := [((va l).toNat, n)]
  let w := watchMem x (clean.map (·.lane)) (!fs.isEmpty) (fun r l => addrHits r 0 false (runs l))
  let counts := fs.isEmpty && (match w.fired with | some a => a.act == 1 | none => true)
  let mine : List LdxLane := (clean.filter (fun y => !w.supp.getLsbD y.lane)).map (fun y =>
    ⟨y.lane, va y.lane, y.segs, if f = 1#1 then land_ y.lane else 0, baseTaint x.g b y.lane, false, [], [], none⟩)
  let addr := match w.fired with
    | some a => watchAddr x.s x.st (clean.map (fun y => ⟨y.lane, runs y.lane⟩)) a
    | none => 0
  let mine := readRegLanes x.st.part mine w.s
  let w := { w with s := mine.2 }
  let e : LdxExec := match uncounted x.g with
    | some e => { e with lanes := e.lanes ++ mine.1, counts := counts }
    | none => ⟨x.s.nextId, x.g.pc, c.toNat, f == 1#1, d, n / 8, mine.1, counts⟩
  let g := { x.g with ldx := x.g.ldx.filter (fun (y : LdxExec) => y.id ≠ e.id) ++ [e] }
  x.endMem g.settleLdx fs { w with s := { w.s with nextId := w.s.nextId + 1 } } addr Gx.fin

def ldxOp (x : Gx) (d b : BitVec 8) (f : BitVec 1) (z : BitVec 2) (c : BitVec 4) : State :=
  if x.g.prog.phase = 0 ∧ 64 ≤ x.g.ldx.length ∧ (uncounted x.g).isNone then x.hold .score x.g
  else
    let lanes := laneList x.g.lam x.en
    let va (l : Nat) : Nat := (baseVal x.g b l).toNat
    x.translated accRead .load (wants 8 va (8 * ldxWidth d f z) lanes) (misaligned 8 va lanes)
      (fun x => ldxIssue x d b f z c)

def execLdx (d b : BitVec 8) (f : BitVec 1) (z : BitVec 2) (c : BitVec 4) (s : State) : Out State Fault Refusal :=
  groveInstr (.ldx d b f z c) s (fun x => ldxOp x d b f z c)

/-- The wait on an arrival counter (13 R285), and the errors of the replies it covers (R284). -/
def waitaOp (x : Gx) (n : Nat) (t : BitVec 32) : State :=
  if 2 ^ 31 ≤ (vget x.g.ac n 0 - t).toNat then x.hold .memory x.g
  else
    let es := x.g.ldxErrs.filter (fun e => e.ac == n)
    if es.isEmpty then x.fin else x.ldxTrap es

def execWaita (s : BitVec 1) (n : BitVec 4) (t : BitVec 16) (st : State) : Out State Fault Refusal :=
  groveInstr (.waita s n t) st (fun x =>
    waitaOp x n.toNat (if s = 1#1 then (sGet x.g (t.toNat % 32)).setWidth 32 else t.setWidth 32))

end Sys2Proof.Machine
end

