-- ==== Sys2Proof/Machine/Atomic.lean ====
section
/-! DEFINITION. Atomics (04 R102, R103; 05 R106, R117, R127; 13 R286, R287), fences and range instructions (13 R288 to
R292). -/

namespace Sys2Proof.Machine

/-! ## Atomics -/

/-- What stops a lane's atomic before it performs: the host's AtomicOps (05 R127), a module that no longer answers. -/
def atomFault (x : Gx) (op : Nat) (va : Nat → Nat) (y : LaneSegs) : Option LaneFault :=
  match y.segs with
  | q :: _ =>
    if isRemote q.pa then
      if peerDown x.s q.pa then some ⟨y.lane, cPOISON, 0, BitVec.ofNat 64 (va y.lane)⟩ else none
    else if q.kind = 1 then
      if !x.s.d.mgmt.atomics then some ⟨y.lane, cHOSTATOMIC, 1, BitVec.ofNat 64 (va y.lane)⟩
      else if op = 0 ∨ op = 6 ∨ op = 7 then none
      else some ⟨y.lane, cHOSTATOMIC, 2, BitVec.ofNat 64 (va y.lane)⟩
    else none
  | [] => none

/-- The operation of a lane. -/
def laneOp (x : Gx) (op : Nat) (b : BitVec 8) (l pa : Nat) : HomeOp :=
  let t := x.g.type
  let rs := (srcRegs x.g b t (opW b) l).map (fun w => BitVec.ofNat 64 (w.toNat % 2 ^ typeBits t))
  ⟨op, pa, typeBits t / 8, rs.getD 0 0, rs.getD 1 0, t, x.g.rnd, l⟩

/-- Puts entries in an unspecified order (05 R106; log entry 4). -/
def shuffle {α : Type} (l : List α) (s : State) : List α × State :=
  l.foldl (fun (acc : List α × State) y =>
    let f := acc.2.freeWord
    (acc.1.insertIdx (f.1.toNat % (acc.1.length + 1)) y, f.2)) ([], s)

/-- Lanes in the order in which they act: free where two name one element. -/
def atomOrder (ys : List LaneSegs) (s : State) : List LaneSegs × State :=
  if (ys.map (fun y => (y.segs.headD ⟨0, 0, 0⟩).pa)).Nodup then (ys, s) else shuffle ys s

/-- The marks of an element's words in an L1 line (04 R103). -/
def pulledBits (op : HomeOp) : BitVec 64 :=
  let w := op.addr % 128 / 4
  if op.size = 8 then (1#64 <<< w) ||| (1#64 <<< (w + 1)) ||| (1#64 <<< (32 + w)) ||| (1#64 <<< (33 + w))
  else 1#64 <<< w

/-- Marks of pulled words end with the core's next atomic on their element (04 R103). -/
def clearPulled (s : State) (core : Nat) (op : HomeOp) : State :=
  match l1Find s core (op.addr / 128) with
  | some x => l1Put s { x with pulled := x.pulled &&& ~~~pulledBits op }
  | none => s

/-- An atomic executed in the core's L1, which holds every byte of its element registered (04 R102). -/
def localAtomic (s : State) (x : L1Line) (op : HomeOp) (old : Nat) (pulled : Bool) : FFlags × State :=
  let off := op.addr % 128
  let r := atomicNew op old
  let x := { x with pulled := if pulled then x.pulled ||| pulledBits op else x.pulled &&& ~~~pulledBits op }
  (r.2, match r.1 with
    | some v => performLocal s x (maskRange off op.size) (bytesAsLine off (toBytes op.size v))
    | none => l1Put s x)

/-- A register request of the core for some bytes is on its way, or its grant (04 R84). -/
def regOut (s : State) (core line : Nat) (m : ByteMask) : Bool :=
  let covers (q : Req) : Bool := match q with | .reg k _ => maskSub m k | _ => false
  s.m.toSlice.any (fun t => t.core == core && t.line == line && covers t.req) ||
    s.m.lineWaits.any (fun t => t.core == core && t.line == line && covers t.req) ||
    s.m.toCore.any (fun t => t.core == core && t.line == line &&
      (match t.rep with | .grant k _ => maskSub m k | _ => false))

/-! ## Predicates of the old element (17 R357; log entry 127) -/

/-- A predicate compares the old elements of this atomic. -/
def oldWatched (x : Gx) : Bool :=
  watchOn x.g && ((x.s.d.core x.st.core).rime.any (fun r => r.watches x.st && r.kind == 2 && r.vdir))

/-- A lane's element can be compared: its line is ready, and no store of the core to it is under way. -/
def oldReady (x : Gx) (n : Nat) (q : Seg) : Bool :=
  let m := wordsOf (maskRange (q.pa % 128) n)
  isRemote q.pa || (spanReady x.s q.pa n (partOfCore x.s x.st.core) && !homeOpOut x.s x.st.core (q.pa / 128) &&
    !regOut x.s x.st.core (q.pa / 128) 0 &&
    (match l1Find x.s x.st.core (q.pa / 128) with | some y => y.pendMask &&& m == 0#128 | none => true))

/-- What the lines of the elements that cannot be compared yet wait for is asked for. -/
def oldAsk (x : Gx) (n : Nat) : State :=
  x.g.prog.segs.foldl (fun s y => match y.segs with
    | q :: _ => if isRemote q.pa then s else spanAsk s q.pa n true (2 * x.st.part)
    | [] => s) x.s

/-- A poisoned or lost element cannot be compared: its lane faults. -/
def oldFault (x : Gx) (n : Nat) (va : Nat → Nat) (y : LaneSegs) : Option LaneFault :=
  match y.segs with
  | q :: _ => if isRemote q.pa || q.kind == 1 then none else dataFault y.lane (va y.lane) (curBytes x.s q.pa n)
  | [] => none

/-- The elements as they are, by address; another module's is a free value (log entry 9). -/
def oldValues (x : Gx) (n : Nat) (ys : List LaneSegs) : List (Nat × Nat) × State :=
  ys.foldl (fun (acc : List (Nat × Nat) × State) y =>
    let pa := (y.segs.headD ⟨0, 0, 0⟩).pa
    if isRemote pa then
      let f := acc.2.freeWord
      (spSet 0 acc.1 pa (f.1.toNat % 2 ^ (8 * n)), f.2)
    else (spSet 0 acc.1 pa (curNat acc.2 pa n), acc.2)) ([], x.s)

/-- The old element of each lane when the lanes act in their order and those that `stop` holds of are suppressed. -/
def oldChain (new : LaneSegs → Nat → Option Nat) (stop : Nat → Bool) (vals : List (Nat × Nat)) (ys : List LaneSegs) :
    List (Nat × Nat) :=
  (ys.foldl (fun (acc : List (Nat × Nat) × List (Nat × Nat)) y =>
    let pa := (y.segs.headD ⟨0, 0, 0⟩).pa
    let old := spGet 0 acc.1 pa
    (match if stop old then none else new y old with
      | some v => spSet 0 acc.1 pa v
      | none => acc.1, acc.2 ++ [(y.lane, old)])) (vals, [])).2

/-- The old elements under the action that they fire: the lanes that predicate `f` matches are suppressed, and leave their
element to the lanes after them. -/
def oldSeen (x : Gx) (new : LaneSegs → Nat → Option Nat) (n : Nat) (hit : (Nat → Nat) → Rime → Nat → Bool)
    (vals : List (Nat × Nat)) (ys : List LaneSegs) : Nat → Option Nat → Nat → Nat
  | 0, _ => fun _ => 0
  | fuel + 1, f =>
    let stop (old : Nat) : Bool := match f with
      | some k => valueHits ((x.s.d.core x.st.core).rime.getD k Rime.reset) true (8 * n) old
      | none => false
    let olds := spGet 0 (oldChain new stop vals ys)
    let f' := (watchCount x.s x.st x.g (ys.map (·.lane)) (hit olds)).2.map (·.num)
    if f' = f ∨ fuel = 0 then olds else oldSeen x new n hit vals ys fuel f'

/-- The start of an atomic: faults, the lanes' order, watching. A lane of another module whose old element has been compared
has its reply. -/
def atomStart (x : Gx) (op : Nat) (b : BitVec 8) (va : Nat → Nat) : Gx :=
  let p := x.g.prog
  let w := typeBits x.g.type
  let n := w / 8
  let ow := oldWatched x
  let bad := p.segs.filterMap (fun y => (atomFault x op va y).or (if ow then oldFault x n va y else none))
  let fs := p.faults ++ bad
  let r := atomOrder (p.segs.filter (fun y => !bad.any (fun f => f.lane == y.lane))) x.s
  let o (y : LaneSegs) : HomeOp := laneOp x op b y.lane (y.segs.headD ⟨0, 0, 0⟩).pa
  let hit (old : Nat → Nat) (k : Rime) (l : Nat) : Bool :=
    let q := laneOp x op b l 0
    addrHits k 0 false [(va l, n)] || addrHits k 1 false [(va l, n)] ||
      valueHits k false (if op = 7 then 2 * w else w) (q.x.toNat + 2 ^ w * q.y.toNat) || (ow && valueHits k true w (old l))
  let v := if ow then oldValues (x.at r.2) n r.1 else ([], r.2)
  let x := x.at v.2
  let olds := if ow then oldSeen x (fun y old => (atomicNew (o y) old).1) n hit v.1 r.1 18 none else fun _ => 0
  let wd := watchMem x (r.1.map (·.lane)) (!fs.isEmpty) (hit olds)
  let go := r.1.filter (fun y => !wd.supp.getLsbD y.lane)
  { x with
    s := wd.s
    g := { x.g with prog := { p with
      phase := 2
      segs := go
      faults := fs
      watched := wd.supp
      replies := if ow then (go.filter (fun y => isRemote (y.segs.headD ⟨0, 0, 0⟩).pa)).map (fun y =>
          (y.lane, BitVec.ofNat 64 (olds y.lane), (atomicNew (o y) (olds y.lane)).2))
        else p.replies
      aux := match wd.fired with | some f => firedCode f.num f.act | none => 0 } } }

def getPred (s : State) (core i : Nat) : Nat := spGet 0 (s.d.core core).preds i

/-- A home execution counts in the predictor (04 R103). -/
def predHome (s : State) (core i : Nat) : State :=
  s.modCore core (fun c =>
    let h := (spGet 0 c.predHc i + 1) % 16
    { c with
      predHc := spSet 0 c.predHc i h
      preds := if h = 0 then spSet 0 c.preds i (spGet 0 c.preds i - 1) else c.preds })

def Gx.sentTo (x : Gx) (s : State) (l : Nat) : Gx :=
  { x with s := s, g := { x.g with prog := { x.g.prog with sent := x.g.prog.sent ||| (1#1024 <<< l) } } }

def Gx.replied (x : Gx) (s : State) (l old : Nat) (f : FFlags) : Gx :=
  { x with s := s, g := { x.g with prog := { x.g.prog with
      replies := x.g.prog.replies ++ [(l, BitVec.ofNat 64 old, f)] } } }

/-- A lane of an atomic faults as its operation comes to execute; `k` is the first byte concerned. -/
def Gx.laneBad (x : Gx) (l code k : Nat) : Gx :=
  { x with g := { x.g with prog := { x.g.prog with faults := x.g.prog.faults ++ [⟨l, code, 0, BitVec.ofNat 64 k⟩] } } }

/-- Sends an atomic to the home. -/
def sendAtomic (x : Gx) (op : HomeOp) : State :=
  sendSlice (addOut (homeOpPrep (clearPulled x.s x.st.core op) x.st.core (op.addr / 128)) x.who 1) x.st.core (op.addr / 128)
    (.atom op x.who) x.st.uid

/-- Asks for an element's words to be registered to the core, whose L1 can take the line. -/
def pullWords (x : Gx) (line : Nat) (m : ByteMask) : State :=
  let r := l1Take x.s x.st.core line x.st.uid
  sendSlice (addOut (l1Put r.2 { r.1 with pend := r.1.pend ++ [⟨m, 0, 0⟩] }) x.who 1) x.st.core line (.reg m x.who) x.st.uid

/-- A lane's atomic on words that its core's L1 holds. -/
def laneLocal (x : Gx) (l1 : L1Line) (o : HomeOp) (i : Nat) : Gx :=
  let off := o.addr % 128
  let pulled := x.g.prog.done.getLsbD o.lane
  let old := ofBytes (lineBytes l1.data off o.size)
  match dataFault o.lane 0 ((List.range o.size).map (fun k =>
      (0, l1.poison.getLsbD (off + k) || removedAt x.s o.addr, l1.lost.getLsbD (off + k)))) with
  | some f => x.laneBad o.lane f.code f.addr.toNat
  | none =>
    let r := localAtomic x.s l1 o old pulled
    x.replied (if pulled then r.2 else r.2.modCore x.st.core (fun c =>
      { c with preds := spSet 0 c.preds i (spGet 0 c.preds i - 1) })) o.lane old r.1

/-- A lane's atomic on normal memory (04 R102, R103). Words registered for some of their bytes only are registered whole
first; a store of the core to them that is under way is awaited. -/
def laneCoherent (x : Gx) (o : HomeOp) : Gx :=
  let line := o.addr / 128
  let m := wordsOf (maskRange (o.addr % 128) o.size)
  let i := predIndex o.addr
  let l1 := (l1Find x.s x.st.core line).getD (L1Line.empty x.st.core line 0)
  if l1.pendMask &&& m != 0#128 then x
  else if maskSub m l1.reg then laneLocal x l1 o i
  else if regOut x.s x.st.core line m then x
  else if !maskSub m (wordsOf l1.reg) && decide (2 ≤ getPred x.s x.st.core i) then
    x.sentTo (predHome (sendAtomic x o) x.st.core i) o.lane
  else if !l1HasRoom x.s x.st.core line then x
  else
    { x with
      s := pullWords x line m
      g := if maskSub m (wordsOf l1.reg) then x.g
        else { x.g with prog := { x.g.prog with done := x.g.prog.done ||| (1#1024 <<< o.lane) } } }

/-- A lane's atomic on host memory (05 R127): the core's own words of the element go home first, and its copies of the line
are dropped, so that it sees its own stores and what the atomic leaves (05 R107). -/
def laneHost (x : Gx) (o : HomeOp) : Gx :=
  let line := o.addr / 128
  let m := wordsOf (maskRange (o.addr % 128) o.size)
  let l1 := (l1Find x.s x.st.core line).getD (L1Line.empty x.st.core line 0)
  if l1.pendMask &&& m != 0#128 || regOut x.s x.st.core line 0 then x
  else if wordsOf l1.reg &&& m != 0#128 then x.at (writeBack x.s x.st.core line m [] x.st.uid)
  else if inFlight x.s x.st.core line &&& m != 0#128 then x
  else
    x.sentTo ((addOut (homeOpPrep x.s x.st.core line) x.who 1).modM (fun k => { k with hostQ := k.hostQ ++ [.atom o x.who] }))
      o.lane

/-- One lane of an atomic acts, is sent, or waits (04 R102, R103; 13 R287). -/
def atomLane (op : Nat) (b : BitVec 8) (x : Gx) (y : LaneSegs) : Gx :=
  let p := x.g.prog
  if p.sent.getLsbD y.lane || p.watched.getLsbD y.lane || p.replies.any (fun r => r.1 == y.lane) ||
      p.faults.any (fun f => f.lane == y.lane) then x
  else
    match y.segs with
    | [] => x
    | q :: _ =>
      let o := laneOp x op b y.lane q.pa
      if isRemote q.pa then
        let f := x.s.freeWord
        let old := f.1.toNat % 2 ^ typeBits o.type
        x.replied f.2 y.lane old (atomicNew o old).2
      else if q.kind = 1 then laneHost x o
      else if (windowAt x.s q.pa).isSome then x.sentTo (sendAtomic x o) y.lane
      else laneCoherent x o

/-- The end of `atom.fadd` (06 R135; 17 R356, R358): predicates of kind 3 count the lanes that executed. Their action, after
the writes, gives way to a trap of other lanes, but for parking; it follows an action of kinds 0 to 2 with a smaller ACT, whose
lanes are then suppressed or parked too (log entry 100, DESIGN CHOICE: 17 R357 names the larger ACT, and no rule says what
becomes of lanes that the other predicate has suppressed). -/
def faddFinish (x : Gx) (g : Grove) (fs : List LaneFault) (w : Watched) (addr : Word) (done : LaneMask) (fl : Nat → FFlags) :
    State :=
  let q := ({ x with s := w.s, en := done } : Gx).flagWatch g.lam fl
  let w := { w with s := q.1 }
  match q.2 with
  | none => x.endMem g fs w addr Gx.fin
  | some f =>
    let parked : Grove := if f.act = 1 then g.park f.lanes else g
    match w.fired with
    | none =>
      if fs.isEmpty then flagAction q.1 x.st.uid g.retire f x.g.pc else x.endMem parked fs w addr Gx.fin
    | some k =>
      if f.act ≤ k.act ∨ !fs.isEmpty then x.endMem parked fs w addr Gx.fin
      else if k.act = 1 then flagAction q.1 x.st.uid (g.park k.lanes).retire f x.g.pc
      else debugHalt q.1 x.st.uid { g.stopped with supp := k.lanes } (f.act == 4) f.num x.g.pc

/-- An atomic whose lanes have all replied, faulted or been suppressed. -/
def atomFinish (x : Gx) (op : Nat) (d : BitVec 8) (va : Nat → Nat) : State :=
  let p := x.g.prog
  let reply (l : Nat) : Option (Nat × Word × BitVec 5) := p.replies.find? (fun r => r.1 == l)
  let fl (l : Nat) : FFlags := match reply l with | some r => r.2.2 | none => 0
  let m := laneMaskOf x.g.lam (fun l => (reply l).isSome)
  let g := x.counts x.s (x.g.mapLanes m (fun l ln => match reply l with
    | some r => (ln.setRegs (opNum d) [r.2.1] false).addFlags r.2.2
    | none => ln))
  let g := { g with fpflags := p.replies.foldl (fun a r => a ||| r.2.2) g.fpflags }
  let fs := p.faults.map (fun f => if p.segs.any (fun y => y.lane == f.lane) then
    { f with addr := BitVec.ofNat 64 (va f.lane) + f.addr } else f)
  let fired : Option Fired :=
    if p.aux = 0 ∨ 2 ≤ (p.aux - 1) % 8 ∧ !fs.isEmpty then none else some ⟨(p.aux - 1) / 8, (p.aux - 1) % 8, p.watched⟩
  let addr := match fired with
    | some f => watchAddr x.s x.st ((laneList x.g.lam x.en).map (fun l => ⟨l, [(va l, typeBits x.g.type / 8)]⟩)) f
    | none => 0
  if op = 8 then faddFinish x g fs ⟨x.s, p.watched, fired⟩ addr m fl
  else x.endMem g fs ⟨x.s, p.watched, fired⟩ addr Gx.fin

/-- A skid instruction that would trap is not executed (16 R344). -/
def atomSkids (x : Gx) : Bool :=
  x.s.skidding && (!x.g.prog.faults.isEmpty || (x.g.prog.aux != 0 && (x.g.prog.aux - 1) % 8 == 2))

def atomOp (x : Gx) (op : Nat) (d a b : BitVec 8) : State :=
  let lanes := laneList x.g.lam x.en
  let va (l : Nat) : Nat := (baseVal x.g a l).toNat
  let n := typeBits x.g.type / 8
  x.translated accWrite .atomic (wants n va n lanes) (misaligned n va lanes) (fun x =>
    let first := x.g.prog.phase == 1
    if first && oldWatched x && !x.g.prog.segs.all (fun y => oldReady x n (y.segs.headD ⟨0, 0, 0⟩)) then
      (x.at (oldAsk x n)).hold .data x.g
    else
    let x := if first then atomStart x op b va else x
    if first && atomSkids x then { x.s with skidStop := true }
    else
      let x := x.g.prog.segs.foldl (atomLane op b) x
      let p := x.g.prog
      if p.segs.all (fun y => p.watched.getLsbD y.lane || p.replies.any (fun r => r.1 == y.lane) ||
          p.faults.any (fun f => f.lane == y.lane)) then
        atomFinish x op d va
      else x.hold .data (x.counts x.s x.g))

def execAtomAdd (d a b : BitVec 8) (s : State) : Out State Fault Refusal :=
  groveInstr (.atomAdd d a b) s (fun x => atomOp x 0 d a b)
def execAtomMin (d a b : BitVec 8) (s : State) : Out State Fault Refusal :=
  groveInstr (.atomMin d a b) s (fun x => atomOp x 1 d a b)
def execAtomMax (d a b : BitVec 8) (s : State) : Out State Fault Refusal :=
  groveInstr (.atomMax d a b) s (fun x => atomOp x 2 d a b)
def execAtomAnd (d a b : BitVec 8) (s : State) : Out State Fault Refusal :=
  groveInstr (.atomAnd d a b) s (fun x => atomOp x 3 d a b)
def execAtomOr (d a b : BitVec 8) (s : State) : Out State Fault Refusal :=
  groveInstr (.atomOr d a b) s (fun x => atomOp x 4 d a b)
def execAtomXor (d a b : BitVec 8) (s : State) : Out State Fault Refusal :=
  groveInstr (.atomXor d a b) s (fun x => atomOp x 5 d a b)
def execAtomXchg (d a b : BitVec 8) (s : State) : Out State Fault Refusal :=
  groveInstr (.atomXchg d a b) s (fun x => atomOp x 6 d a b)
def execAtomCas (d a b : BitVec 8) (s : State) : Out State Fault Refusal :=
  groveInstr (.atomCas d a b) s (fun x => atomOp x 7 d a b)
def execAtomFadd (d a b : BitVec 8) (s : State) : Out State Fault Refusal :=
  groveInstr (.atomFadd d a b) s (fun x => atomOp x 8 d a b)

/-! ## Fences (13 R288) -/

def execFence (sc : BitVec 3) (s : State) : Out State Fault Refusal :=
  groveInstr (.fence sc) s (fun x => x.clipped sc.toNat (fun x scope => x.released scope (fun x =>
    acquireAt x.fin x.st.core scope)))

/-! ## Ranges (13 R289 to R292) -/

/-- The 4 KiB pieces of the lanes' ranges (13 R289). -/
def rangeRuns (x : Gx) (a b : BitVec 8) : List (Nat × Nat) :=
  (laneList x.g.lam x.en).flatMap (fun l =>
    let n := (srcWhole x.g b false l).toNat % 2 ^ 32
    pageRuns (n / 4096 + 2) (baseVal x.g a l).toNat n)

/-- Translates the pages of a range for read, skipping those that fault, then acts on the physical spans. -/
def Gx.spans (x : Gx) (a b : BitVec 8) (k : Gx → List (Nat × Nat) → State) : State :=
  let u := x.st.mmu true x.g.slot
  let rs := (rangeRuns x a b).map (fun r => (r, lookup x.s u r.1 accRead))
  let missing := rs.filterMap (fun r => match r.2 with | .miss => some r.1.1 | _ => none)
  if missing.isEmpty then
    k (x.at (dropAsks x.s x.who)) (rs.filterMap (fun r => match r.2 with
      | .ok pa _ => if isRemote pa then none else some (pa, r.1.2)
      | _ => none))
  else (x.at (missing.foldl (fun s va => queueWalk s u va accRead) x.s)).hold .inside x.g

/-- The bytes of a line that spans cover. -/
def spanMask (line : Nat) (spans : List (Nat × Nat)) : ByteMask :=
  spans.foldl (fun m q => m ||| runMask line q.1 q.2) 0#128

/-- A grove waits too for the write-backs of its core that are on their way with words of the range: those words are
registered until they are taken (04 R87, R93). -/
def joinWbs (s : State) (core : Nat) (w : Who) (spans : List (Nat × Nat)) : State :=
  let hit (t : ToSlice) : Bool := t.core == core && (match t.req with
    | .wb mask _ _ ws => mask &&& spanMask t.line spans != 0#128 && !ws.contains w
    | _ => false)
  let n := s.m.toSlice.countP hit
  (addWbs s [w] n).modM (fun m => { m with toSlice := m.toSlice.map (fun t =>
    if hit t then
      match t.req with
      | .wb mask bs clean ws => { t with req := .wb mask bs clean (ws ++ [w]) }
      | _ => t
    else t) })

/-- No store under way names a registered word of the range (log entry 121). -/
def spansReady (s : State) (core : Nat) (spans : List (Nat × Nat)) : Bool :=
  s.m.l1.all (fun y => y.core != core || wbReady s core y.line (wordsOf (spanMask y.line spans)))

/-- The write-back of 04 R93. -/
def wbSpans (x : Gx) (spans : List (Nat × Nat)) : State :=
  (x.s.m.l1.filter (fun y => y.core == x.st.core && spanMask y.line spans != 0#128)).foldl (fun s y =>
    writeBack s x.st.core y.line (wordsOf (spanMask y.line spans)) [x.who] x.st.uid) (joinWbs x.s x.st.core x.who spans)

def execWbRange (a b : BitVec 8) (s : State) : Out State Fault Refusal :=
  groveInstr (.wbRange a b) s (fun x =>
    if x.g.outStores ≠ 0 then x.hold .inside x.g
    else x.spans a b (fun x spans =>
      if !spansReady x.s x.st.core spans then x.hold .inside x.g
      else
        let s := wbSpans x spans
        (x.at s).done (x.counts s x.g)))

/-- The invalidation of 04 R94. -/
def invSpans (s : State) (core : Nat) (spans : List (Nat × Nat)) : State :=
  let lines := (s.m.l1.filter (fun y => y.core == core)).map (·.line) ++
    (s.m.l2.filter (fun y => y.visitor.isSome)).map (·.line) ++ s.m.hostLines.map (·.line) ++
    (s.m.fills.filter (fun f => coreDie f.core == coreDie core)).map (·.line)
  (lines.eraseDups.filter (fun l => spanMask l spans != 0#128)).foldl (fun s l => invalidateLine s core l) s

def execInvRange (a b : BitVec 8) (s : State) : Out State Fault Refusal :=
  groveInstr (.invRange a b) s (fun x =>
    if !x.g.ldx.isEmpty then x.hold .score x.g
    else x.spans a b (fun x spans => (x.at (invSpans x.s x.st.core spans)).fin))

end Sys2Proof.Machine
end

