-- ==== Sys2Proof/Machine/Float.lean ====
section
/-! DEFINITION. Floating point, special functions, conversions and packed dot products (12 R258 to R268). -/

namespace Sys2Proof.Machine

/-! ## Element-wise forms (12 R258) -/

/-- The results and flags of one lane: `f` takes format, rounding and the elements x, y, z. -/
def floatResult (g : Grove) (d a b : BitVec 8) (f : Fmt → Nat → Nat → Nat → Nat → Nat × FFlags) (l : Nat) :
    List Word × FFlags :=
  let t := g.type
  let w := opW d
  let xs := elems t (srcRegs g a t w l)
  let ys := elems t (srcRegs g b t w l)
  let zs := elems t (if opNum d < 56 then srcRegs g d t w l else List.replicate w 0)
  let rs := (xs.zip (ys.zip zs)).map (fun e => f (fmtOf t) g.rnd e.1 e.2.1 e.2.2)
  (packElems t w (rs.map (·.1)), rs.foldl (fun a r => a ||| r.2) 0)

/-- An element-wise floating form: taint cleared, flags in the lane and in FPFLAGS. -/
def floatOp (x : Gx) (d a b : BitVec 8) (f : Fmt → Nat → Nat → Nat → Nat → Nat × FFlags) : State :=
  x.lanesFlags (fun l ln => ln.setRegs (opNum d) (floatResult x.g d a b f l).1 false)
    (fun l => (floatResult x.g d a b f l).2)

def execFadd (d a b : BitVec 8) (s : State) : Out State Fault Refusal :=
  groveInstr (.fadd d a b) s (fun x => floatOp x d a b (fun f m p q _ => fAdd f m p q))
def execFsub (d a b : BitVec 8) (s : State) : Out State Fault Refusal :=
  groveInstr (.fsub d a b) s (fun x => floatOp x d a b (fun f m p q _ => fSub f m p q))
def execFmul (d a b : BitVec 8) (s : State) : Out State Fault Refusal :=
  groveInstr (.fmul d a b) s (fun x => floatOp x d a b (fun f m p q _ => fMul f m p q))
def execFma (d a b : BitVec 8) (s : State) : Out State Fault Refusal :=
  groveInstr (.fma d a b) s (fun x => floatOp x d a b (fun f m p q z => fMa f m false p q z))
def execFnma (d a b : BitVec 8) (s : State) : Out State Fault Refusal :=
  groveInstr (.fnma d a b) s (fun x => floatOp x d a b (fun f m p q z => fMa f m true p q z))
def execFmin (d a b : BitVec 8) (s : State) : Out State Fault Refusal :=
  groveInstr (.fmin d a b) s (fun x => floatOp x d a b (fun f _ p q _ => fMinMax f false p q))
def execFmax (d a b : BitVec 8) (s : State) : Out State Fault Refusal :=
  groveInstr (.fmax d a b) s (fun x => floatOp x d a b (fun f _ p q _ => fMinMax f true p q))
/-- The sign bit cleared; no flag. -/
def execFabs (d a : BitVec 8) (s : State) : Out State Fault Refusal :=
  groveInstr (.fabs d a) s (fun x => floatOp x d a 56 (fun f _ p _ _ => (p % 2 ^ (f.mb + f.eb), 0)))
/-- The sign bit inverted; no flag. -/
def execFneg (d a : BitVec 8) (s : State) : Out State Fault Refusal :=
  groveInstr (.fneg d a) s (fun x => floatOp x d a 56 (fun f _ p _ _ => (p ^^^ 2 ^ (f.mb + f.eb), 0)))
def execFclass (d a : BitVec 8) (s : State) : Out State Fault Refusal :=
  groveInstr (.fclass d a) s (fun x => floatOp x d a 56 (fun f _ p _ _ => (fClass f p, 0)))
def execFdiv (d a b : BitVec 8) (s : State) : Out State Fault Refusal :=
  groveInstr (.fdiv d a b) s (fun x => floatOp x d a b (fun f m p q _ => fDiv f m p q))
def execFsqrt (d a : BitVec 8) (s : State) : Out State Fault Refusal :=
  groveInstr (.fsqrt d a) s (fun x => floatOp x d a 56 (fun f m p _ _ => fSqrt f m p))
def execFrcp (d a : BitVec 8) (s : State) : Out State Fault Refusal :=
  groveInstr (.frcp d a) s (fun x => floatOp x d a 56 (fun _ _ p _ _ => sfuOp 4 x.g.type p))
def execFrsq (d a : BitVec 8) (s : State) : Out State Fault Refusal :=
  groveInstr (.frsq d a) s (fun x => floatOp x d a 56 (fun _ _ p _ _ => sfuOp 5 x.g.type p))
def execExp2 (d a : BitVec 8) (s : State) : Out State Fault Refusal :=
  groveInstr (.exp2 d a) s (fun x => floatOp x d a 56 (fun _ _ p _ _ => sfuOp 0 x.g.type p))
def execLog2 (d a : BitVec 8) (s : State) : Out State Fault Refusal :=
  groveInstr (.log2 d a) s (fun x => floatOp x d a 56 (fun _ _ p _ _ => sfuOp 1 x.g.type p))
def execSinpi (d a : BitVec 8) (s : State) : Out State Fault Refusal :=
  groveInstr (.sinpi d a) s (fun x => floatOp x d a 56 (fun _ _ p _ _ => sfuOp 2 x.g.type p))
def execCospi (d a : BitVec 8) (s : State) : Out State Fault Refusal :=
  groveInstr (.cospi d a) s (fun x => floatOp x d a 56 (fun _ _ p _ _ => sfuOp 3 x.g.type p))

/-! ## Compares (12 R261) -/

/-- p[d] from the pairs of elements; NV as `nv` says of a pair. -/
def fcmpOp (x : Gx) (d a b : BitVec 8) (every : Bool) (rel nv : FVal → FVal → Bool) : State :=
  let f := fmtOf x.g.type
  let pairs (l : Nat) : List (FVal × FVal) :=
    ((elems x.g.type (srcRegs x.g a x.g.type (opW a) l)).zip
      (elems x.g.type (srcRegs x.g b x.g.type (opW a) l))).map (fun e => (f.decode e.1, f.decode e.2))
  x.lanesFlags
    (fun l ln => ln.setP (opNum d) (if every then (pairs l).all (fun e => rel e.1 e.2)
      else (pairs l).any (fun e => rel e.1 e.2)))
    (fun l => if (pairs l).any (fun e => nv e.1 e.2) then fNV else 0)

def anySNaN (x y : FVal) : Bool := x.isSNaN || y.isSNaN
def anyNaN (x y : FVal) : Bool := x.isNaN || y.isNaN

def execFcmpEq (d a b : BitVec 8) (s : State) : Out State Fault Refusal :=
  groveInstr (.fcmpEq d a b) s (fun x => fcmpOp x d a b true fEq anySNaN)
def execFcmpNe (d a b : BitVec 8) (s : State) : Out State Fault Refusal :=
  groveInstr (.fcmpNe d a b) s (fun x => fcmpOp x d a b false (fun p q => !fEq p q) anySNaN)
def execFcmpLt (d a b : BitVec 8) (s : State) : Out State Fault Refusal :=
  groveInstr (.fcmpLt d a b) s (fun x => fcmpOp x d a b true fLt anyNaN)
def execFcmpLe (d a b : BitVec 8) (s : State) : Out State Fault Refusal :=
  groveInstr (.fcmpLe d a b) s (fun x => fcmpOp x d a b true (fun p q => fLt p q || fEq p q) anyNaN)
def execFcmpGt (d a b : BitVec 8) (s : State) : Out State Fault Refusal :=
  groveInstr (.fcmpGt d a b) s (fun x => fcmpOp x d a b true (fun p q => fLt q p) anyNaN)
def execFcmpGe (d a b : BitVec 8) (s : State) : Out State Fault Refusal :=
  groveInstr (.fcmpGe d a b) s (fun x => fcmpOp x d a b true (fun p q => fLt q p || fEq p q) anyNaN)
def execFcmpUn (d a b : BitVec 8) (s : State) : Out State Fault Refusal :=
  groveInstr (.fcmpUn d a b) s (fun x => fcmpOp x d a b false anyNaN anySNaN)

/-! ## Conversions (12 R264, R265) -/

/-- Elements of a under STYPE `st` become elements of d under MODE.TYPE. -/
def cvtOp (x : Gx) (d a : BitVec 8) (st : Nat) (f : Nat → Nat × FFlags) : State :=
  let t := x.g.type
  let res (l : Nat) : List (Nat × FFlags) :=
    let src := if opNum a < 56 then elems st (srcRegs x.g a st (opW a) l)
      else (List.range (opW d * typeCount t)).map (fun j =>
        if opNum a = 59 then j % typeCount st
        else (special x.g st (opNum a) l).toNat % 2 ^ typeBits st)
    src.map f
  x.lanesFlags (fun l ln => ln.setRegs (opNum d) (packElems t (opW d) ((res l).map (·.1))) false)
    (fun l => (res l).foldl (fun a r => a ||| r.2) 0)

/-- An element of type `st` delivered in format `f` (06 R138, R139). -/
def cvtToF (f : Fmt) (st rnd : Nat) (sat : Bool) (v : Nat) : Nat × FFlags :=
  if st < 8 then cvtIF f rnd sat (intVal st v) else cvtFF f (fmtOf st) rnd sat ((fmtOf st).decode v)

def execCvtF (d a : BitVec 8) (st : BitVec 4) (s : State) : Out State Fault Refusal :=
  groveInstr (.cvtF d a st) s (fun x => cvtOp x d a st.toNat (cvtToF (fmtOf x.g.type) st.toNat x.g.rnd false))
def execCvtI (d a : BitVec 8) (st : BitVec 4) (s : State) : Out State Fault Refusal :=
  groveInstr (.cvtI d a st) s (fun x => cvtOp x d a st.toNat
    (fun v => cvtFI x.g.type x.g.rnd ((fmtOf st.toNat).decode v)))
/-- The .sat form; from a type to itself an infinity is copied (12 R265; log entry 89). -/
def cvt8SatEl (t st rnd v : Nat) : Nat × FFlags :=
  match (fmtOf st).decode v with
  | .inf n => if t = st then ((fmtOf t).infBits n, 0) else cvtToF (fmtOf t) st rnd true v
  | _ => cvtToF (fmtOf t) st rnd true v

def execCvt8Sat (d a : BitVec 8) (st : BitVec 4) (s : State) : Out State Fault Refusal :=
  groveInstr (.cvt8Sat d a st) s (fun x => cvtOp x d a st.toNat (cvt8SatEl x.g.type st.toNat x.g.rnd))
def execCvt8Inf (d a : BitVec 8) (st : BitVec 4) (s : State) : Out State Fault Refusal :=
  groveInstr (.cvt8Inf d a st) s (fun x => cvtOp x d a st.toNat (cvtToF (fmtOf x.g.type) st.toNat x.g.rnd false))

/-! ## `cvtq` (12 R266) -/

/-- |q| > 7.5 for a finite q. -/
def above75 (m : Nat) (e : Int) : Bool :=
  if -1 ≤ e then decide (15 < m * 2 ^ (e + 1).toNat) else decide (15 * 2 ^ (-e - 1).toNat < m)

/-- Quant of one slot value: the code and flags. -/
def quantCode (rnd : Nat) (sigma : Int) (v : FVal) : Nat × FFlags :=
  match v with
  | .nan .. => (0, fNV)
  | .inf n => (if n then 9 else 7, fNV)
  | .fin n m e =>
    if above75 m (e - sigma) then (if n then 9 else 7, fNV)
    else
      let r := roundInt rnd n m (e - sigma)
      let c : Int := if 7 < r.1 then 7 else if r.1 < -7 then -7 else r.1
      (wrap 4 c, if r.2 || c != r.1 then fNX else 0)

/-- One quad of slots (12 R266): an escape gives up slots j+1 and j+2. -/
def quantQuad (rnd : Nat) (sigma : Int) (q : List FVal) : List Nat × FFlags :=
  let at_ (k : Nat) : FVal := q.getD k (.fin false 0 0)
  let esc := match at_ 0 with
    | .nan .. => true
    | .inf _ => true
    | .fin _ m e => above75 m (e - sigma)
  if esc then
    let o := match at_ 0 with
      | .fin n m e => (fmtOf 12).roundVal rnd true n m (e - sigma) false
      | v => cvtFF (fmtOf 12) (fmtOf 9) rnd true v
    let last := quantCode rnd sigma (at_ 3)
    let lossy := !(at_ 1).isZero || !(at_ 2).isZero
    ([8, o.1 / 16, o.1 % 16, last.1], o.2 ||| last.2 ||| (if lossy then fNX else 0))
  else
    let rs := (List.range 4).map (fun k => quantCode rnd sigma (at_ k))
    (rs.map (·.1), rs.foldl (fun a r => a ||| r.2) 0)

/-- CvtQ of 32 bf16 values. -/
def quantGroup (rnd : Nat) (sigma : Int) (xs : List Nat) : List Nat × FFlags :=
  let vs := xs.map (fmtOf 9).decode
  let qs := (List.range 8).map (fun k => quantQuad rnd sigma ((vs.drop (4 * k)).take 4))
  (qs.flatMap (·.1), qs.foldl (fun a r => a ||| r.2) 0)

def execCvtq (d a b : BitVec 8) (s : State) : Out State Fault Refusal :=
  groveInstr (.cvtq d a b) s (fun x =>
    let res (l : Nat) := quantGroup x.g.rnd (sextNat 8 (srcWhole x.g b true l).toNat) (elems 9 (srcRegs x.g a 9 8 l))
    x.lanesFlags (fun l ln => ln.setRegs (opNum d) (packElems 14 2 (res l).1) false) (fun l => (res l).2))

/-! ## `cvta` (12 R267) -/

def tileKey (c slot : Nat) : Nat := c * 12288 + slot
def tileSlot (st : Stand) (c slot : Nat) : Word := spGet 0 st.tiles (tileKey c slot)

/-- An `mma` or `mma.sp` on a tile is in progress in the stand's sequencer (10 R227). -/
def tileBusy (st : Stand) (c : Nat) : Bool :=
  st.seq.ops.any (fun o => o.tile == c && o.kind != 2 && o.started)

def cvtaOp (x : Gx) (d a b : BitVec 8) (sat : Bool) : State :=
  let t := x.g.type
  let c := opNum a
  let n := opW d * typeCount t
  if tileBusy x.st c then x.hold .score x.g
  else
    let bad := laneMaskOf x.g.lam (fun l => x.en.getLsbD l &&
      decide (12288 ≤ (srcWhole x.g b false l).toNat + n - 1))
    if bad ≠ 0#1024 then x.trap cBOUNDS 9 bad 0
    else
      let res (l : Nat) := (List.range n).map (fun j =>
        cvtSlot t x.g.rnd sat (tileSlot x.st c ((srcWhole x.g b false l).toNat + j)))
      x.lanesFlags (fun l ln => ln.setRegs (opNum d) (packElems t (opW d) ((res l).map (·.1))) false)
        (fun l => (res l).foldl (fun a r => a ||| r.2) 0)

def execCvtaSat (d a b : BitVec 8) (s : State) : Out State Fault Refusal :=
  groveInstr (.cvtaSat d a b) s (fun x => cvtaOp x d a b true)
def execCvtaInf (d a b : BitVec 8) (s : State) : Out State Fault Refusal :=
  groveInstr (.cvtaInf d a b) s (fun x => cvtaOp x d a b false)

/-! ## Packed dot products (12 R268) -/

/-- z + Σ x·y, one rounding into f32: NaNs in the order of the pairs, then z. -/
def dotRound (src : Fmt) (rnd : Nat) (ps : List (Nat × Nat)) (z : Nat) : Nat × FFlags :=
  let f := fmtOf 10
  let vs := ps.map (fun p => (src.decode p.1, src.decode p.2))
  let zv := f.decode z
  let nv := vs.any (fun p => mulInvalid p.1 p.2)
  let srcs := vs.flatMap (fun p => [p.1, p.2])
  let sn : FFlags := if srcs.any FVal.isSNaN || zv.isSNaN || nv then fNV else 0
  match srcs.find? FVal.isNaN with
  | some (.nan n _ fr) => (f.nanFrom src n fr, sn)
  | _ =>
    match zv with
    | .nan n _ fr => (f.nanFrom f n fr, sn)
    | _ =>
      if nv then invalid f
      else sumRound f rnd (vs.filterMap (fun p => mulVal p.1 p.2) ++ [zv])

def dotOp (x : Gx) (d a b : BitVec 8) (grp : Nat) : State :=
  let t := x.g.type
  let w := opW d
  let res (l : Nat) : List (Nat × FFlags) :=
    let xs := elems t (srcRegs x.g a t w l)
    let ys := elems t (srcRegs x.g b t w l)
    let zs := elems 10 (if opNum d < 56 then srcRegs x.g d 10 w l else List.replicate w 0)
    zs.zipIdx.map (fun (z, k) =>
      dotRound (fmtOf t) x.g.rnd (((xs.zip ys).drop (grp * k)).take grp) z)
  x.lanesFlags (fun l ln => ln.setRegs (opNum d) (packElems 10 w ((res l).map (·.1))) false)
    (fun l => (res l).foldl (fun a r => a ||| r.2) 0)

def execFdot (d a b : BitVec 8) (s : State) : Out State Fault Refusal :=
  groveInstr (.fdot d a b) s (fun x => dotOp x d a b 2)
def execFdot8 (d a b : BitVec 8) (s : State) : Out State Fault Refusal :=
  groveInstr (.fdot8 d a b) s (fun x => dotOp x d a b 4)

end Sys2Proof.Machine
end

