-- ==== Sys2Proof/Machine/Stage.lean ====
section
/-! DEFINITION. How a program comes to run in a state where none is placed (log entry 16): a stand of one grove on core 0
whose code page holds the instruction, standing for a partition's creation, a launch and a placement. -/

namespace Sys2Proof.Machine

def Shape.single : Shape where
  groves := 1
  lanes := 32
  regs := 56
  tiles := 1
  bins := 1
  recw := 1
  nx := 1
  ny := 1
  nz := 1
  bintime := 4096
  domain := 0
  prio := 0
  drift := false
  deadline := 270000
  entry := 0x10000
  mentry := none
  cores := 192
  stands := 1536
  pool := 2 ^ 32 - 8
  scratch := 2 ^ 32 - 256
  bwtok := 0xFFFF
  floeList := 0
  floes := [⟨2, 0, 1, 0⟩]

def Record.zero : Record := ⟨0, false, 0, false, 0, 0, false, false, 0⟩

/-- A sequencer at placement (14 R297): idle without an entry; x0 to x3 hold the arguments. -/
def Seqr.start (entry : Option Word) (args : List Word) : Seqr where
  mpc := entry.getD 0
  mtype := 12
  x := Vector.ofFn (fun i : Fin 8 => args.getD i 0)
  q := Vector.replicate 16 Record.zero
  openOps := 0
  barLast := List.replicate 16 none
  run := if entry.isSome then 1 else 0
  wait := none
  again := 0
  ops := []

def CopyCtx.start (groves : Nat) : CopyCtx := ⟨[], 0, [], [], false, false,
  List.replicate groves []⟩

/-- A stand as placement makes it (09 R205). -/
def Stand.start (uid part clnum index core sslot lcore order : Nat) (sh : Shape) (args : List Word) (ptroot : Word)
    (asid scratchBase scratchSize : Nat) : Stand where
  uid := uid
  part := part
  clnum := clnum
  index := index
  core := core
  sslot := sslot
  lcore := lcore
  order := order
  shape := sh
  args := args
  ptroot := ptroot
  asid := asid
  scratchBase := scratchBase
  scratchSize := scratchSize
  scratch := []
  tiles := []
  floes := sh.floes
  barriers := List.replicate 16 Barrier.zero
  tlc := ⟨0, 0⟩
  tlm := ⟨0, 0⟩
  batches := []
  mbatches := []
  seq := Seqr.start sh.mentry args
  copy := CopyCtx.start sh.groves
  bins := List.replicate sh.bins ⟨none, [], 0, none⟩
  binOrder := 0
  halt := none
  dbgHalt := false
  preq := false
  preqCount := 0
  preqForce := false
  sampK := 0
  sampCount := 0
  bwUsed := 0
  saving := false
  dying := false
  freed := []
  groves := (List.range sh.groves).map (fun i =>
    Grove.start i sh.lanes sh.regs sh.entry (laneCount sh.lanes) args 0 0 [])

/-- The clearing of the staged stand. -/
def Clearing.single (part id : Nat) : Clearing := ⟨part, 0, id, none, 0xFFFF, 0, 2, 0, Shape.single, [0, 0, 0, 0], 0, 0,
  0x20000, 0, 0, 0, [], 0⟩

/-- Stores the instruction's bytes in a code page and gives the next turn to the grove, or to the sequencer for a word
of the matrix stream. -/
def stageWord (s : State) (w : Nat) : State :=
  let bs := bytesOf 12 w
  let uid := s.nextId
  let mx := tableIsMatrix bs
  let sh := { Shape.single with mentry := if mx then some (0x10000 : Word) else none }
  let st := Stand.start uid 0 0 0 0 0 0 uid sh [0, 0, 0, 0] 0 0 0 256
  let page : TlbEntry := ⟨0, 0, 0, 0x10, 0x10000, 4096, 0x10000, 0, false, true, true, true, true, true, true, true⟩
  let s := engineWrite s 0x10000 bs
  let s := s.modPart 0 (fun p => { p with alive := true, halves := 2 ^ 32 - 1, lmin := 1, lmax := 4, l2ways := 0xFFF })
  let s := s.modM (fun m => { m with tlb := page :: m.tlb })
  let s := s.modD (fun d => { d with clearings := d.clearings ++ [Clearing.single 0 (uid + 1)] })
  { s with
    nextId := uid + 2
    stands := s.stands ++ [st]
    agenda := (if mx then .seq uid else .grove uid 0) :: s.agenda }

end Sys2Proof.Machine
end

