-- ==== Sys2Proof/Machine/Launch.lean ====
section
/-! DEFINITION. Launches, the global dispatcher and the die dispatchers (08 R177, R181 to R185; 09 R197 to R206), and
accesses of the device's engines to virtual memory. -/

namespace Sys2Proof.Machine

/-! ## Engine accesses (02 R34, R41, R42) -/

/-- An engine access translated, the first byte at which it faults, or a page or a line that is not there yet. -/
inductive EngTr where
  | ok (segs : List Seg)
  | fault (code detail addr : Nat)
  | wait
deriving DecidableEq, Repr

/-- The checks on an engine's run (02 R46, R51, R55): no page of KIND 0b10 (15 R336), no hole, no window or coded range
that is not its partition's. No rule gives an engine's access an alignment. -/
def engCheck (s : State) (part pa len kind : Nat) (use : Use) : Option (Nat × Nat × Nat) :=
  if kind = 2 then some (cPROT, 5, 0)
  else [2, 3, 4, 5].findSome? (pieceFault s part use false pa len kind)

/-- Translates an engine's access to consecutive addresses, page by page. A page that misses is walked (02 R45), and the
engine waits. -/
def engTranslate (s : State) (u : Mmu) (va len acc : Nat) (use : Use) : EngTr × State :=
  (pageRuns (len / 4096 + 2) va len).foldl (fun (st : EngTr × State) r =>
    match st.1 with
    | .fault .. => st
    | .wait => st
    | .ok segs =>
      match lookup st.2 u r.1 acc with
      | .ok pa kind =>
        (match engCheck st.2 u.part pa r.2 kind use with
         | some (c, d, i) => (.fault c d (r.1 + i), st.2)
         | none => (.ok (segs ++ [⟨pa, r.2, kind⟩]), st.2))
      | .fault f => (.fault f.code f.detail r.1, st.2)
      | .miss => (.wait, queueWalk st.2 u r.1 acc)) (.ok [], s)

/-- Free bytes, for data of another module (log entry 9). -/
def freeBytes (s : State) (n : Nat) : List Byte × State :=
  (List.range ((n + 7) / 8)).foldl (fun (acc : List Byte × State) i =>
    let f := acc.2.freeWord
    (acc.1 ++ (toBytes 8 f.1.toNat).take (n - 8 * i), f.2)) ([], s)

/-- Current bytes of physical runs, as an engine reads them, with poison and lost marks. -/
def engBytes (s : State) (segs : List Seg) : List (Byte × Bool × Bool) × State :=
  segs.foldl (fun (acc : List (Byte × Bool × Bool) × State) q =>
    if isRemote q.pa then
      let f := freeBytes acc.2 q.len
      (acc.1 ++ f.1.map (fun b => (b, peerDown s q.pa, false)), f.2)
    else (acc.1 ++ curBytes acc.2 q.pa q.len, acc.2)) ([], s)

/-- The local runs of an access. -/
def localSegs (segs : List Seg) : List Seg := segs.filter (fun q => !isRemote q.pa)

/-- Every line of some runs can be served at its home now. -/
def segsReady (s : State) (part : Nat) (segs : List Seg) : Bool :=
  (localSegs segs).all (fun q => spanReady s q.pa q.len part)

/-- What an access of some runs that waits starts. -/
def segsAsk (s : State) (part : Nat) (write : Bool) (segs : List Seg) : State :=
  (localSegs segs).foldl (fun s q => spanAsk s q.pa q.len write (2 * part)) s

/-- An access of every line of some runs. -/
def segsAccess (s : State) (part : Nat) (segs : List Seg) : State :=
  (localSegs segs).foldl (fun s q => spanAccess s q.pa q.len part true) s

/-- An engine's read of consecutive addresses as one access (09 R197): its bytes with their runs, a fault, or a wait. -/
def engRead (s : State) (u : Mmu) (va len : Nat) : (EngTr × List (Byte × Bool × Bool)) × State :=
  match engTranslate s u va len accRead .load with
  | (.ok segs, s) =>
    if segsReady s u.part segs then
      let r := engBytes (segsAccess s u.part segs) segs
      ((.ok segs, r.1), r.2)
    else ((.wait, []), segsAsk s u.part false segs)
  | r => ((r.1, []), r.2)

/-! ## A core's resources (03 R58, R64; 08 R174, R177) -/

def standsOn (s : State) (core : Nat) : List Stand := s.stands.filter (fun st => st.core == core)

/-- Slots that a shape reserves (08 R174). -/
def Shape.pool_ (sh : Shape) : Nat := sh.groves * sh.lanes * sh.regs + sh.tiles * 12288 + sh.bins * sh.lanes * sh.recw

/-- Scratch bytes of a shape (01 R26). -/
def Shape.scratchBytes (sh : Shape) : Nat := 256 * sh.floes.foldl (fun a f => max a (f.offset + f.size)) 0

/-- Top of a core's scratch space: while a conversion runs, what is scratch before and after it (03 R62). -/
def scratchTop (s : State) (core : Nat) : Nat :=
  let c := s.d.core core
  (16 - (match c.conv with | some v => max c.l1cur v.target | none => c.l1cur)) * 262144

/-- A run of scratch that no resident stand holds. -/
def runFree (sts : List Stand) (base size : Nat) : Bool :=
  sts.all (fun st => st.scratchSize == 0 || decide (base + size ≤ st.scratchBase ∨ st.scratchBase + st.scratchSize ≤ base))

/-- Where a run of scratch can begin: at 0 or behind a resident stand. -/
def runStarts (sts : List Stand) : List Nat := 0 :: sts.map (fun st => st.scratchBase + st.scratchSize)

/-- A free run of scratch of a size, for the stands that stay (03 R58): the lowest (log entry 101, DESIGN CHOICE: neither
03 R58 nor 09 R205 says which free run a placement takes). -/
def scratchBase? (s : State) (core size : Nat) (sts : List Stand) : Option Nat :=
  (runStarts sts).foldl (fun (b : Option Nat) a =>
    if runFree sts a size ∧ a + size ≤ scratchTop s core then
      match b with
      | some x => some (min x a)
      | none => some a
    else b) none

/-- What the stands that stay leave free on a core: lanes, grove slots, pool slots, floe entries. -/
def freeOf (sts : List Stand) : Nat × Nat × Nat × Nat :=
  (4096 - (sts.map (fun st => st.shape.groves * st.shape.lanes)).sum,
   32 - (sts.map (fun st => st.shape.groves)).sum,
   262144 - (sts.map (fun st => st.shape.pool_)).sum,
   64 - (sts.map (fun st => st.shape.floes.length)).sum)

/-- A core with some stands resident admits a shape (08 R177). -/
def admits (s : State) (core : Nat) (sh : Shape) (sts : List Stand) : Bool :=
  let f := freeOf sts
  decide (sts.length < 8 ∧ sh.groves * sh.lanes ≤ f.1 ∧ sh.groves ≤ f.2.1 ∧ sh.pool_ ≤ f.2.2.1 ∧
    sh.floes.length ≤ f.2.2.2) && (scratchBase? s core sh.scratchBytes sts).isSome

/-- A core that a retirement in progress empties (18 R382). -/
def inRetirement (s : State) (core : Nat) : Bool :=
  s.d.mgmt.mboxBusy && s.d.mgmt.mboxOp == 2 && s.d.mgmt.mboxArg == core

/-- Cores of a partition that can hold stands: not retired, not quarantined (18 R382; 04 R99). -/
def coresOf (s : State) (part : Nat) : List Nat :=
  (List.range 192).filter (fun c => partOfCore s c == part && !(s.d.core c).retired && !(s.d.core c).quarantined &&
    !inRetirement s c)

/-! ## The clearing block (08 R181 to R183) -/

/-- A field of the block, given as dwords. -/
def blockField (dw : List Nat) (off hi lo : Nat) : Nat := bits (dw.getD (off / 8) 0) hi lo

/-- The bits that the block layout lists at each of its dwords (08 R181). -/
def listedBits (i : Nat) : Nat :=
  match i with
  | 0 => (2 ^ 31 - 1) * 2 ^ 17
  | 1 => 2 ^ 48 - 1
  | 2 => 2 ^ 32 - 2
  | 3 => 2 ^ 32 - 1
  | 4 | 5 | 10 | 12 | 13 | 14 | 15 => 2 ^ 64 - 1
  | 6 => 0xFF000007FF
  | 7 => 2 ^ 32 - 1
  | 8 => 2 ^ 32 - 1
  | 9 => 2 ^ 16 - 1
  | 11 => 2 ^ 7 - 1
  | 28 => 0xFFFFFFFF0F0F
  | 29 => 2 ^ 48 - 1
  | 30 | 31 => 2 ^ 64 - 1
  | _ => 0

def reservedSet (dw : List Nat) : Bool :=
  (List.range 32).any (fun i => dw.getD i 0 &&& (2 ^ 64 - 1 - listedBits i) != 0)

/-- A resolved field: the block's value, or the inherited one when it is 0 (08 R182). -/
def resolved (v inherited : Nat) : Nat := if v = 0 then inherited else v

/-- The fields of a block as written, resolved against the parent or the device defaults. FLOES counts one more than
the floes. -/
structure Resolved where
  shape : Shape
  nfloes : Nat
  ok : Bool

def resolveBlock (s : State) (part : Nat) (dw : List Nat) (parent : Option Shape) : Resolved :=
  let f (off hi lo : Nat) (fromP : Shape → Nat) (dflt : Nat) : Nat :=
    resolved (blockField dw off hi lo) (match parent with | some p => fromP p | none => dflt)
  let budget (v : Nat) (fromP : Shape → Nat) : Nat := match parent with | some p => min v (fromP p) | none => v
  let cs := coresOf s part
  let groves := f 0x00 47 43 (·.groves) 1
  let lw := f 0x00 42 37 (fun p => p.lanes / 32) 1
  let regs := f 0x00 36 31 (·.regs) 56
  let tiles := f 0x00 30 26 (fun p => p.tiles + 1) 1
  let bins := f 0x00 25 21 (fun p => p.bins + 1) 1
  let recw := f 0x00 20 17 (·.recw) 1
  let domain := f 0x10 15 7 (fun p => p.domain + 1) 1
  let prio := f 0x10 6 3 (fun p => p.prio + 1) 1
  let drift := f 0x10 2 1 (fun p => if p.drift then 2 else 1) 1
  let entry := f 0x20 63 0 (fun p => p.entry.toNat) 0
  let mentry := f 0x28 63 0 (fun p => match p.mentry with | some m => m.toNat | none => 1) 1
  let cores := budget (f 0x30 39 32 (·.cores) cs.length) (·.cores)
  let stands := budget (f 0x30 10 0 (·.stands) 1536) (·.stands)
  let pool := budget (f 0x38 31 0 (·.pool) (8 * 262144 * cs.length)) (·.pool)
  let scratch := budget (f 0x40 31 0 (·.scratch) (cs.map (fun c => (16 - (s.d.core c).l1cur) * 262144)).sum) (·.scratch)
  let floeList := f 0x50 63 0 (fun p => p.floeList.toNat) 0
  let nfl := f 0x58 6 0 (fun p => p.floes.length + 1) 1
  { nfloes := nfl - 1
    shape := {
      groves := groves
      lanes := 32 * lw
      regs := regs
      tiles := tiles - 1
      bins := bins - 1
      recw := recw
      nx := f 0x08 15 0 (·.nx) 1
      ny := f 0x08 31 16 (·.ny) 1
      nz := f 0x08 47 32 (·.nz) 1
      bintime := f 0x10 31 16 (·.bintime) 4096
      domain := domain - 1
      prio := prio - 1
      drift := drift == 2
      deadline := f 0x18 31 0 (·.deadline) 270000
      entry := BitVec.ofNat 64 entry
      mentry := if mentry = 1 then none else some (BitVec.ofNat 64 mentry)
      cores := cores
      stands := stands
      pool := pool
      scratch := scratch
      bwtok := budget (f 0x48 15 0 (·.bwtok) 0xFFFF) (·.bwtok)
      floeList := BitVec.ofNat 64 floeList
      floes := [] }
    ok := decide (1 ≤ groves ∧ groves ≤ 16 ∧ 1 ≤ lw ∧ lw ≤ 32 ∧ 1 ≤ regs ∧ regs ≤ 56 ∧ tiles ≤ 17 ∧ bins ≤ 17 ∧
        1 ≤ recw ∧ recw ≤ 8 ∧ domain ≤ 256 ∧ prio ≤ 8 ∧ drift ≤ 2 ∧ 1 ≤ cores ∧ cores ≤ 192 ∧
        1 ≤ stands ∧ stands ≤ 1536 ∧ pool % 8 = 0 ∧ scratch % 256 = 0 ∧ nfl ≤ 65) &&
      !reservedSet dw && entry != 0 && entry % 4 == 0 && canonical entry &&
      floeList % 4 == 0 && canonical floeList }

/-- The floes of a list, or none when it is malformed (03 R65, R67; 08 R181): every defined floe lies in the scratch
that the list itself needs, and no two overlap. -/
def parseFloes (ents : List Nat) : Option (List Floe) :=
  let fs := ents.map (fun e => (⟨if bits e 29 16 = 0 then 0 else 2, 0, bits e 29 16, bits e 15 0⟩ : Floe))
  let meet (a b : Floe) : Bool := a.size != 0 && b.size != 0 &&
    decide (a.offset < b.offset + b.size ∧ b.offset < a.offset + a.size)
  let bad := ents.any (fun e => bits e 31 30 != 0 || decide (15360 < bits e 29 16)) ||
    (List.range fs.length).any (fun i => (List.range i).any (fun j =>
      meet (fs.getD i ⟨0, 0, 0, 0⟩) (fs.getD j ⟨0, 0, 0, 0⟩)))
  if bad then none else some (fs.map (fun f => if f.size = 0 then ⟨0, 0, 0, 0⟩ else f))

/-! ## A launch (09 R197, R199, R200) -/

/-- How a launch ends: RESULT of 09 R200 (6 stands for depth 8), the clearing number, the fault of a read. -/
structure LaunchEnd where
  result : Nat
  clnum : Nat
  fault : Option (Nat × Nat × Nat)
deriving DecidableEq, Repr

def dwordsOf : List Byte → Nat → List Nat
  | _, 0 => []
  | bs, n + 1 => ofBytes (bs.take 8) :: dwordsOf (bs.drop 8) n

def wordsOf32 : List Byte → Nat → List Nat
  | _, 0 => []
  | bs, n + 1 => ofBytes (bs.take 4) :: wordsOf32 (bs.drop 4) n

/-- The lowest clearing number that no live clearing of the partition holds. -/
def freeClearing (s : State) (part : Nat) : Option Nat :=
  let live := (s.d.clearings.filter (fun c => c.part == part && c.isLive)).map (·.num)
  if 65536 ≤ live.length then none else (List.range (live.length + 1)).find? (fun n => !live.contains n)

/-- Steps 3 to 5 of 09 R197: the clearing is made, its status written, and the global dispatcher holds it. -/
def acceptLaunch (s : State) (part num : Nat) (parent : Option Clearing) (sh : Shape) (args : List Word) (u : Mmu)
    (seg : Seg) : State :=
  let c : Clearing := {
    part := part
    num := num
    id := s.nextId
    parent := parent.map (·.id)
    parNum := match parent with | some p => p.num | none => 0xFFFF
    depth := match parent with | some p => p.depth + 1 | none => 0
    state := 1
    done := 0
    shape := sh
    args := args
    ptroot := u.ptroot
    asid := u.asid
    blockPa := seg.pa
    blockKind := seg.kind
    fcause := 0
    fpc := 0
    remaining := [(0, sh.nx * sh.ny * sh.nz)]
    skipped := 0 }
  let s := { s with nextId := s.nextId + 1 }
  writeStatus (s.modD (fun d => { d with clearings := d.clearings ++ [c] })) c

/-- What a launch's read of a poisoned or a lost byte gives: the fault of the read (log entry 125, DESIGN CHOICE). -/
def readFault (va : Nat) (bs : List (Byte × Bool × Bool)) : Option LaunchEnd :=
  (dataFault 0 va bs).map (fun f => ⟨4, 0, some (f.code, f.detail, f.addr.toNat)⟩)

/-- A launch of the block at a virtual address as far as it comes (09 R197; the order of refusals, 08 R183); `none` while a page or a line that
it reads is not there yet. -/
def launchRead (s : State) (part die : Nat) (who : Who) (block : Nat) (parent : Option Clearing) : Option LaunchEnd × State :=
  let p := s.d.part part
  let u : Mmu := ⟨die, part, p.asid, p.ptroot, false, who⟩
  match engRead s u block 256 with
  | ((.wait, _), s) => (none, s)
  | ((.fault c d a, _), s) => (some ⟨4, 0, some (c, d, a)⟩, s)
  | ((.ok segs, bs), s) =>
    let dw := dwordsOf (bs.map (·.1)) 32
    let r := resolveBlock s part dw (parent.map (·.shape))
    let bad := readFault block bs
    if bad.isSome then (bad, s)
    else if !r.ok then (some ⟨1, 0, none⟩, s)
    else
      match (if r.nfloes = 0 then ((EngTr.ok [], []), s) else engRead s u r.shape.floeList.toNat (4 * r.nfloes)) with
      | ((.wait, _), s) => (none, s)
      | ((.fault c d a, _), s) => (some ⟨4, 0, some (c, d, a)⟩, s)
      | ((.ok _, fb), s) =>
        let bad := readFault r.shape.floeList.toNat fb
        if bad.isSome then (bad, s)
        else match parseFloes (wordsOf32 (fb.map (·.1)) r.nfloes) with
        | none => (some ⟨1, 0, none⟩, s)
        | some floes =>
          let sh := { r.shape with floes := floes }
          if !(coresOf s part).any (fun c => admits s c sh []) then (some ⟨2, 0, none⟩, s)
          else if (match parent with | some q => decide (7 ≤ q.depth) | none => false) then (some ⟨6, 0, none⟩, s)
          else
            match freeClearing s part with
            | none => (some ⟨3, 0, none⟩, s)
            | some num =>
              let args := (List.range 4).map (fun i => BitVec.ofNat 64 (dw.getD (12 + i) 0))
              (some ⟨0, num, none⟩, acceptLaunch s part num parent sh args u (segs.headD ⟨0, 0, 0⟩))

/-- A launch of the block at a virtual address; once it ends, the faults that its walks found are used up (02 R40). -/
def launchBlock (s : State) (part die : Nat) (who : Who) (block : Nat) (parent : Option Clearing) : Option LaunchEnd × State :=
  match launchRead s part die who block parent with
  | (none, s) => (none, s)
  | (some e, s) => (some e, dropAsks s who)

/-- `launch` (11 R255). It acts once for the grove, so k7 of a fault of its reads is the whole active mask (log entry 133). -/
def launchOp (x : Gx) (d a : BitVec 8) : State :=
  let block := uVal x.g a
  if block.extractLsb' 0 8 ≠ 0#8 then x.trapAll cALIGN 2 block
  else
    x.released 5 (fun x =>
      match launchBlock x.s x.st.part (coreDie x.st.core) x.who block.toNat (clearing? x.s x.st.part x.st.clnum) with
      | (none, s) => (x.at s).hold .inside x.g
      | (some r, s) =>
        let x := x.at s
        match r.fault with
        | some f => x.trapAll f.1 f.2.1 (BitVec.ofNat 64 f.2.2)
        | none =>
          if r.result = 0 then x.done (x.g.setS (opNum d) (BitVec.ofNat 64 r.clnum))
          else x.trapAll cBOUNDS 6 block)

def execLaunch (d a : BitVec 8) (s : State) : Out State Fault Refusal :=
  groveInstr (.launch d a) s (fun x => launchOp x d a)

/-! ## A host launch (09 R200) -/

/-- The block address of a write of LAUNCH. -/
def launchAddr (v : Word) : Word := (v.extractLsb' 8 49 ++ 0#8).signExtend 64

/-- The agent is the elected owner (18 R380). -/
def isOwner (s : State) (ag : Agent) : Bool := s.d.mgmt.held && (ag == .owner || ag == .master s.d.mgmt.owner)

/-- Who may write a partition's block (02 R38; 18 R380). -/
def mayWriteBlock (s : State) (ag : Agent) (part : Nat) : Bool :=
  (s.d.part part).alive && (isOwner s ag || isFirmware s ag || ag == .hv part)

/-- A write of LAUNCH: BUSY is set, or the write is counted in DROP. -/
def writeLaunch (s : State) (part : Nat) (v : Word) : State :=
  s.modPart part (fun p =>
    if p.launchst.busy then { p with launchst := { p.launchst with drop := min (p.launchst.drop + 1) 255 } }
    else { p with launchst := { p.launchst with busy := true, block := launchAddr v } })

def execHostLaunch (ag : Agent) (part : Nat) (v : Word) (s : State) : Out State Fault Refusal :=
  .next (if mayWriteBlock s ag part then writeLaunch s part v else countDrop s (0x1F0000100240 + 0x1000 * part))

/-- RESULT and CLNUM of a launch are written, and BUSY returns to 0. -/
def endHostLaunch (s : State) (part : Nat) (r : LaunchEnd) : State :=
  s.modPart part (fun p => { p with launchst := { p.launchst with
    busy := false
    result := r.result
    clnum := if r.result = 0 then r.clnum else p.launchst.clnum
    fprot := match r.fault with | some f => f.1 == cPROT | none => false
    detail := match r.fault with | some f => f.2.1 | none => 0 } })

/-- The launch in progress of a partition ends, or waits for what it reads. -/
def hostLaunchNow (s : State) (part : Nat) : State :=
  let p := s.d.part part
  if !p.launchst.busy then s
  else if p.resetting then endHostLaunch s part ⟨5, 0, none⟩
  else match launchBlock s part 0 ⟨0, part⟩ p.launchst.block.toNat none with
    | (none, s) => s
    | (some r, s) => endHostLaunch s part r

/-! ## The global dispatcher (09 R201, R203) -/

/-- Resident stands of a clearing's subtree (08 R184). -/
def subtreeStands (s : State) (id : Nat) : List Stand :=
  s.stands.filter (fun st => match clearing? s st.part st.clnum with
    | some c => c.id == id || (ancestors s.d.clearings 8 c).contains id
    | none => false)

/-- Stands of a clearing's subtree that lie in batches: their shapes. -/
def subtreeSent (s : State) (id : Nat) : List Shape :=
  s.d.batches.flatMap (fun b => match s.d.clearings.find? (fun c => c.id == b.clearing) with
    | some c => if c.id = id ∨ (ancestors s.d.clearings 8 c).contains id then b.stands.map (fun _ => c.shape) else []
    | none => [])

/-- One more stand keeps a clearing and every ancestor within STANDS, POOL and SCRATCH; with `sent`, stands that lie in
batches count (08 R184, 09 R203); with a core, CORES is tested too. -/
def withinBudget (s : State) (c : Clearing) (sent : Bool) (core : Option Nat) : Bool :=
  (c.id :: ancestors s.d.clearings 8 c).all (fun id =>
    match s.d.clearings.find? (fun k => k.id == id) with
    | none => true
    | some k =>
      let res := subtreeStands s id
      let shs := res.map (·.shape) ++ (if sent then subtreeSent s id else [])
      let cores := (res.map (·.core) ++ core.toList).eraseDups
      decide (shs.length + 1 ≤ k.shape.stands ∧
        8 * ((shs.map (·.pool_)).sum + c.shape.pool_) ≤ k.shape.pool ∧
        (shs.map (·.scratchBytes)).sum + c.shape.scratchBytes ≤ k.shape.scratch ∧
        (core.isNone ∨ cores.length ≤ k.shape.cores)))

/-- The die with the highest reported count whose largest values admit a shape; the lowest among equals. -/
def chooseDie (s : State) (part : Nat) (sh : Shape) : Option Nat :=
  (s.d.reports.filter (fun r => r.part == part && decide (0 < r.count ∧ sh.groves * sh.lanes ≤ r.lanes ∧
      sh.groves ≤ r.groves ∧ sh.pool_ ≤ r.pool ∧ sh.scratchBytes ≤ r.scratch ∧ sh.floes.length ≤ r.floes))).foldl
    (fun (b : Option (Nat × Nat)) r => match b with
      | some (n, d) => if n < r.count ∨ (n = r.count ∧ r.die < d) then some (r.count, r.die) else b
      | none => some (r.count, r.die)) none |>.map (·.2)

/-- The clearing has a saved stand. -/
def hasSaved (s : State) (c : Clearing) : Bool := s.d.saved.any (fun st => st.part == c.part && st.clnum == c.num)

/-- Candidates by decreasing PRIO, then by acceptance: clearings with stands to send or to restore (09 R203; 16 R352). -/
def candidates (s : State) : List Clearing :=
  (List.range 8).reverse.flatMap (fun p => s.d.clearings.filter (fun c =>
    c.isLive && (c.remaining != [] || hasSaved s c) && c.shape.prio == p))

/-- What happens to one candidate: skipped for its budget, skipped for want of room, or sent to a die. -/
inductive Try where
  | budget | room | send (die : Nat)
deriving DecidableEq, Repr

def tryCandidate (s : State) (c : Clearing) : Try :=
  if c.remaining = [] then .budget
  else if !withinBudget s c true none then .budget
  else match chooseDie s c.part c.shape with
    | some d => .send d
    | none => .room

/-- The core on which a saved stand can be restored now: that which the map of its cluster gives for its logical
number, when it admits the stand and the budgets allow it (16 R352, R353; 08 R184). -/
def restoreCore? (s : State) (st : Stand) : Option (Clearing × Nat) :=
  match clearing? s st.part st.clnum with
  | none => none
  | some c =>
    let core := ((s.d.clusters.getD (coreCluster st.core) (Cluster.reset 0)).map).getD st.lcore st.core
    if (coresOf s st.part).contains core && !swapping s core && admits s core st.shape (standsOn s core) &&
        withinBudget s c false (some core) then some (c, core) else none

/-- A saved stand of the clearing comes before its unplaced stands (16 R352). -/
def restoreFirst (s : State) (c : Clearing) : Bool :=
  s.d.saved.any (fun st => st.part == c.part && st.clnum == c.num && (restoreCore? s st).isSome)

/-- The first candidate for which the dispatcher can do something: restore a saved stand of it, or send stands. -/
def nextCandidate (s : State) : Option Clearing :=
  (candidates s).find? (fun c => restoreFirst s c || (match tryCandidate s c with
    | .send _ => true
    | .budget => false
    | .room => false))

/-- The clearings that a pass skips, and the first that it can send. -/
def scanCandidates (s : State) : List Clearing → State × Option (Clearing × Nat)
  | [] => (s, none)
  | c :: rest =>
    if restoreFirst s c then (s, none)
    else match tryCandidate s c with
    | .budget => scanCandidates (setClearing s { c with skipped := 0 }) rest
    | .room => scanCandidates (setClearing s { c with skipped := max c.skipped 1 }) rest
    | .send d => (setClearing s { c with skipped := 0 }, some ({ c with skipped := 0 }, d))

/-- The first batch of remaining stands: up to 64 consecutive indices (09 R201). -/
def takeBatch (rs : List (Nat × Nat)) : List Nat × List (Nat × Nat) :=
  match rs with
  | [] => ([], [])
  | (lo, hi) :: rest =>
    let n := min 64 (hi - lo)
    ((List.range n).map (lo + ·), if lo + n < hi then (lo + n, hi) :: rest else rest)

def execBatchSend (s : State) : Out State Fault Refusal :=
  .next (match scanCandidates s (candidates s) with
    | (s, none) => s
    | (s, some (c, die)) =>
      let t := takeBatch c.remaining
      let s := setClearing s { c with remaining := t.2 }
      s.modD (fun d => { d with batches := d.batches ++ [⟨die, c.id, t.1, d.clkCount⟩] }))

/-! ## The die dispatchers (09 R202, R204, R205) -/

/-- The free-slot report of a die for one partition. -/
def reportOf (s : State) (die part : Nat) : Report :=
  let cs := ((coresOf s part).filter (fun c => coreDie c == die)).filter (fun c => decide ((standsOn s c).length < 8))
  let fr := cs.map (fun c => freeOf (standsOn s c))
  let run (c : Nat) : Nat :=
    let sts := standsOn s c
    (runStarts sts).foldl (fun m a =>
      if runFree sts a 1 then
        max m (sts.foldl (fun t st => if st.scratchSize ≠ 0 ∧ a ≤ st.scratchBase then min t st.scratchBase else t)
          (scratchTop s c) - a)
      else m) 0
  ⟨die, part, cs.length, (fr.map (·.1)).foldl max 0, (fr.map (·.2.1)).foldl max 0, (fr.map (·.2.2.1)).foldl max 0,
    (cs.map run).foldl max 0, (fr.map (·.2.2.2)).foldl max 0⟩

def execFreeSlotReport (die : Nat) (s : State) : Out State Fault Refusal :=
  .next (s.modD (fun d => { d with
    reports := (d.reports.filter (fun r => r.die ≠ die) ++
      ((List.range 20).filter (fun p => (d.part p).alive)).map (reportOf s die)) }))

/-- The lowest free stand slot of a core. -/
def freeSlot (s : State) (core : Nat) : Nat :=
  ((List.range 8).find? (fun i => !(standsOn s core).any (fun st => st.sslot == i))).getD 8

/-- The logical number that the cluster's map gives a core (00 R3). -/
def logicalOf (s : State) (core : Nat) : Nat :=
  (((s.d.clusters.getD (coreCluster core) (Cluster.reset 0)).map).findIdx? (· == core)).getD 0

/-- The core that admits a stand of a clearing on a die, with the fewest resident lanes; the lowest among equals. -/
def chooseCore (s : State) (die : Nat) (c : Clearing) : Option Nat :=
  let ok := (coresOf s c.part).filter (fun n => coreDie n == die && !swapping s n && admits s n c.shape (standsOn s n) &&
    withinBudget s c false (some n))
  ok.foldl (fun (b : Option Nat) n => match b with
    | some k => if (freeOf (standsOn s k)).1 < (freeOf (standsOn s n)).1 then some n else b
    | none => some n) none

/-- Placing a stand on a core (09 R205): its resources, its groves and its sequencer; the core's read copies are dropped,
since the launcher's accesses come before the stand's at device scope (11 R255). -/
def placeStand (s : State) (c : Clearing) (index core : Nat) : State :=
  let base := (scratchBase? s core c.shape.scratchBytes (standsOn s core)).getD 0
  let st := Stand.start s.nextId c.part c.num index core (freeSlot s core) (logicalOf s core) s.nextId c.shape c.args
    c.ptroot c.asid base c.shape.scratchBytes
  let s := acquireAt { s with nextId := s.nextId + 1, stands := s.stands ++ [st] } core 5
  if c.state = 1 then
    let c := { c with state := 2 }
    writeStatus (setClearing s c) c
  else s

/-- The first stand of a batch placed; the batch goes when it is empty. -/
def placeFirst (s : State) (b : StandBatch) (k : Nat) : Option State :=
  match s.d.clearings.find? (fun c => c.id == b.clearing), b.stands with
  | some c, i :: rest =>
    (chooseCore s b.die c).map (fun core =>
      let s := s.modD (fun d => { d with
        batches := (if rest = [] then d.batches.eraseIdx k else d.batches.set k { b with stands := rest }) })
      placeStand s c i core)
  | _, _ => none

/-- A die dispatcher places a stand: the first stand of its first batch that some core admits. Of a batch whose 1,024 clk
are over it places none (09 R204). -/
def execPlacement (die : Nat) (s : State) : Out State Fault Refusal :=
  .next ((s.d.batches.zipIdx.filter (fun b => b.1.die == die && decide (s.d.clkCount < b.1.arrived + 1024))).foldl (fun (r : Option State) b =>
    r.or (placeFirst s b.1 b.2)) none |>.getD s)

/-- Adds a range to rising ranges, joining those that touch. -/
def addRange : List (Nat × Nat) → Nat × Nat → List (Nat × Nat)
  | [], r => [r]
  | (a, b) :: rest, (lo, hi) =>
    if hi < a then (lo, hi) :: (a, b) :: rest
    else if b < lo then (a, b) :: addRange rest (lo, hi)
    else addRange rest (min a lo, max b hi)

/-- The stands of a die's batches that have not been placed within 1,024 clk rejoin their clearings (09 R204). -/
def execBatchReturn (die : Nat) (s : State) : Out State Fault Refusal :=
  let late (b : StandBatch) : Bool := b.die == die && decide (b.arrived + 1024 ≤ s.d.clkCount)
  .next ((s.d.batches.filter late).foldl (fun s b =>
    match s.d.clearings.find? (fun c => c.id == b.clearing) with
    | some c => setClearing s { c with remaining := b.stands.foldl (fun r i => addRange r (i, i + 1)) c.remaining }
    | none => s) (s.modD (fun d => { d with batches := d.batches.filter (fun b => !late b) })))

end Sys2Proof.Machine
end

