-- ==== Sys2Proof/Machine/Firn.lean ====
section
/-! DEFINITION. The steps of the home slices and the cores' L1 (04 R83 to R103), of the slice ports (03 R74 to R76), of
serac groups (07 R158 to R161), of way conversions (03 R62, R63), and the replies of `ldx` (13 R283, R284). -/

namespace Sys2Proof.Machine

/-! ## Messages: those of one core to one slice arrive in the order sent (04 R84) -/

/-- The first message of a core about a line, towards the home. -/
def headUp (s : State) (core line : Nat) : Option ToSlice :=
  s.m.toSlice.find? (fun t => t.core == core && t.line == line)

/-- Messages of one core to one slice, and of one slice to one core, keep their order. -/
def sameWay (s : State) (c l core line : Nat) : Bool := c == core && homeSlice s l == homeSlice s line

/-- The next message of the line's home slice towards a core, when it is about the line. -/
def headDown (s : State) (core line : Nat) : Option ToCore :=
  (s.m.toCore.find? (fun t => sameWay s t.core t.line core line)).filter (fun t => t.line == line)

/-- Write-backs and answers, which a slice takes while a request of their line waits (04 R84, R97). -/
def Req.answers (r : Req) : Bool :=
  match r with
  | .wb .. => true
  | .data .. => true
  | .reg .. => false
  | .read .. => false
  | .atom .. => false
  | .engine .. => false

/-- The first write-back or answer of a core about a line. -/
def headWb (s : State) (core line : Nat) : Option ToSlice :=
  s.m.toSlice.find? (fun t => t.core == core && t.line == line && t.req.answers)

/-- The message of a core about a line that its home slice comes to next: the first one, or while a request of the line is
being served the first write-back or answer. -/
def nextUp (s : State) (core line : Nat) : Option ToSlice :=
  if lineBusy s line then (headWb s core line).or (headUp s core line) else headUp s core line

def dropUp (s : State) (t : ToSlice) : State := s.modM (fun m => { m with toSlice := m.toSlice.erase t })
def dropDown (s : State) (t : ToCore) : State := s.modM (fun m => { m with toCore := m.toCore.erase t })

/-- Replaces a message that has been found. -/
def setUp (s : State) (t t' : ToSlice) : State :=
  s.modM (fun m => { m with toSlice := m.toSlice.map (fun y => if y = t then t' else y) })

/-- Messages come to a slice behind all that have come, from number `n` on: up to one, those that its core sent the slice
before it. -/
def comeUpTo (s : State) (t : ToSlice) : Nat → List ToSlice → List ToSlice
  | _, [] => []
  | n, y :: rest =>
    if y = t then { y with arr := n } :: rest
    else if sameWay s y.core y.line t.core t.line ∧ y.arr = 0 then { y with arr := n } :: comeUpTo s t (n + 1) rest
    else y :: comeUpTo s t n rest

/-- A message has come to its slice, and with it those that its core sent the slice before it (04 R84). -/
def arrived (s : State) (t : ToSlice) : ToSlice × State :=
  if t.arr ≠ 0 then (t, s)
  else
    let n := s.m.toSlice.foldl (fun a y => max a y.arr) 0 + 1
    let k := ((s.m.toSlice.takeWhile (fun y => decide (y ≠ t))).filter (fun y =>
      sameWay s y.core y.line t.core t.line && y.arr == 0)).length
    ({ t with arr := n + k }, s.modM (fun m => { m with toSlice := comeUpTo s t n m.toSlice }))

/-! ## Slice ports (03 R76) and BWTOK (08 R184) -/

/-- No older message of a message's context waits at the port, but for those whose stand's BWTOK holds them (03 R76). -/
def firstOfCtx (s : State) (t : ToSlice) : Bool :=
  s.m.toSlice.all (fun y => y.arr == 0 || decide (t.arr ≤ y.arr) || homeSlice s y.line != homeSlice s t.line ||
    ctxOf s y != ctxOf s t || !unpaid s y || bwHeld s y)

/-- One token for a message, with the first one of a message that carries a line a unit of BWTOK (08 R184); all at once where
the context is unmetered. -/
def payOne (s : State) (t : ToSlice) : Option (ToSlice × State) :=
  if !firstOfCtx s t then none
  else
    let part := (ctxOf s t).getD 20
    match if t.paid = 0 ∧ carries t.req then takeBw s t.by_ else some s with
    | none => none
    | some s1 =>
      match takeToken s1 (homeSlice s t.line) part 0 (spareForMsg s t) with
      | none => none
      | some s2 =>
        let t' := { t with paid := if unmetered s part 0 then tokensOf s t else t.paid + 1 }
        some (t', setUp s2 t t')

/-- As many tokens as a message needs, as far as there are any. -/
def payAll : Nat → State → ToSlice → ToSlice × State
  | 0, s, t => (t, s)
  | fuel + 1, s, t =>
    if unpaid s t then
      match payOne s t with
      | some r => payAll fuel r.2 r.1
      | none => (t, s)
    else (t, s)

/-- A port takes a token for the first message of a core about a line that it has not accepted (03 R76). -/
def execPortRequest (core line : Nat) (s : State) : Out State Fault Refusal :=
  .next (match s.m.toSlice.find? (fun t => t.core == core && t.line == line && unpaid s t) with
    | none => s
    | some t =>
      let a := arrived s t
      match payOne a.2 a.1 with
      | some r => r.2
      | none => a.2)

/-! ## At the home -/

/-- A request's turn at its line (04 R84): no message about the line that came and was accepted before it is still to be
taken. Write-backs and answers are taken while a request waits. -/
def itsTurn (s : State) (t : ToSlice) : Bool :=
  if lineBusy s t.line then t.req.answers
  else s.m.toSlice.all (fun y => y.arr == 0 || decide (t.arr ≤ y.arr) || y.line != t.line || unpaid s y)

/-- A message comes to its slice, passes the port, and is served by `k` when its turn has come. -/
def served (s : State) (t : ToSlice) (k : State → ToSlice → State) : State :=
  let a := arrived s t
  let r := payAll (tokensOf s t + 1) a.2 a.1
  if !unpaid r.2 r.1 && itsTurn r.2 r.1 then k r.2 r.1 else r.2

/-- The partition on whose behalf a request comes. -/
def reqPart (s : State) (t : ToSlice) : Nat :=
  match t.req with
  | .read _ part => part
  | .reg .. => partOfCore s t.core
  | .wb .. => partOfCore s t.core
  | .data .. => partOfCore s t.core
  | .atom .. => partOfCore s t.core
  | .engine .. => 20

/-- A request that reads its line: an atomic is both a load and a store (05 R104), a store executed at the home is none. -/
def readsData (r : Req) : Bool :=
  match r with
  | .read .. => true
  | .atom op _ => op.op != 9
  | .reg .. => false
  | .wb .. => false
  | .data .. => false
  | .engine .. => false

/-- A REG that needs a new entry of a full table first has the oldest one drained, whose line is allocated for the partition
of the entry (03 R71; 04 R96), once that line can be read. -/
def makeRoom (s : State) (t : ToSlice) : State :=
  match t.req with
  | .reg .. =>
    if (firnOf s t.line).any (fun e => e.core == t.core) then s
    else match drainFor s (homeSlice s t.line) with
      | some e => if homeOpen s e.line e.part then drainEntry (l2Access s e.line e.part 0 false) e else s
      | none => s
  | .read .. => s
  | .wb .. => s
  | .data .. => s
  | .atom .. => s
  | .engine .. => s

/-- A sampled read passes a memory controller (17 R370). -/
def passMem (s : State) (t : ToSlice) : State :=
  match t.req with
  | .read id _ => s.modM (fun m => { m with fills := m.fills.map (fun f =>
      if f.id = id then { f with samp := f.samp.map (fun q => { q with mem := true }) } else f) })
  | .reg .. => s
  | .wb .. => s
  | .data .. => s
  | .atom .. => s
  | .engine .. => s

/-- A request is taken at its home when its line is ready there; the first access to a serac group starts its fill
(04 R84; 07 R159). -/
def takeHead (s : State) (t : ToSlice) : State :=
  let s := makeRoom s t
  if homeReady s t.line (reqPart s t) then
    let s := if inSlice s t.line || (memLinesOf s t.line).isEmpty then s else passMem s t
    takeReq (l2Access (dropUp s t) t.line (reqPart s t) 0 (readsData t.req)) t.core t.line t.req t.by_
  else if groupReady s t.line then s
  else startFill (passMem s t) t.line (((ctxOf s t).map (2 * ·)).getD 40)

def execRegTaken (core line : Nat) (s : State) : Out State Fault Refusal :=
  .next (match nextUp s core line with
    | some t => (match t.req with
      | .reg .. => served s t takeHead
      | _ => s)
    | none => s)

def execAtomicAtHome (core line : Nat) (s : State) : Out State Fault Refusal :=
  .next (match nextUp s core line with
    | some t => (match t.req with
      | .atom .. => served s t takeHead
      | _ => s)
    | none => s)

/-- A read is taken (04 R88); with `fails` the line's code fails when it is read from memory (03 R81). -/
def execHomeRead (core line : Nat) (fails : Bool) (s : State) : Out State Fault Refusal :=
  .next (match nextUp s core line with
    | some t => (match t.req with
      | .read .. => served s t (fun s t =>
          takeHead (if fails && homeReady s t.line (reqPart s t) then corruptLine s t.line else s) t)
      | _ => s)
    | none => s)

/-- Bytes of a store under way that left with words of their 8-byte unit (05 R105): they come after what other cores have
stored there. -/
def mergePair (s : State) (line : Nat) (mask : ByteMask) (bytes : LineBits) (clean : ByteMask) : State :=
  if mask = 0#128 then s
  else homeWrite (recallNow s line (wordsOf mask)) line mask bytes (clean &&& wordsOf mask) []

/-- Words arrive from a core at the home (04 R85, R87): those registered to it are merged and unregistered. -/
def mergeOwn (s : State) (core line : Nat) (mask : ByteMask) (bytes : LineBits) (clean : ByteMask) : State :=
  let own := mask &&& wordsAt s core line
  let s := if own = 0#128 then s else homeWrite s line own bytes (clean &&& wordsOf own) []
  firnRemove s core line (wordsOf own)

/-- The answer to a RECALL: the words with the bytes that left with them. -/
def mergeWords (s : State) (core line : Nat) (mask : ByteMask) (bytes : LineBits) (clean : ByteMask) : State :=
  mergePair (mergeOwn s core line mask bytes clean) line (mask &&& ~~~wordsAt s core line) bytes clean

/-- The acknowledgement of a write-back goes to the groves that wait for it: from the host link, behind the write, when the
line lies at the host (04 R93). -/
def ackWb (s : State) (core line : Nat) (whos : List Who) : State :=
  if whos.isEmpty then s
  else match regionOf s (line * 128) with
    | .host => homeWrite s line 0 0 0 whos
    | .hbm | .tier2 _ | .decoded | .device | .hole => sendCore s core line (.wbAck whos)

/-- A write-back is taken (04 R87, R90, R93): words that the core no longer holds are left alone. -/
def takeWb (s : State) (t : ToSlice) : State :=
  match t.req with
  | .wb mask bytes clean whos =>
    ackWb (dropVisitor (mergeOwn (dropUp s t) t.core t.line mask bytes clean) (coreDie t.core) t.line) t.core t.line whos
  | .data .. => s
  | .reg .. => s
  | .read .. => s
  | .atom .. => s
  | .engine .. => s

/-- A WB waits while a recalibration holds the memory that it would write (18 R382). -/
def execWbTaken (core line : Nat) (s : State) : Out State Fault Refusal :=
  .next (match nextUp s core line with
    | some t => (match t.req with
      | .wb .. => served s t (fun s t => if inSlice s t.line || !(memLinesOf s t.line).any (stackHeld s) then takeWb s t else s)
      | _ => s)
    | none => s)

/-- A request of a line no longer waits for a core. -/
def answered (s : State) (core line : Nat) (f : LineWait → LineWait) : State :=
  s.modM (fun m => { m with lineWaits := m.lineWaits.map (fun w =>
    if w.line = line ∧ w.need.contains core then f { w with need := w.need.erase core } else w) })

/-- A registrant's answer arrives (04 R85, R88, R96): asked words that it can no longer supply are lost. -/
def takeData (s : State) (t : ToSlice) : State :=
  match t.req with
  | .data true mask bytes clean =>
    tryFinish (answered (dropUp s t) t.core t.line (fun w => { w with
      acc := mergeLine w.acc bytes mask
      accMask := w.accMask ||| mask
      clean := (w.clean &&& ~~~wordsOf mask) ||| (clean &&& wordsOf mask) })) t.line
  | .data false mask bytes clean =>
    let asked := match s.m.lineWaits.find? (fun w => w.line == t.line && w.need.contains t.core) with
      | some w => wordsOf w.req.mask &&& wordsAt s t.core t.line
      | none => 0
    let s := mergeWords (dropUp s t) t.core t.line mask bytes clean
    let s := firnRemove (loseWords s t.line (asked &&& ~~~wordsOf mask)) t.core t.line asked
    tryFinish (answered s t.core t.line id) t.line
  | .wb .. => s
  | .reg .. => s
  | .read .. => s
  | .atom .. => s
  | .engine .. => s

def execDataAnswer (core line : Nat) (s : State) : Out State Fault Refusal :=
  .next (match nextUp s core line with
    | some t => (match t.req with
      | .data .. => served s t takeData
      | _ => s)
    | none => s)

/-! ## At a core -/

/-- A grant arrives (04 R85): the bytes are registered, and the oldest store of the line under way is performed. Bytes that
the core has given up in between, or that it asked for without storing them (04 R103), take their value from the home. -/
def takeGrant (s : State) (core line : Nat) (w : Who) : State :=
  let s' := match l1Find s core line with
    | none => s
    | some x =>
      match x.pend with
      | [] => s
      | p :: rest =>
        let mine := (firnOf s line).foldl (fun m e => if e.core = core then m ||| e.mask else m) 0#128
        let fetch := p.ask &&& ~~~p.mask &&& ~~~x.reg &&& mine &&& ~~~inFlight s core line
        let h := homeLine s line
        let kept := x.lost &&& ~~~fullMask p.mask
        let reg := x.reg ||| p.mask ||| fetch
        l1Put s { x with
          data := mergeLine (mergeLine x.data p.data p.mask) h.bytes fetch
          reg := reg
          valid := x.valid &&& ~~~reg
          pend := rest
          poison := (x.poison &&& ~~~(p.mask ||| fetch)) ||| (h.poison &&& fetch)
          lost := kept ||| (h.lost &&& wordsOf (p.mask ||| fetch) &&& ~~~fullMask p.mask &&& ~~~wordsOf x.reg) }
  addOut s' w (-1)

def execGrant (core line : Nat) (s : State) : Out State Fault Refusal :=
  .next (match headDown s core line with
    | some t => (match t.rep with
      | .grant _ w => takeGrant (dropDown s t) core line w
      | _ => s)
    | none => s)

/-- The stand on whose account a core answers for a line: that of the request which waits for the answer. -/
def askerOf (s : State) (core line : Nat) : Nat :=
  ((s.m.lineWaits.find? (fun w => w.line == line && w.need.contains core)).map (·.by_)).getD 0

/-- A forwarded read is answered with the registered bytes of the words asked for (04 R88). -/
def execFwdRead (core line : Nat) (s : State) : Out State Fault Refusal :=
  .next (match headDown s core line with
    | some t => (match t.rep with
      | .fwd words =>
        let x := (l1Find s core line).getD (L1Line.empty core line 0)
        sendSlice (dropDown s t) core line
          (.data true (x.reg &&& words) x.data (wordsOf (x.reg &&& words) &&& ~~~x.lost)) (askerOf s core line)
      | _ => s)
    | none => s)

/-- Registered words are given up, with their data (04 R85). -/
def execRecall (core line : Nat) (s : State) : Out State Fault Refusal :=
  .next (match headDown s core line with
    | some t => (match t.rep with
      | .recall words =>
        let r := giveUp (dropDown s t) core line words
        sendSlice r.2 core line (.data false r.1.mask r.1.bytes r.1.clean) (askerOf s core line)
      | _ => s)
    | none => s)

/-- A reply is installed in L1 as a read copy beside the core's own bytes, when L1 can take the line (04 R88, R95). -/
def installFill (s : State) (core line by_ : Nat) (d : LineData) : State :=
  if l1HasRoom s core line then
    let r := l1Take s core line by_
    let x := r.1
    l1Put r.2 { x with
      data := mergeLine d.bytes x.data x.own
      valid := ~~~x.own
      poison := (d.poison &&& ~~~x.own) ||| (x.poison &&& x.own)
      lost := (d.lost &&& ~~~x.own) ||| (x.lost &&& x.own) }
  else s

/-- The data that the loads waiting for a reply use: the core's own bytes come first (04 R88). -/
def ownOver (s : State) (core line : Nat) (d : LineData) : LineData :=
  match l1Find s core line with
  | some x => x.over d
  | none => d

/-- A grove's reply of an operation performed at a home or at the host (05 R127, 13 R286). A lane whose operation a
predicate has suppressed receives none (17 R357). -/
def atomReply (s : State) (w : Who) (lane : Nat) (old : Word) (fl : BitVec 5) : State :=
  let s := addOut s w (-1)
  if lane = 1024 then s
  else s.modStand w.uid (fun st => { st with groves := st.groves.map (fun g =>
    if g.slot = w.slot ∧ !g.prog.watched.getLsbD lane then
      { g with prog := { g.prog with replies := g.prog.replies ++ [(lane, old, fl)] } } else g) })

/-- An atomic that was not performed: its lane faults; `off` is the first byte concerned. -/
def atomBad (s : State) (w : Who) (lane code off : Nat) : State :=
  (addOut s w (-1)).modStand w.uid (fun st => { st with groves := st.groves.map (fun g =>
    if g.slot = w.slot then
      { g with prog := { g.prog with faults := g.prog.faults ++ [⟨lane, code, 0, BitVec.ofNat 64 off⟩] } } else g) })

/-- A line is unpinned once (03 R72). -/
def unpinLine (s : State) (line : Nat) : State :=
  s.modM (fun m => { m with l2 := m.l2.map (fun y =>
    if y.line = line ∧ y.visitor.isNone then { y with pins := y.pins - 1 } else y) })

/-- A reply reaches what waits for it in the grove: its instruction, or lanes of its `ldx`. -/
def Grove.takeLine (g : Grove) (id line : Nat) (d : LineData) : Grove :=
  { g with
    prog := if g.prog.fills.contains id then
        { g.prog with fills := g.prog.fills.filter (· ≠ id), got := g.prog.got ++ [(line, d)] } else g.prog
    ldx := g.ldx.map (fun e => { e with lanes := e.lanes.map (fun (l : LdxLane) =>
      if l.fills.contains id then { l with fills := l.fills.filter (· ≠ id), got := l.got ++ [(line, d)] } else l) }) }

/-- A reply from a home on another die fills the die's visitor copy, unless it was overtaken or an old copy was dropped
meanwhile (04 R90, R95). A newer copy stays (R89). -/
def visits (s : State) (f : Fill) (d : LineData) : Bool :=
  homeDie s f.line != coreDie f.core && !f.overtaken && !f.novis &&
    !((visitorOf s (coreDie f.core) f.line).bind (·.visitor)).any (fun v => decide (d.stamp < v.stamp))

/-- The fill of a visitor copy, and the end of what is older than the reply (04 R89, R90). -/
def fillVisit (s : State) (f : Fill) (d : LineData) : State :=
  if homeDie s f.line = coreDie f.core then s
  else
    let s := if visits s f d then fillVisitor s (coreDie f.core) f.line (partOfCore s f.core) d else s
    dropStale s (coreDie f.core) f.line d.stamp

/-- A reply waits while every way that its visitor copy may be allocated in holds a pinned line (03 R72, R73). -/
def visitWaits (s : State) (id : Nat) (d : LineData) : Bool :=
  (s.m.fills.find? (fun f => f.id == id)).any (fun f => visits s f d &&
    (visitorOf s (coreDie f.core) f.line).isNone && !(waysOf s (partOfCore s f.core)).isEmpty &&
    (l2Place s (visitorSlice (coreDie f.core) f.line) f.line (partOfCore s f.core)).isNone)

/-- A read reply arrives (04 R95): it answers the loads and the operand reads that wait for it, and is installed unless
it was overtaken. -/
def takeFill (s : State) (core line id : Nat) (d : LineData) : State :=
  match s.m.fills.find? (fun f => f.id == id) with
  | none => s
  | some f =>
    let s := s.modM (fun m => { m with fills := m.fills.filter (fun y => y.id ≠ id) })
    match f.tfu with
    | some o =>
      let s := if f.pin then unpinLine s line else s
      (fillVisit s f d).modStand o.uid (fun st => { st with seq := { st.seq with ops := st.seq.ops.map (fun p =>
        if p.id = o.slot then { p with want := p.want.filter (· ≠ line), got := p.got ++ [(line, d)] } else p) } })
    | none =>
      let mine := ownOver s core line d
      let s := { s with stands := s.stands.map (fun st => { st with groves := st.groves.map (·.takeLine id line mine) }) }
      let s := fillVisit s f d
      let s := if f.overtaken then s else installFill s core line f.uid d
      match f.samp with
      | some q => sampleRecord s (homeDie s line != coreDie core) q
      | none => s

/-- The replies that reach a core besides grants: of reads, of operations at the home, of write-backs. -/
def execFillReply (core line : Nat) (s : State) : Out State Fault Refusal :=
  .next (match headDown s core line with
    | some t => (match t.rep with
      | .fill id d => if visitWaits s id d then s else takeFill (dropDown s t) core line id d
      | .atomDone w lane old fl => atomReply (dropDown s t) w lane old fl
      | .atomBad w lane lost off => atomBad (dropDown s t) w lane (if lost then cOWNERLOST else cPOISON) off
      | .wbAck ws => addWbs (dropDown s t) ws (-1)
      | _ => s)
    | none => s)

/-! ## Lost registrants (04 R99) -/

/-- A core can no longer supply anything: its entries become lost words, its L1 and what it had under way are gone, pins
that waited for its fills with them, and the requests that waited for it go on. -/
def loseCore (s : State) (core : Nat) : State :=
  let mine := s.m.firn.filter (fun e => e.core == core)
  let s := (s.m.fills.filter (fun f => f.core == core && f.pin)).foldl (fun s f => unpinLine s f.line) s
  let s := s.modM (fun m => { m with
    firn := m.firn.filter (fun e => e.core ≠ core)
    l1 := m.l1.filter (fun x => x.core ≠ core)
    toSlice := m.toSlice.filter (fun t => t.core ≠ core)
    toCore := m.toCore.filter (fun t => t.core ≠ core)
    fills := m.fills.filter (fun f => f.core ≠ core)
    lineWaits := (m.lineWaits.filter (fun w => w.core ≠ core)).map (fun w => { w with need := w.need.erase core }) })
  let s := mine.foldl (fun s e =>
    loseWords (if homeOpen s e.line e.part then l2Access s e.line e.part 0 false else s) e.line (wordsOf e.mask)) s
  (s.m.lineWaits.map (·.line)).foldl tryFinish s

/-- A core is quarantined after an uncorrectable soft error: from then on it runs no grove (log entry 28). -/
def execLostRegistrant (core : Nat) (s : State) : Out State Fault Refusal :=
  .next (loseCore (s.modCore core (fun c => { c with quarantined := true })) core)

/-! ## Serac groups (07 R158 to R161) -/

/-- A filling group is decoded: its coded lines are read and checked, a token for each (03 R74), and its lines allocated in
the ways of the window's partition; it waits for a way for each of them (03 R72), and for a recalibration (18 R382). -/
def fillGroup (s : State) (g : Group) : State :=
  let w := s.d.windows.getD g.win Window.reset
  let coded := ((w.groupBlocks g.base).flatMap w.codeLines).eraseDups
  if coded.any (stackHeld s) ∨ !(groupLines w g.base).all (fun l => l2Room s l w.part) then s
  else
    let p := prepay s (homeSlice s (g.base / 128)) (g.base / 128) (g.ctx / 2) (g.ctx % 2) coded.length
    if !p.1 then p.2
    else
      let s := coded.foldl memRead p.2
      let s := (groupLines w g.base).foldl (fun s l =>
        if (l2Home s l).isSome then s else l2Alloc s (homeSlice s l) l w.part 0 none) s
      setGroup s { g with filling := false, data := decodeGroup s w g.base, written := [], poison := groupPoison s w g.base }

def execGroupFillComplete (base : Nat) (s : State) : Out State Fault Refusal :=
  .next (match findGroup s base with
    | some g => if g.filling then fillGroup s g else s
    | none => s)

/-- A resident group is chosen as victim: none of its lines is pinned or has a request in progress. -/
def execDepart (base : Nat) (s : State) : Out State Fault Refusal :=
  .next (match findGroup s base with
    | some g => if mayDepart s g then departNow s base else s
    | none => s)

/-! ## Refills and refresh -/

/-- One context's refill: the bucket, and the excess for the spare pool. -/
def refillOne (rate depth level : Nat) : Nat × Nat :=
  let level := min level depth
  (level + min rate (depth - level), rate - (depth - level))

/-- Every context. -/
def contexts : List (Nat × Nat) := (List.range 20).flatMap (fun p => [(p, 0), (p, 1)])

/-- The contexts of the partitions there are. -/
def liveContexts (s : State) : List (Nat × Nat) := contexts.filter (fun c => (s.d.part c.1).alive)

/-- The values of TBCFG0 and TBCFG1 take effect (03 R76). -/
def latchTb (s : State) : State :=
  s.modM (fun m => { m with tbNow := contexts.foldl (fun l c =>
    spSet 0 l (2 * c.1 + c.2) (4096 * (tbcfg s c.1 c.2).1 + (tbcfg s c.1 c.2).2)) m.tbNow })

/-- A context's refill at one port (03 R76): an unmetered one is cut to its DEPTH. -/
def refillAt (slice : Nat) (s : State) (c : Nat × Nat) : State :=
  let cfg := tbNow s c.1 c.2
  let level := bucketLevel s slice c.1 c.2
  if cfg.1 = 0 then (if cfg.2 < level then setBucket s slice c.1 c.2 cfg.2 else s)
  else
    let r := refillOne cfg.1 cfg.2 level
    setSpare (setBucket s slice c.1 c.2 r.1) slice (min 256 (spareLevel s slice + r.2))

/-- The refill of every port that falls due every 1,024 clk (03 R76). -/
def execTokenRefill (s : State) : Out State Fault Refusal :=
  .next (if s.d.tbDue then
      (List.range 192).foldl (fun s slice => (liveContexts s).foldl (refillAt slice) s)
        (latchTb (s.modD (fun d => { d with tbDue := false })))
    else s)

/-- The reset of every stand's BWTOK that falls due every 1,024 clk (08 R184). -/
def execBwtokReset (s : State) : Out State Fault Refusal :=
  .next (if s.d.bwDue then
      { s.modD (fun d => { d with bwDue := false }) with stands := s.stands.map (fun st => { st with bwUsed := 0 }) }
    else s)

/-- Refresh of a bank closes its open subarrays (03 R78). -/
def execRefresh (stack bank : Nat) (s : State) : Out State Fault Refusal :=
  .next (s.modM (fun m => { m with rows := m.rows.filter (fun o => !(o.stack == stack && o.bank == bank)) }))

/-! ## Timelines (15 R327; 03 R62, R63) and way conversions -/

/-- A timeline's counter: every operation with a number up to it has completed. -/
def timelineOf (last : Nat) (open_ : List Nat) : Nat :=
  open_.foldl (fun m n => min m (n - 1)) last

/-- tlc follows the batches that are closed and not complete. -/
def Stand.settleTlc (st : Stand) : Stand :=
  { st with tlc := { st.tlc with counter := timelineOf st.tlc.last (st.batches.map (·.num)) } }

/-- A batch completes on tlc. -/
def Stand.completeBatch (st : Stand) (n : Nat) : Stand :=
  { st with batches := st.batches.filter (fun b => b.num ≠ n) }.settleTlc

/-- Registered words of a core's line go to the home at once, and the line leaves L1 but for stores under way
(03 R62; 04 R101). -/
def pushOut (s : State) (core line : Nat) : State :=
  let s := recallWords s line (fun e => if e.core = core then wordsOf e.mask else 0)
  let s := overtake (dropVisitor s (coreDie core) line) core line
  match l1Find s core line with
  | some x => l1Put s { x with valid := 0 }
  | none => s

/-- The lines in the ways that a conversion takes away. -/
def convVictims (s : State) (core target : Nat) : List L1Line :=
  s.m.l1.filter (fun x => x.core == core && decide (target ≤ x.way))

/-- A conversion completes (03 R62) once the fills under way as it began have landed, and the lines that it drops are at
rest. -/
def execConversionComplete (core : Nat) (s : State) : Out State Fault Refusal :=
  .next (match (s.d.core core).conv with
    | none => s
    | some v =>
      let out := convVictims s core v.target
      if s.m.fills.any (fun f => f.core == core && decide (f.id < v.mark)) ∨
          out.any (fun x => lineBusy s x.line || !x.pend.isEmpty) then s
      else
        let s := out.foldl (fun s x => pushOut s core x.line) s
        let s := s.modCore core (fun c => { c with l1cur := v.target, conv := none })
        let s := s.modStand v.uid (fun st => st.completeBatch v.batch)
        s.modD (fun d => { d with saved := d.saved.map (fun st =>
          if st.uid = v.uid then st.completeBatch v.batch else st) }))

/-! ## Replies of `ldx` (13 R283, R284) -/

/-- The error that a reply leaves (13 R284). -/
def ldxErrOf (e : LdxExec) (l : LdxLane) (bs : List (Byte × Bool × Bool)) : Option LdxErr :=
  (dataFault l.lane l.va.toNat bs).map (fun f =>
    if e.scratch then ⟨e.ac, l.lane, 64, 0, f.code, f.addr⟩ else ⟨e.ac, l.lane, opNum e.dst, e.size, f.code, f.addr⟩)

/-- Changes a lane of an outstanding `ldx`. -/
def Grove.setLdxLane (g : Grove) (id : Nat) (l : LdxLane) : Grove :=
  { g with ldx := g.ldx.map (fun (e : LdxExec) => if e.id = id then
      { e with lanes := e.lanes.map (fun k => if k.lane = l.lane then l else k) } else e) }

/-- The reply of one lane is written: registers, or the landing bytes of scratch. -/
def landLdx (s : State) (st : Stand) (g : Grove) (e : LdxExec) (l : LdxLane) (bs : List (Byte × Bool × Bool)) : State :=
  let data := bs.map (fun b => if b.2.2 then 0 else b.1)
  let g := { g with
    ldx := g.ldx.map (fun (y : LdxExec) => if y.id = e.id then { y with lanes := y.lanes.filter (fun k => k.lane ≠ l.lane) } else y)
    ldxErrs := g.ldxErrs ++ (ldxErrOf e l bs).toList }
  let g := if e.scratch then g
    else g.mapLanes (1#1024 <<< l.lane) (fun _ x => x.setRegs (opNum e.dst) (bytesRegs data e.size) false)
  s.modStand st.uid (fun t =>
    let t := t.setGrove g.settleLdx
    if e.scratch then { t with scratch := memSetBytes t.scratch l.landing data } else t)

/-- The lines that a lane of an `ldx` reads, with the bytes it needs of each. -/
def ldxNeeds (l : LdxLane) : List (Nat × ByteMask) :=
  ((lanePieces l.segs).map (·.line)).eraseDups.map (fun line =>
    (line, (lanePieces l.segs).foldl (fun m q => if q.line = line then m ||| maskRange q.off q.len else m) 0#128))

/-- A lane of an `ldx` obtains its lines: at once where L1 or a visitor copy holds them, else by reads (04 R88). -/
def ldxFetch (s : State) (st : Stand) (g : Grove) (e : LdxExec) (l : LdxLane) : LdxLane × State :=
  (ldxNeeds l).foldl (fun (a : LdxLane × State) q =>
    match loadNow a.2 st.core q.1 q.2 l.tainted with
    | some d => ({ a.1 with got := a.1.got ++ [(q.1, d.1)] },
        if (l1Serve a.2 st.core q.1 q.2 l.tainted).isSome then d.2 else visitorMiss d.2 st g.slot l.va e.pc)
    | none =>
      let k01 := (lanePieces l.segs).any (fun p => p.line == q.1 && p.kind == 1)
      let r := missRead a.2 st g.slot q.1 k01 (if l.tainted then g.taintFence else 0) l.va e.pc
      ({ a.1 with fills := a.1.fills ++ [r.1] }, r.2)) ({ l with sent := true }, s)

/-- One lane of an outstanding `ldx` (13 R283): with `send` its reads are sent, unless an operation of the core on a line of
it is under way (05 R107); without it, once they are answered, the reply is written. -/
def execLdxReply (uid slot id lane : Nat) (send : Bool) (s : State) : Out State Fault Refusal :=
  .next (match s.stand? uid with
    | none => s
    | some st =>
      match st.grove? slot with
      | none => s
      | some g =>
        match g.ldx.find? (fun e => e.id == id) with
        | none => s
        | some e =>
          match e.lanes.find? (fun l => l.lane == lane) with
          | none => s
          | some l =>
            if send then
              if l.sent || (ldxNeeds l).any (fun q => homeOpOut s st.core q.1) then s
              else
                let r := ldxFetch s st g e l
                r.2.modStand uid (fun t => t.setGrove (g.setLdxLane id r.1))
            else if !l.sent || !l.fills.isEmpty then s
            else
              let r := ldxBytes st.part l s
              landLdx r.2 st g e l r.1)

end Sys2Proof.Machine
end

