-- ==== Sys2Proof/Machine/HostLink.lean ====
section
/-! DEFINITION. The host and other modules (04 R100, R101; 05 R126, R127; 18 R373 to R375). -/

namespace Sys2Proof.Machine

/-! ## Requests to device memory (18 R373) -/

/-- Bytes that no host request reaches (18 R373): those of coded and scale ranges and of save areas. -/
def hostBarred (s : State) (pa : Nat) : Bool := inCoded s pa || inSaveArea s pa

/-- A store to an i4x alias (02 R52). -/
def i4xAlias (s : State) (pa : Nat) : Bool :=
  match windowAt s pa with
  | some (_, w) => w.kind == 1
  | none => false

/-- A byte of memory that requests from outside reach. -/
def outsideByte (s : State) (pa : Nat) : Bool :=
  match regionOf s pa with
  | .hbm | .tier2 _ => true
  | .decoded => (match windowAt s pa with | some (_, w) => !w.busy | none => false)
  | .host | .device | .hole => false

def spanAll (a n : Nat) (f : Nat → Bool) : Bool := (List.range n).all (fun i => f (a + i))
def spanAny (a n : Nat) (f : Nat → Bool) : Bool := (List.range n).any (fun i => f (a + i))

def answer (s : State) (o : HostOut) : State := s.modD (fun d => { d with hostOut := o })
def unsupported : HostOut := ⟨true, false, []⟩

/-- Device registrations in some bytes are recalled, as a drain (04 R100). -/
def drainSpan (s : State) (a n : Nat) : State :=
  if n = 0 then s else (spanLines a n).foldl (fun s l => recallNow s l (wordsOf (runMask l a n))) s

/-- A read from outside: data, with the poisoned bit for a lost or poisoned byte (18 R373). -/
def outsideRead (s : State) (a n : Nat) : State :=
  let s := drainSpan (spanAccess s a n (partOfPa s a) true) a n
  let bs := curBytes s a n
  answer s ⟨false, bs.any (fun b => b.2.1 || b.2.2), bs.map (·.1)⟩

/-- A write from outside. -/
def outsideWrite (s : State) (a : Nat) (bytes : List Byte) : State :=
  answer (engineWrite (spanAccess s a bytes.length (partOfPa s a) false) a bytes) ⟨false, false, []⟩

/-- A request of the host can be served now: its lines are ready at their homes. Halves that the host itself holds do not
stop it. -/
def hostReady (s : State) (a n : Nat) : Bool := n == 0 || (spanLines a n).all (fun l => homeReady s l (partOfPa s a))

/-- A request of the host that waits starts the fill of its groups (07 R159). -/
def hostAsk (s : State) (a n : Nat) : State := if n = 0 then s else (spanLines a n).foldl (fun s l => startFill s l 40) s

/-- A request of the host, served when its lines are ready. -/
def hostServed (s : State) (a n : Nat) (k : State → State) : State := if hostReady s a n then k s else hostAsk s a n

/-- A register of the management block, which physical function 0 carries and reads (18 R373, R376). -/
def pf0Reg (a n : Nat) : Bool :=
  (n == 4 || n == 8) && a % n == 0 && (match regAt (a / 8 * 8) with
    | .modid | .hostbase | .hostcap | .owner | .errcnt | .xfercnt | .mdrop | .fwstart | .fwstat | .partctl _ | .mailbox
    | .dumpbase | .pwrceil | .routehi _ | .routelo _ => true
    | .window _ _ | .block _ _ | .drift _ | .occ _ _ | .rimeReg _ _ _ | .skew _ | .none => false)

/-- A read of the host: a register of the management block as physical function 0 reads it (18 R376), or memory. -/
def execHostRead (addr len : Nat) (s : State) : Out State Fault Refusal :=
  .next (if pf0Reg addr len then
      let r := regRead s (.master 0x800000) addr len
      answer r.2 ⟨false, false, toBytes len r.1⟩
    else if spanAny addr len (hostBarred s) || !spanAll addr len (outsideByte s) then answer s unsupported
    else hostServed s addr len (outsideRead · addr len))

def countHwdrop (s : State) : State := s.modMgmt (fun m => { m with hwdrop := min (m.hwdrop + 1) (2 ^ 32 - 1) })

def execHostWrite (addr : Nat) (bytes : List Byte) (s : State) : Out State Fault Refusal :=
  let n := bytes.length
  .next (if spanAny addr n (hostBarred s) || spanAny addr n (i4xAlias s) then answer (countHwdrop s) ⟨false, false, []⟩
    else if spanAll addr n (outsideByte s) then hostServed s addr n (outsideWrite · addr bytes)
    else answer s unsupported)

/-- The element that an atomic from the host names is one that its home can operate on (04 R102; 13 R287). -/
def hostAtomOk (s : State) (addr size op : Nat) : Bool :=
  (size == 4 || size == 8) && addr % size == 0 && (op == 0 || op == 6 || op == 7) &&
    !spanAny addr size (hostBarred s) && spanAll addr size (outsideByte s) &&
    (match windowAt s addr with | some (_, w) => w.kind == 0 && w.e == size | none => true)

/-- An atomic of an agent beside the cores at the home slice (04 R102). A poisoned or lost element is returned as such, and
left. -/
def homeAtomNow (s : State) (addr size : Nat) (op : HomeOp) : State :=
  let s := drainSpan (spanAccess s addr size (partOfPa s addr) true) addr size
  let bs := curBytes s addr size
  let bad := bs.any (fun b => b.2.1 || b.2.2)
  let old := ofBytes (bs.map (·.1))
  let s := if bad then s
    else match (atomicNew op old).1 with
      | some v => engineWrite s addr (toBytes size v)
      | none => markWritten s (addr / 128) (maskRange (addr % 128) size)
  answer s ⟨false, bad, bs.map (·.1)⟩

/-- An AtomicOp of the host (18 R373). -/
def hostAtomNow (s : State) (addr size op : Nat) (x y : Word) : State :=
  homeAtomNow s addr size ⟨op, addr, size, x, y, if size = 4 then 6 else 7, 0, 0⟩

/-- An AtomicOp from the host: FetchAdd (0), Swap (6), CAS (7). -/
def execHostAtomicop (addr size op : Nat) (x y : Word) (s : State) : Out State Fault Refusal :=
  .next (if hostAtomOk s addr size op then hostServed s addr size (hostAtomNow · addr size op x y)
    else answer s unsupported)

/-! ## Halves that the host caches (04 R100) -/

/-- The host takes a half to a state, recalling device registrations in it; it keeps a half that it owns. -/
def hostTakes (s : State) (half v : Nat) : State :=
  let a := 64 * half
  if halfState s half == 2 then s
  else if spanAny a 64 (hostBarred s) || !spanAll a 64 (outsideByte s) || (v == 2 && spanAny a 64 (i4xAlias s)) then
    answer s unsupported
  else hostServed s a 64 (fun s => outsideRead (setHalf s half v) a 64)

def execHostOwnership (half : Nat) (s : State) : Out State Fault Refusal := .next (hostTakes s half 2)
def execHostReadShared (half : Nat) (s : State) : Out State Fault Refusal :=
  .next (hostTakes s half 1)

/-- The host's data for a recalled half is merged at the home and the waiting request proceeds: the half goes to S for a
device read, to I for a device store or atomic. Fills of the line in flight, but for the one that asked, are overtaken
(04 R95, R100). -/
def recalledHalf (s : State) (w : LineWait) (half : Nat) (bytes : List Byte) : State :=
  let off := 64 * (half % 2)
  let asker := match w.req with
    | .read id _ => some id
    | _ => none
  let s := homeWrite (setHalf s half (if w.req.reads then 1 else 0)) w.line (maskRange off 64)
    (bytesAsLine off (bytes.take 64)) (maskRange off 64) []
  let s := s.modM (fun m => { m with
    fills := m.fills.map (fun f => if f.line = w.line ∧ asker ≠ some f.id then { f with overtaken := true } else f)
    lineWaits := m.lineWaits.map (fun y => if y.line = w.line then { y with halves := y.halves.filter (· ≠ half) } else y) })
  tryFinish s w.line

def execHostRecallData (half : Nat) (bytes : List Byte) (s : State) : Out State Fault Refusal :=
  .next (match s.m.lineWaits.find? (fun w => w.line == half / 2 && w.halves.contains half) with
    | some w => recalledHalf s w half bytes
    | none => s)

/-! ## Host lines that the device caches (04 R95, R101) -/

/-- A probe with the core's own tag: any copy is dropped and registered words go to the home, once no store under way names
them (log entry 121); a probe with another tag is counted for the receiving partition. -/
def execProbe (core line tag : Nat) (s : State) : Out State Fault Refusal :=
  let p := partOfCore s core
  .next (if p = tag then if !wbReady s core line (~~~0#128) then s else
      let s := writeBack s core line (~~~0#128) [] 0
      let s := overtake s core line
      match l1Find s core line with
      | some x => l1Put s { x with valid := 0 }
      | none => s
    else s.modPart p (fun q => { q with probemis := min (q.probemis + 1) (2 ^ 32 - 1) }))

/-- The host invalidates a line of its own that the device caches: the slice copies go; the cores' are probed. -/
def execHostInvalidate (line : Nat) (s : State) : Out State Fault Refusal :=
  .next ((List.range 4).foldl (fun s die => dropVisitor s die line) (s.modM (fun m => { m with
    hostLines := m.hostLines.filter (fun h => h.line ≠ line)
    fills := m.fills.map (fun f => if f.line = line then { f with overtaken := true } else f) })))

/-- The lines of the host aperture that reach some bytes of host memory (02 R31). -/
def apertureLines (s : State) (a n : Nat) : List Nat :=
  (((List.range n).map (fun i => (a + i + (2 ^ 64 - s.d.mgmt.hostbase)) % 2 ^ 64)).filter (· < 2 ^ 42)).map
    (fun o => (0x180000000000 + o) / 128) |>.eraseDups

/-- The bytes of a line that a core's groves wrote through pages of KIND 0b01. -/
def k01Bytes (s : State) (core line : Nat) : ByteMask :=
  ((l1Find s core line).map (fun x => x.k01.foldl (fun m k => m ||| k.2) 0#128)).getD 0

/-- Pushes of a line that wait for the link reach host memory at once; their acknowledgements still come in turn. -/
def landPushes (s : State) (line : Nat) : State :=
  s.modM (fun m => { m with
    hostMem := m.hostQ.foldl (fun h q => match q with
      | .push l mask bs _ => if l = line then memMerge h (hostAddr s (line * 128)) mask bs else h
      | .atom .. => h) m.hostMem
    hostQ := m.hostQ.map (fun q => match q with
      | .push l mask bs ws => if l = line then .push l 0 bs ws else .push l mask bs ws
      | .atom op w => .atom op w) })

/-- The bridge keeps the slices' copies of a host line of KIND 0b00 coherent (05 R126; 04 R95): before the host stores to
it, words registered through such pages reach the host, and slice and visitor copies go, with the fills of such pages in
flight. Copies of KIND 0b01 stay. -/
def snoopLine (s : State) (line : Nat) : State :=
  let s := recallWords s line (fun e => wordsOf e.mask &&& ~~~wordsOf (k01Bytes s e.core line))
  let s := landPushes s line
  let s := s.modM (fun m => { m with
    hostLines := m.hostLines.filter (fun h => h.line ≠ line || h.k01)
    fills := m.fills.map (fun f => if f.line = line ∧ !f.kind01 then { f with overtaken := true } else f) })
  (List.range 4).foldl (fun s die => dropVisitor s die line) s

/-- A store of the host to its own memory (05 R126). -/
def hostStore (s : State) (a : Nat) (bytes : List Byte) : State :=
  ((apertureLines s a bytes.length).foldl snoopLine s).modM (fun m => { m with hostMem := memSetBytes m.hostMem a bytes })

/-! ## The host's answers to the device (04 R92; 05 R127) -/

/-- The device's copies of an element's line that the storing grove could read are dropped once the host has operated on it
(05 R107, R127). -/
def dropHostCopies (s : State) (w : Who) (line : Nat) : State :=
  match s.stand? w.uid with
  | some st => invalidateLine s st.core line
  | none => s

/-- A device AtomicOp completes: executed on host memory, or HOSTATOMIC, detail 3 (05 R127). -/
def hostAtomDone (s : State) (op : HomeOp) (w : Who) (ok : Bool) : State :=
  if ok then
    let a := hostAddr s op.addr
    let old := ofBytes (memBytes s.m.hostMem a op.size)
    let s := match (atomicNew op old).1 with
      | some v => s.modM (fun m => { m with hostMem := memSetBytes m.hostMem a (toBytes op.size v) })
      | none => s
    atomReply (dropHostCopies s w (op.addr / 128)) w op.lane (BitVec.ofNat 64 old) 0
  else
    (addOut s w (-1)).modStand w.uid (fun st => { st with groves := st.groves.map (fun g =>
      if g.slot = w.slot then
        { g with prog := { g.prog with faults := g.prog.faults ++ [⟨op.lane, cHOSTATOMIC, 3, 0⟩] } } else g) })

/-- The link answers the oldest request: a push is in host memory; an AtomicOp has completed, successfully when the
status is 0. -/
def execHostLinkAcknowledge (status : Nat) (s : State) : Out State Fault Refusal :=
  .next (match s.m.hostQ with
    | [] => s
    | q :: rest =>
      let s := s.modM (fun m => { m with hostQ := rest })
      match q with
      | .push line mask bs ws =>
        addWbs (s.modM (fun m => { m with hostMem := memMerge m.hostMem (hostAddr s (line * 128)) mask bs })) ws (-1)
      | .atom op w => hostAtomDone s op w (status == 0))

/-! ## Other modules (18 R374, R375) -/

/-- A request of another module, served at its home slice once its lines are ready and the host owns no part of it (04
R100). -/
def execRemoteRequest (write : Bool) (addr len : Nat) (bytes : List Byte) (s : State) : Out State Fault Refusal :=
  let n := if write then bytes.length else len
  let ok (pa : Nat) : Bool := !hostBarred s pa && (outsideByte s pa || regionOf s pa == .host) && !(write && i4xAlias s pa)
  .next (if !spanAll addr n ok then answer s unsupported
    else if !spanReady s addr n (partOfPa s addr) then spanAsk s addr n write 40
    else if write then outsideWrite s addr bytes
    else outsideRead s addr n)

/-- An atomic of another module, executed at this module's home slice (13 R287; 04 R102): of memory, or of a word of a serac
alias. -/
def remoteAtomic (s : State) (op addr size : Nat) (x y : Word) (type rnd : Nat) : State :=
  let ok := (size == 4 || size == 8) && addr % size == 0 && decide (op < 9 ∧ typeBits type = 8 * size) && !spanAny addr size (hostBarred s) &&
    spanAll addr size (outsideByte s) &&
    (match windowAt s addr with | some (_, w) => w.kind == 0 && w.e == size | none => true)
  if !ok then answer s unsupported
  else if !spanReady s addr size (partOfPa s addr) then spanAsk s addr size true 40
  else homeAtomNow s addr size ⟨op, addr, size, x, y, type, rnd, 0⟩

/-- A peer stops answering: its outstanding reads become POISON, its outstanding writes are counted (18 R375). -/
def execPeerTimeout (port lostWrites : Nat) (s : State) : Out State Fault Refusal :=
  .next ((s.modD (fun d => { d with peersDown := if d.peersDown.contains port then d.peersDown else port :: d.peersDown })) |> (countLost · lostWrites))

/-- An expander is removed while running (18 R374). -/
def execExpanderRemoved (port : Nat) (s : State) : Out State Fault Refusal :=
  .next (s.modD (fun d => { d with removed := if d.removed.contains port then d.removed else port :: d.removed }))

end Sys2Proof.Machine
end

