-- ==== Sys2Proof/Machine/Device.lean ====
section
/-! DEFINITION. Operations on device registers: invalidations (02 R40), format windows (02 R47 to R53), pre-emption
requests (16 R346, R347), occupancy counters (09 R214), rime predicates (17 R354, R355), the registers of partition
blocks, and reads that clear (02 R55). -/

namespace Sys2Proof.Machine

/-- A bit field of a word. -/
def fld (v : Word) (hi lo : Nat) : Nat := bits v.toNat hi lo

def blockAddr (part off : Nat) : Nat := 0x1F0000100000 + 0x1000 * part + off
def windowAddr (n off : Nat) : Nat := 0x1F0000008000 + 0x40 * n + off

/-- A write to a partition's block: taken from those who may, else dropped and counted (18 R380, R381). -/
def blockWrite (s : State) (ag : Agent) (part : Nat) (k : State → State) : State :=
  if mayWriteBlock s ag part then k s else countDrop s (blockAddr part 0)

/-! ## Invalidations (02 R40, R44) -/

/-- The translation belongs to the page that holds an address. -/
def tlbPage (x : TlbEntry) (va : Nat) : Bool := inRange va x.base x.size

/-- The entries that a TLBICTL operation removes. -/
def tlbiHits (p : Partition) (part scope : Nat) (x : TlbEntry) : Bool :=
  x.part == part &&
    (match scope with
     | 0 => true
     | 1 => x.asid == p.asid && !x.g
     | 2 => x.asid == p.asid && !x.g && tlbPage x p.tlbiaddr.toNat
     | _ => tlbPage x p.tlbiaddr.toNat)

/-- A TLBICTL operation starts; a write while one is in progress is ignored. Faults that walks of the partition found before
it, and that nobody has reported yet, are not used any more (02 R44). -/
def tlbiStart (part scope : Nat) (s : State) : State :=
  let p := s.d.part part
  if p.tlbi.isSome then s
  else
    let s := s.modM (fun m => { m with
      tlb := m.tlb.filter (fun x => !tlbiHits p part scope x)
      walks := m.walks.filter (fun q => !(q.done && q.part == part)) })
    s.modPart part (fun q => { q with tlbi := some scope })

def execTlbiAll (agent : Agent) (part : Nat) (s : State) : Out State Fault Refusal :=
  .next (blockWrite s agent part (tlbiStart part 0))
def execTlbiAsid (agent : Agent) (part : Nat) (s : State) : Out State Fault Refusal :=
  .next (blockWrite s agent part (tlbiStart part 1))
def execTlbiPage (agent : Agent) (part : Nat) (s : State) : Out State Fault Refusal :=
  .next (blockWrite s agent part (tlbiStart part 2))
def execTlbiPageAllAsid (agent : Agent) (part : Nat) (s : State) : Out State Fault Refusal :=
  .next (blockWrite s agent part (tlbiStart part 3))

/-- A grove has no access under way that was translated before now. -/
def groveQuiet (g : Grove) : Bool :=
  g.prog.segs.isEmpty && (match g.kept with | some k => k.prog.segs.isEmpty | none => true) && g.ldx.isEmpty &&
    g.outStores == 0 && g.outWbs == 0

/-- Every access of a partition translated so far has been performed. -/
def partQuiet (s : State) (part : Nat) : Bool :=
  (s.stands.filter (fun st => st.part == part)).all (fun st =>
    st.groves.all groveQuiet && st.seq.ops.all (fun o => o.want.isEmpty))

/-- The translations of a partition that stood on segments written since go, and what its walks have found (02 R39). -/
def dropOldSegs (s : State) (part : Nat) : State :=
  if (s.d.part part).segNew then
    (s.modM (fun m => { m with
      tlb := m.tlb.filter (fun x => x.part ≠ part)
      walks := m.walks.filter (fun q => !(q.done && q.part == part)) })).modPart part (fun q => { q with segNew := false })
  else s

/-- A TLBICTL operation ends, whatever its scope: the accesses translated before it are performed (02 R40), and every
segment write before it is in force (R39). -/
def execTlbiComplete (part : Nat) (s : State) : Out State Fault Refusal :=
  .next (if (s.d.part part).tlbi.isSome ∧ partQuiet s part then
      (dropOldSegs s part).modPart part (fun q => { q with tlbi := none })
    else s)

/-- A die's walkers: at most 32 of its walks run, the oldest (02 R45). -/
def runningWalks (s : State) (die : Nat) : List WalkReq := (s.m.walks.filter (fun q => q.die == die && !q.done)).take 32

/-- A walker of a die performs the oldest walk that runs and does not wait for a line (02 R35, R45). -/
def execWalkPage (die : Nat) (s : State) : Out State Fault Refusal :=
  .next ((runningWalks s die).foldl (fun (a : Bool × State) q =>
    if a.1 then a
    else
      let s := performWalk a.2 q
      (!s.m.walks.contains q, s)) (false, s)).2

/-! ## Format windows (02 R47 to R53) -/

/-- Geometry that a window refuses (02 R50). -/
def Window.badGeometry (w : Window) : Bool :=
  decide (4 < w.kind) || w.alen == 0 || ((w.kind == 0 || w.kind == 4) && w.at16 == 1) ||
    (w.kind == 1 && w.elems % 32 != 0) ||
    (w.kind == 0 && (w.dim == 0 || !w.geom.ok || w.elems % w.geom.n != 0))

/-- Two ranges share a byte. -/
def spansMeet (a b : Nat × Nat) : Bool := decide (a.1 < b.1 + b.2 ∧ b.1 < a.1 + a.2)

/-- Alias, coded and scale range of a window: base and length. -/
def Window.ranges (w : Window) : List (Nat × Nat) :=
  [(w.abase, w.aliasBytes), (w.cbase, w.codedBytes)] ++ (if w.kind = 1 then [(w.sbase, w.scaleBytes)] else [])

/-- A range lies in populated memory. -/
def populated (s : State) (q : Nat × Nat) : Bool :=
  decide (q.1 + q.2 ≤ 0x00B2D05E0000) ||
    (decide (0x040000000000 ≤ q.1 ∧ q.1 + q.2 ≤ 0x0C0000000000) &&
      (List.range 4).all (fun n =>
        let base := 0x040000000000 + n * 0x020000000000
        decide (min (q.1 + q.2) (base + 0x020000000000) ≤ max q.1 base ∨
          min (q.1 + q.2) (base + 0x020000000000) ≤ base + s.d.expanders.getD n 0)))

/-- ERR of a write of EN = 1 (02 R50): bad geometry, overlap, range. -/
def windowErr (s : State) (n : Nat) (w : Window) : Nat :=
  if w.badGeometry then 2
  else if s.d.windows.zipIdx.any (fun x => x.2 != n && (x.1.en || x.1.busy) &&
      x.1.ranges.any (fun a => w.ranges.any (spansMeet a))) then 1
  else if !populated s (w.cbase, w.codedBytes) || (w.kind == 1 && !populated s (w.sbase, w.scaleBytes)) ||
      decide (w.abase < 0x100000000000 ∨ 0x180000000000 < w.abase + w.aliasBytes) then 3
  else 0

def State.modWindow (s : State) (n : Nat) (f : Window → Window) : State :=
  s.modD (fun d => { d with windows := d.windows.modify n f })

/-- Who may write a window (02 R47; 18 R380). -/
def mayWriteWindow (s : State) (ag : Agent) (n : Nat) : Bool :=
  let p := (s.d.windows.getD n Window.reset).part
  isOwner s ag || isFirmware s ag || (ag == .hv p && (s.d.part p).alive)

/-- FWCTL's fields but EN, BUSY and ERR; a hypervisor function leaves PART unchanged. -/
def Window.setCtl (w : Window) (v : Word) (keepPart : Bool) : Window :=
  { w with
    part := if keepPart then w.part else fld v 27 23
    kind := fld v 22 20
    dim := fld v 19 18
    stype := fld v 17 17
    at16 := fld v 16 16
    ovf := fld v 15 15
    q := fld v 8 0 }

/-- The lines of a window's coded and scale ranges that slices hold under their own addresses. -/
def codedHeld (s : State) (w : Window) : List L2Line := s.m.l2.filter (fun y => w.codesLine y.line)

/-- Those lines leave the slices: they are not held there while the window is enabled (03 R69). -/
def dropCoded (s : State) (w : Window) : State := (codedHeld s w).foldl evictLine s

/-- They may leave: none is pinned, in use, or dirty in a held stack (03 R72; 18 R382). A write of EN = 1 is performed when
this is so (log entry 128). -/
def codedFree (s : State) (w : Window) : Bool :=
  (codedHeld s w).all (fun y => y.visitor.isSome || (y.pins == 0 && mayLeave s y)) &&
    !(s.m.lineWaits.any (fun t => w.codesLine t.line)) && !(s.m.pinQueue.any (fun q => w.codesLine q.line))

/-- A write of a window register (02 R47, R48, R53). -/
def windowWrite (n off : Nat) (hv : Bool) (v : Word) (s : State) : State :=
  let w := s.d.windows.getD n Window.reset
  if w.busy then s
  else if w.en then (if off = 0 ∧ !v.getLsbD 31 then s.modWindow n (fun w => { w with busy := true }) else s)
  else
    match off with
    | 0x00 =>
      let w := w.setCtl v hv
      if v.getLsbD 31 then
        let e := windowErr s n w
        if e = 0 ∧ !codedFree s w then s
        else (if e = 0 then dropCoded s w else s).modWindow n (fun _ => { w with en := e == 0, err := e })
      else s.modWindow n (fun _ => w)
    | 0x08 => s.modWindow n (fun w => { w with cbase := fld v 44 7 * 128 })
    | 0x10 => s.modWindow n (fun w => { w with abase := fld v 44 12 * 4096 })
    | 0x18 => s.modWindow n (fun w => { w with alen := fld v 44 12 })
    | 0x20 => s.modWindow n (fun w => { w with sbase := fld v 44 0 })
    | _ => s

def isHv (ag : Agent) : Bool := match ag with
  | .hv _ => true
  | .owner => false
  | .firmware => false
  | .groveOf _ => false
  | .master _ => false

def windowAccess (s : State) (ag : Agent) (n off : Nat) (v : Word) : State :=
  if mayWriteWindow s ag n then windowWrite n off (isHv ag && !isOwner s ag) v s else countDrop s (windowAddr n off)

/-- A write of FWCTL with EN = 1. -/
def execWindowEnable (agent : Agent) (n : Nat) (value : Word) (s : State) : Out State Fault Refusal :=
  .next (windowAccess s agent n 0 (value ||| 0x80000000#64))

/-- A write of FWCTL with EN = 0 to an enabled window. -/
def execWindowDisable (agent : Agent) (n : Nat) (s : State) : Out State Fault Refusal :=
  .next (if (s.d.windows.getD n Window.reset).en then windowAccess s agent n 0 0 else s)

/-- Some access to an alias range is under way, one of its lines is pinned, or the code of one of its blocks lies in a held
stack (02 R53; 03 R72; 18 R382). -/
def aliasBusy (s : State) (w : Window) : Bool :=
  let hit (line : Nat) : Bool := inRange (line * 128) w.abase w.aliasBytes
  let segHit (q : Seg) : Bool := inRange q.pa w.abase w.aliasBytes
  s.m.groups.any (fun g => hit (g.base / 128) && groupHeld s w g.base) ||
    s.m.toSlice.any (fun t => hit t.line) || s.m.toCore.any (fun t => hit t.line) ||
    s.m.lineWaits.any (fun t => hit t.line) || s.m.fills.any (fun f => hit f.line) ||
    s.m.l1.any (fun x => hit x.line && !x.pend.isEmpty) || s.m.l2.any (fun y => hit y.line && y.pins != 0) ||
    s.m.pinQueue.any (fun q => hit q.line) ||
    s.stands.any (fun st => st.groves.any (fun g =>
      g.prog.segs.any (fun y => y.segs.any segHit) ||
      (match g.kept with | some k => k.prog.segs.any (fun y => y.segs.any segHit) | none => false) ||
      g.ldx.any (fun e => e.lanes.any (fun l => l.segs.any segHit))))

/-- Every decoded block of a window is written back and dropped (02 R53). -/
def execWindowDisableDone (n : Nat) (s : State) : Out State Fault Refusal :=
  let w := s.d.windows.getD n Window.reset
  .next (if !w.busy || aliasBusy s w then s
    else
      let s := ((s.m.groups.filter (fun g => g.win == n)).map (·.base)).foldl departNow s
      let s := s.modM (fun m => { m with l2 := m.l2.filter (fun y => !inRange (y.line * 128) w.abase w.aliasBytes) })
      s.modWindow n (fun w => { w with en := false, busy := false }))

/-! ## Pre-emption requests (16 R347, R348) -/

/-- The resident stands of a clearing, with SUB those of every live descendant too. -/
def preemptNames (s : State) (part clnum : Nat) (sub : Bool) (st : Stand) : Bool :=
  match clearing? s part clnum with
  | none => false
  | some c =>
    st.part == part && (st.clnum == clnum || (sub && (match clearing? s part st.clnum with
      | some k => (ancestors s.d.clearings 8 k).contains c.id
      | none => false)))

/-- OP 1 sets PREQ, 2 clears it, 3 sets it with its deadline passed. -/
def preemptOp (part clnum : Nat) (sub : Bool) (op : Nat) (s : State) : State :=
  { s with stands := s.stands.map (fun st =>
      if preemptNames s part clnum sub st then
        match op with
        | 1 => { st with preq := true }
        | 2 => { st with preq := false, preqCount := 0, preqForce := false }
        | 3 => { st with preq := true, preqForce := true }
        | _ => st
      else st) }

def execPreemptSet (agent : Agent) (part clnum : Nat) (sub : Bool) (s : State) : Out State Fault Refusal :=
  .next (blockWrite s agent part (preemptOp part clnum sub 1))
def execPreemptClear (agent : Agent) (part clnum : Nat) (sub : Bool) (s : State) : Out State Fault Refusal :=
  .next (blockWrite s agent part (preemptOp part clnum sub 2))
def execPreemptForce (agent : Agent) (part clnum : Nat) (sub : Bool) (s : State) : Out State Fault Refusal :=
  .next (blockWrite s agent part (preemptOp part clnum sub 3))

/-! ## Occupancy counters (09 R214) -/

def clearOcc (part : Nat) (s : State) : State :=
  s.modD (fun d => { d with cores := d.cores.mapIdx (fun n c => if partOfCore s n = part then { c with occ := [] } else c) })

def execOccClear (agent : Agent) (part : Nat) (s : State) : Out State Fault Refusal :=
  .next (blockWrite s agent part (clearOcc part))

/-! ## Reads that clear (02 R55): the value goes to the reader -/

/-- A read of 8 bytes; its value is the completion the agent receives. -/
def readReg (s : State) (ag : Agent) (a : Nat) : State :=
  let r := regRead s ag a 8
  answer r.2 ⟨false, false, toBytes 8 r.1⟩

def execProbemisRead (agent : Agent) (part : Nat) (s : State) : Out State Fault Refusal :=
  .next (readReg s agent (blockAddr part 0x220))
def execLaunchstRead (agent : Agent) (part : Nat) (s : State) : Out State Fault Refusal :=
  .next (readReg s agent (blockAddr part 0x248))
def execErrcntRead (agent : Agent) (s : State) : Out State Fault Refusal := .next (readReg s agent 0x1F0000000020)
def execXfercntRead (agent : Agent) (s : State) : Out State Fault Refusal := .next (readReg s agent 0x1F0000000028)
def execMdropRead (agent : Agent) (s : State) : Out State Fault Refusal := .next (readReg s agent 0x1F0000000030)

/-! ## Rime predicates (17 R355, R356) -/

/-- A write of CTL with an illegal field leaves it unchanged. -/
def Rime.setCtl (r : Rime) (v : Word) : Rime :=
  if 4 ≤ fld v 62 60 ∨ 5 ≤ fld v 59 57 ∨ fld v 56 53 = 15 then r
  else
    { r with
      en := v.getLsbD 63
      kind := fld v 62 60
      act := fld v 59 57
      type := fld v 56 53
      space := v.getLsbD 52
      vdir := v.getLsbD 51
      anycl := v.getLsbD 50
      clnum := fld v 47 32
      cdown := fld v 31 0 }

def Rime.setReg (r : Rime) (k : Nat) (v : Word) : Rime :=
  match k with
  | 0 => r.setCtl v
  | 1 => { r with a := v }
  | 2 => { r with b := v }
  | _ => { r with count := v.toNat }

def rimeWrite (s : State) (core n k : Nat) (v : Word) : State :=
  s.modCore core (fun c => { c with rime := c.rime.modify n (·.setReg k v) })

/-! ## The registers of a partition block -/

/-- A range of granules cut out of an entry of the key table. -/
def cutKey (a n : Nat) (k : Nat × Nat × Nat) : List (Nat × Nat × Nat) :=
  if k.1 + k.2.1 ≤ a ∨ a + n ≤ k.1 then [k]
  else (if k.1 < a then [(k.1, a - k.1, k.2.2)] else []) ++
    (if a + n < k.1 + k.2.1 then [(a + n, k.1 + k.2.1 - (a + n), k.2.2)] else [])

/-- Firmware's granule key table (03 R79): some granules take a key number, and no longer any other. -/
def setKeys (s : State) (a n key : Nat) : State :=
  if n = 0 then s else s.modM (fun m => { m with keys := (a, n, key) :: m.keys.flatMap (cutKey a n) })

/-- The granules of a segment that firmware assigns take the partition's key. -/
def assignKeys (s : State) (part i : Nat) : State :=
  let g := (s.d.part part).segs.getD i Segment.reset
  setKeys s g.target g.len part

def traceptrWrite (part : Nat) (v : Word) (s : State) : State :=
  s.modPart part (fun p => { p with tracePtr := v.toNat, traceFull := false })

def execTraceptrWrite (agent : Agent) (part : Nat) (value : Word) (s : State) : Out State Fault Refusal :=
  .next (blockWrite s agent part (traceptrWrite part value))

/-- A write of a segment register, in force at the latest when the next TLBICTL operation ends (02 R39). -/
def segWrite (part i : Nat) (hi : Bool) (fw : Bool) (v : Word) (s : State) : State :=
  let s := s.modPart part (fun p => { p with segNew := true, segs := p.segs.modify i (fun g =>
    if hi then { g with target := fld v 23 0 }
    else { g with len := fld v 63 40, base := fld v 39 16, sx := v.getLsbD 2, sw := v.getLsbD 1, sr := v.getLsbD 0 }) })
  if fw then assignKeys s part i else s

/-- A write of 8 bytes to a register of a partition block by an agent that may write it. -/
def blockRegWrite (s : State) (ag : Agent) (part off : Nat) (v : Word) : State :=
  let p (f : Partition → Partition) : State := s.modPart part f
  match off with
  | 0x000 => p (fun q => { q with ptroot := BitVec.ofNat 64 (fld v 63 12 * 4096) })
  | 0x008 => p (fun q => { q with asid := fld v 15 0 })
  | 0x010 => p (fun q => { q with segen := v.getLsbD 0, segNew := true })
  | 0x018 => p (fun q => { q with tlbiaddr := v })
  | 0x020 => tlbiStart part (fld v 1 0) s
  | 0x200 => if fld v 3 0 = 0 ∨ fld v 7 4 < fld v 3 0 ∨ 4 < fld v 7 4 then s
    else p (fun q => { q with lmin := fld v 3 0, lmax := fld v 7 4 })
  | 0x208 => p (fun q => { q with l2ways := fld v 11 0 })
  | 0x210 => p (fun q => { q with depth0 := fld v 43 32, rate0 := fld v 11 0 })
  | 0x218 => p (fun q => { q with depth1 := fld v 43 32, rate1 := fld v 11 0 })
  | 0x228 => p (fun q => { q with
      scopeclip := q.scopeclip && !v.getLsbD 2
      scopeTrap := v.getLsbD 1
      scopeOn := v.getLsbD 0 })
  | 0x240 => writeLaunch s part v
  | 0x250 =>
    let s := p (fun q => { q with occFreeze := v.getLsbD 1 })
    if v.getLsbD 0 then clearOcc part s else s
  | 0x260 => preemptOp part (fld v 47 32) (v.getLsbD 2) (fld v 1 0) s
  | 0x268 => if s.d.saved.any (fun st => st.part == part) then s
    else setKeys (p (fun q => { q with saveLen := fld v 63 48, saveBase := fld v 44 21 })) (fld v 44 21) (fld v 63 48) part
  | 0x270 => p (fun q => { q with brkHalt := v.getLsbD 48, dbgcl := fld v 47 32, dbgEn := v.getLsbD 0 })
  | 0x278 => p (fun q => { q with traceBase := fld v 63 12 * 4096 })
  | 0x280 => p (fun q => { q with
      traceEn := v.getLsbD 63
      traceWrap := v.getLsbD 62
      traceCw := fld v 60 56
      traceBar := fld v 55 52
      traceLen := fld v 51 32 })
  | 0x288 => traceptrWrite part v s
  | _ => if 0x100 ≤ off ∧ off < 0x200 then segWrite part ((off - 0x100) / 16) (off % 16 == 8) (ag == .firmware) v s else s

/-- Registers of a block with a WO field act on writes of 8 bytes only (02 R55). -/
def blockWo (off : Nat) : Bool := off == 0x020 || off == 0x240 || off == 0x250 || off == 0x260

end Sys2Proof.Machine
end

