-- ==== Sys2Proof/Machine/Dump.lean ====
section
/-! DEFINITION. The dump of a fatal error in host memory (18 R383; 16 R351; 04 R83). The spec gives the parts and their
order, the model the places inside them (log entry 57, DESIGN CHOICE). -/

namespace Sys2Proof.Machine

/-- Bytes of a save record (16 R351). -/
def recordBytes (st : Stand) : Nat := (131072 + 8 * st.shape.pool_ + st.shape.scratchBytes + 4095) / 4096 * 4096

/-- Bytes laid over a memory, none beyond its end, the canonical form kept. -/
def memLay (m : List Cell) (a : Nat) (bytes : List Byte) : List Cell :=
  m.filter (fun c => decide (c.1 < a)) ++
    (bytes.zipIdx.map (fun x => (a + x.2, x.1))).filter (fun c => decide (c.2 ≠ memDefault)) ++
    m.filter (fun c => decide (a + bytes.length ≤ c.1))

/-- Bytes laid over host memory, whose addresses have 64 bits. -/
def hostLay (m : List Cell) (a : Nat) (bytes : List Byte) : List Cell :=
  memLay (memLay m a (bytes.take (2 ^ 64 - a))) 0 (bytes.drop (2 ^ 64 - a))

/-- The register blocks of the device: offset and registers of each (02 R38, R47; 08 R192; 09 R214; 17 R354, R372; 18 R376
to R384). -/
def registerBlocks : List (Nat × Nat) :=
  [(0, 161), (0x8000, 512), (0x10000, 4096), (0x18000, 128), (0x100000, 10240), (0x300000, 512), (0x400000, 12288),
   (0x500000, 24576), (0x600000, 24)]

def dumpRegisters (s : State) : List Byte :=
  registerBlocks.flatMap (fun b => (List.range b.2).flatMap (fun i =>
    toBytes 8 (regValue s (regAt (0x1F0000000000 + b.1 + 8 * i)))))

/-- The stands whose records the dump holds: those on cores, and the saved ones. -/
def dumpStands (s : State) : List Stand := s.stands ++ s.d.saved

/-- The records' bytes belong to the device (16 R351): free values, from a count on. -/
def dumpRecords (s : State) : List Byte :=
  (List.range (((dumpStands s).map recordBytes).sum / 8)).flatMap (fun i => toBytes 8 (Config.freeWord (s.fresh + i)).toNat)

/-- The live entries of a slice's firn table, the oldest first: the 192 bits of 04 R83, LINE lowest. -/
def dumpFirn (s : State) (slice : Nat) : List Byte :=
  (s.m.firn.filter (fun e => e.slice == slice)).zipIdx.flatMap (fun x =>
    toBytes 24 (x.1.line + x.1.core * 2 ^ 38 + x.1.part * 2 ^ 46 + x.1.mask.toNat * 2 ^ 51 + x.2 * 2 ^ 179))

/-- The header: the cause, the dies' TIME, and the directory, which counts the records and says where each begins. -/
def dumpHeader (s : State) (cause recs : Nat) : List Byte :=
  let at_ := (dumpStands s).foldl (fun (a : Nat × List Nat) st => (a.1 + recordBytes st, a.2 ++ [a.1])) (4096 + recs, [])
  let words := (cause :: s.d.time) ++ ((dumpStands s).length :: at_.2)
  ((words.flatMap (toBytes 8)) ++ List.replicate 4096 0).take 4096

/-- The whole dump. -/
def dumpBytes (s : State) (cause : Nat) : List Byte :=
  let regs := dumpRegisters s
  dumpHeader s cause regs.length ++ regs ++ dumpRecords s ++ (List.range 192).flatMap (dumpFirn s)

/-- The management core writes the dump to the host at DUMPBASE (18 R383). -/
def writeDump (s : State) (cause : Nat) : State :=
  { s.modM (fun m => { m with hostMem := hostLay m.hostMem s.d.mgmt.dumpbase.toNat (dumpBytes s cause) }) with
    fresh := s.fresh + ((dumpStands s).map recordBytes).sum / 8 }

end Sys2Proof.Machine
end

