-- ==== Sys2Proof/Machine/Service.lean ====
section
/-! DEFINITION. Power-up, firmware, ownership, partitions, service and fatal errors (18 R376 to R384), throttling and
power windows (17 R371), and writes of device registers (02 R55). -/

namespace Sys2Proof.Machine

/-! ## Power-up and firmware (18 R377 to R379) -/

/-- What a power-up leaves: the reset state beside host memory and the model's own counters. -/
def powerUp (s : State) : State :=
  { State.reset with
    agenda := s.agenda
    fresh := s.fresh
    stamp := s.stamp
    nextId := s.nextId
    m := { MemSys.reset with hostMem := s.m.hostMem } }

def execPowerUp (s : State) : Out State Fault Refusal := .next (powerUp s)

/-- A write of FWSTART: the boot ROM verifies the staged image; with bit 63 a live update. After a fatal error the new
start finds the machine as a power-up leaves it, but for memory and MODID, which stays read only until the next power-up
(00 R8; log entry 29). -/
def fwstart (v : Word) (s : State) : State :=
  let m := s.d.mgmt
  let begin_ (s : State) (live : Bool) : State := s.modMgmt (fun g => { g with
    fwLen := v.toNat, fwStart := true, fwLive := live, fwStat := if live then g.fwStat else 0 })
  if m.fatal.isSome then
    if v.getLsbD 63 then s
    else begin_ (((powerUp s).modM (fun k => { k with mem := s.m.mem, poison := s.m.poison, staging := s.m.staging })).modMgmt (fun g => { g with
      modid := m.modid, modidLocked := m.modidLocked })) false
  else if m.fwStart then s
  else if m.fwRunning then (if v.getLsbD 63 then begin_ s true else s)
  else if v.getLsbD 63 then s
  else begin_ s false

def execFirmwareStart (v : Word) (s : State) : Out State Fault Refusal := .next (fwstart v s)

/-- A FWSTART with bit 63 (18 R379). -/
def execLiveUpdate (v : Word) (s : State) : Out State Fault Refusal := .next (fwstart (v ||| 0x8000000000000000#64) s)

/-- The verification ends (inputs: log entry 11). A started image writes DRIFTCTL and MAXOPEN of every HBM controller; a live
update keeps every register; a refusal clears the staging window (18 R377 to R379). -/
def firmwareVerified (keyOk sigOk versionOk : Bool) (s : State) : State :=
  let m := s.d.mgmt
  let code := if 64 * 2 ^ 20 < m.fwLen % 2 ^ 63 then 5 else if !keyOk then 2 else if !sigOk then 3 else if !versionOk then 4 else 1
  if !m.fwStart then s
  else
    let s := s.modMgmt (fun g => { g with fwStart := false, fwLive := false, fwStat := code })
    if code ≠ 1 then s.modM (fun k => { k with staging := [] })
    else if m.fwLive then s
    else
      let s := s.modMgmt (fun g => { g with fwRunning := true, maxOpen := [4, 4, 4, 4] })
      s.modD (fun d => { d with clusters := d.clusters.map (fun c => { c with en := true, delta := 16, intv := 21 }) })

def execFirmwareVerified (keyOk sigOk versionOk : Bool) (s : State) : Out State Fault Refusal :=
  .next (firmwareVerified keyOk sigOk versionOk s)

/-! ## Ownership (18 R380) -/

/-- Writes to the management block that are not taken. -/
def dropMgmt (s : State) (n : Nat) : State :=
  s.modMgmt (fun m => { m with mdrop := min (m.mdrop + n) (2 ^ 32 - 1) })

/-- Claims that arrive in one clk: the lower ID wins when there is no owner; only the master that NEXT names replaces an
owner. The others are dropped. The link's port 0 is a master as any other (log entry 58). -/
def ownerClaim (ids : List Nat) (s : State) : State :=
  let m := s.d.mgmt
  let ids := ids.map (· % 2 ^ 24)
  match ids with
  | [] => s
  | i :: rest =>
    if !m.fwRunning then dropMgmt s ids.length
    else if !m.held then
      let w := rest.foldl min i
      dropMgmt (s.modMgmt (fun g => { g with held := true, owner := w })) (ids.filter (· ≠ w)).length
    else match m.next with
      | some n =>
        if ids.contains n then
          dropMgmt (s.modMgmt (fun g => { g with owner := n, next := none })) (ids.filter (· ≠ n)).length
        else dropMgmt s (ids.filter (· ≠ m.owner)).length
      | none => dropMgmt s (ids.filter (· ≠ m.owner)).length

def execOwnerClaim (ids : List Nat) (s : State) : Out State Fault Refusal := .next (ownerClaim ids s)

/-- A write to the management block by the owner; others' writes are dropped and counted. -/
def mgmtWrite (s : State) (ag : Agent) (k : State → State) : State := if isOwner s ag then k s else dropMgmt s 1

/-- The owner names the master that may replace it. -/
def setNext (next : Nat) (s : State) : State := s.modMgmt (fun m => { m with next := some (next % 2 ^ 24) })

def execOwnerNext (agent : Agent) (next : Nat) (s : State) : Out State Fault Refusal :=
  .next (mgmtWrite s agent (setNext next))

/-- An owner that leaves the link for 100 ms releases ownership. -/
def execOwnerTimeout (s : State) : Out State Fault Refusal := .next (s.modMgmt (fun m => { m with held := false }))

/-! ## Partitions (18 R381) -/

/-- Physical cores of a set of half-clusters. -/
def coresOfHalves (halves : Nat) : List Nat := (List.range 192).filter (fun c => halves.testBit (c / 6))

/-- The map entries of some cores become the identity, and no swap of theirs goes on (00 R3; 08 R193). -/
def identityMap (s : State) (halves : Nat) : State :=
  s.modD (fun d => { d with clusters := d.clusters.mapIdx (fun k c =>
    { c with
      map := c.map.mapIdx (fun j x => if halves.testBit ((12 * k + j) / 6) then 12 * k + j else x)
      pair := c.pair.filter (fun p => !halves.testBit (p.1 / 6)) }) })

/-- A swap that has been chosen between cores of some half-clusters does not happen: no stand of it is left (08 R193). -/
def dropSwaps (s : State) (halves : Nat) : State :=
  s.modD (fun d => { d with clusters := d.clusters.map (fun c => { c with pair := c.pair.filter (fun p => !halves.testBit (p.1 / 6)) }) })

/-- The fields that firmware sets at a create (18 R381). -/
def Partition.created (halves : Nat) : Partition :=
  { Partition.reset with
    alive := true
    halves := halves
    halvesReg := halves
    busy := true
    lmin := 1
    lmax := 4
    l2ways := 0xFFF
    depth0 := 256
    depth1 := 256 }

/-- Memory of the granules that carry a key number is zeroed (18 R381, 03 R79). -/
def zeroGranules (s : State) (key : Nat) : State :=
  let mine := s.m.keys.filter (fun k => k.2.2 == key)
  let hit (a : Nat) : Bool := mine.any (fun k => inRange a (k.1 * 2 ^ 21) (k.2.1 * 2 ^ 21))
  s.modM (fun m => { m with
    mem := m.mem.filter (fun c => !hit c.1)
    poison := m.poison.filter (fun l => !hit (l * 128))
    lost := m.lost.filter (fun w => !hit (w * 4))
    unverified := m.unverified.filter (fun l => !hit (l * 128)) })

def anyPartBusy (s : State) : Bool := s.d.parts.any (·.busy)

/-- A create: only over half-clusters of no other partition. -/
def partitionCreate (part halves : Nat) (s : State) : State :=
  let free := decide (part < 20) && halves % 2 ^ 32 != 0 && !(s.d.part part).alive &&
    s.d.parts.all (fun q => !q.alive || q.halves &&& (halves % 2 ^ 32) == 0)
  if !free then s.modPart part (fun q => { q with halvesReg := halves % 2 ^ 32 })
  else
    let h := halves % 2 ^ 32
    let s := zeroGranules s part
    let s := s.modPart part (fun _ => Partition.created h)
    let s := s.modMgmt (fun m => { m with modidLocked := true })
    let s := (coresOfHalves h).foldl (fun s c => s.modCore c (fun k => { k with
      l1cur := 1, l1req := 1, l1st := 0, conv := none, occ := [] })) s
    identityMap s h

/-- Every stand of a partition stops at once, its records are discarded and its registrations are lost. -/
def stopPartition (part : Nat) (s : State) : State :=
  let ids := (s.d.clearings.filter (fun c => c.part == part)).map (·.id)
  let s := (s.stands.filter (fun st => st.part == part)).foldl (fun s st => dropReceiver (releaseStand s st) st.uid) s
  let s := s.modD (fun d => { d with
    saved := d.saved.filter (fun st => st.part ≠ part)
    batches := d.batches.filter (fun b => !ids.contains b.clearing)
    clearings := d.clearings.filter (fun c => c.part ≠ part) })
  let s := s.modM (fun m => { m with walks := m.walks.filter (fun q => q.part ≠ part) })
  (coresOfHalves (s.d.part part).halves).foldl loseCore (dropSwaps s (s.d.part part).halves)

/-- OP of PARTCTL: 1 create, 2 reset, 3 remove. A write while an operation is in progress is dropped. -/
def partctl (part halves op : Nat) (s : State) : State :=
  if anyPartBusy s then dropMgmt s 1
  else
    match op with
    | 1 => partitionCreate part halves s
    | 2 | 3 =>
      let s := s.modPart part (fun q => { q with halvesReg := halves % 2 ^ 32 })
      if (s.d.part part).alive then
        (stopPartition part s).modPart part (fun q => { q with busy := true, resetting := true, removing := op == 3 })
      else s
    | _ => s.modPart part (fun q => { q with halvesReg := halves % 2 ^ 32 })

def execPartitionCreate (agent : Agent) (part halves : Nat) (s : State) : Out State Fault Refusal :=
  .next (mgmtWrite s agent (partctl part halves 1))
def execPartitionReset (agent : Agent) (part : Nat) (s : State) : Out State Fault Refusal :=
  .next (mgmtWrite s agent (partctl part (s.d.part part).halvesReg 2))
def execPartitionRemove (agent : Agent) (part : Nat) (s : State) : Out State Fault Refusal :=
  .next (mgmtWrite s agent (partctl part (s.d.part part).halvesReg 3))

/-- The operation ends; a removed partition frees its half-clusters, whose counters become 0 (09 R214). -/
def execPartitionOpComplete (part : Nat) (s : State) : Out State Fault Refusal :=
  let p := s.d.part part
  .next (if !p.busy then s
    else if p.removing then
      let s := (coresOfHalves p.halves).foldl (fun s c => s.modCore c (fun k => { k with occ := [] })) s
      let s := identityMap s p.halves
      s.modPart part (fun q => { Partition.reset with halvesReg := q.halvesReg })
    else s.modPart part (fun q => { q with busy := false, resetting := false }))

/-! ## Service (18 R382) -/

/-- A mailbox command of the owner; one operation runs at a time. -/
def mailbox (op arg : Nat) (s : State) : State :=
  if s.d.mgmt.mboxBusy then s
  else
    let s := s.modMgmt (fun m => { m with mboxOp := op, mboxArg := arg, mboxBusy := true })
    match op with
    | 1 =>
      let s := s.modMgmt (fun m => { m with heldStacks := [arg] })
      s.modM (fun m => { m with rows := m.rows.filter (fun o => o.stack ≠ arg) })
    | 2 => s
    | 3 => s
    | 4 => s
    | _ => s.modMgmt (fun m => { m with mboxBusy := false })

/-- The core that takes over from a retired one: the lowest of its cluster and partition that holds no stand and is not
retired. -/
def replacementOf (s : State) (core : Nat) : Option Nat :=
  (List.range 12).map (12 * coreCluster core + ·) |>.find? (fun c =>
    c != core && partOfCore s c == partOfCore s core && decide (partOfCore s c < 20) &&
      !(s.d.core c).retired && (standsOn s c).isEmpty)

/-- The stands of a core that is to be retired are saved at once (16 R348, R349). -/
def forceSaves (s : State) (core : Nat) : State :=
  { s with stands := s.stands.map (fun st => if st.core = core then { st with preq := true, preqForce := true } else st) }

def execRecalibrate (agent : Agent) (stack : Nat) (s : State) : Out State Fault Refusal :=
  .next (mgmtWrite s agent (mailbox 1 stack))
def execRetireCore (agent : Agent) (core : Nat) (s : State) : Out State Fault Refusal :=
  .next (mgmtWrite s agent (fun s =>
    if s.d.mgmt.mboxBusy then s
    else if (replacementOf s core).isSome then forceSaves (mailbox 2 core s) core else mailbox 2 core s))
def execRetireChannel (agent : Agent) (channel : Nat) (s : State) : Out State Fault Refusal :=
  .next (mgmtWrite s agent (mailbox 3 channel))
def execReadCounters (agent : Agent) (s : State) : Out State Fault Refusal :=
  .next (mgmtWrite s agent (mailbox 4 0))

/-- Exchanges the map entries of two cores of a cluster (08 R193). -/
def exchangeMap (s : State) (a b : Nat) : State :=
  s.modD (fun d => { d with clusters := d.clusters.modify (coreCluster a) (fun c =>
    { c with map := c.map.map (fun x => if x = a then b else if x = b then a else x) }) })

/-- The operation in progress finishes: status 0, or a reason code. -/
def serviceDone (s : State) : State :=
  let m := s.d.mgmt
  let finish (s : State) (code : Nat) : State := s.modMgmt (fun m => { m with mboxBusy := false, mboxStatus := code })
  if !m.mboxBusy then s
  else
    match m.mboxOp with
    | 1 => finish (s.modMgmt (fun m => { m with heldStacks := [] })) 0
    | 2 =>
      (match replacementOf s m.mboxArg with
       | none => finish s 1
       | some r =>
         if (standsOn s m.mboxArg).isEmpty then
           finish ((exchangeMap s m.mboxArg r).modCore m.mboxArg (fun c => { c with retired := true })) 0
         else s)
    | 3 => finish (s.modMgmt (fun m => { m with retiredChannels := m.mboxArg :: m.retiredChannels })) 0
    | _ => finish (s.modMgmt (fun g => { g with
        mboxData := s.m.seracCnts ++ s.m.lostCnts.map (fun x => (64 * 192 * 3 + x.1, x.2)) })) 0

def execServiceOperationComplete (s : State) : Out State Fault Refusal := .next (serviceDone s)

/-! ## Fatal errors, power and heat (18 R383, R384; 17 R371) -/

/-- Every core stops, and the dump is written to the host. -/
def execFatalError (cause : Nat) (s : State) : Out State Fault Refusal :=
  .next ((writeDump s cause).modMgmt (fun m => { m with fatal := some cause }))

/-- The KIND 4 record of a throttle event for one partition, and its power window. -/
def throttlePart (die kind old new part : Nat) (s : State) : State :=
  let cores := (List.range 192).filter (fun c => coreDie c == die && partOfCore s c == part)
  match cores with
  | [] => s
  | c :: _ =>
    let p := s.d.part part
    let s := traceRecord s part [4 * 2 ^ 60 + new * 2 ^ 56 + c * 2 ^ 48, 0, s.d.time.getD die 0, p.traceBar * 2 ^ 32, 0,
      kind + old * 2 ^ 8 + new * 2 ^ 12, 0, 0]
    if p.traceCw = 0 then s
    else s.modPart part (fun q => { q with powerEnd := some (s.d.clkCount + 2 ^ max 10 p.traceCw) })

/-- The module's power in W exceeds PWRCEIL, a value above 2,900 acting as 2,900 (18 R384). -/
def Mgmt.overPower (m : Mgmt) : Bool := decide (min m.pwrceil 2900 < m.power)

/-- The changes of a die's state that power (1), heat (2) or the end of the cause (3) forces: power above PWRCEIL lowers it,
heat drops it to 0, the end raises it to 15 (18 R384). -/
def throttles (above : Bool) (kind old new : Nat) : Bool :=
  match kind with
  | 1 => above && decide (new < old)
  | 2 => new == 0 && old != 0
  | 3 => !above && new == 15 && old != 15
  | _ => false

/-- A die's voltage-frequency state is changed by power, heat or the end of its cause. -/
def execThrottleEvent (die kind newState : Nat) (s : State) : Out State Fault Refusal :=
  let old := s.d.vf.getD die 15
  let new := newState % 16
  .next (if throttles s.d.mgmt.overPower kind old new then (List.range 20).foldl (fun s p => throttlePart die kind old new p s)
      (s.modD (fun d => { d with vf := d.vf.set die new }))
    else s)

/-- A power window ends after 2^CW clk; CW 1 to 9 act as 10 (17 R369). -/
def execPowerWindowEnd (part : Nat) (s : State) : Out State Fault Refusal :=
  .next (if inPowerWindow s part then s else s.modPart part (fun q => { q with powerEnd := none }))

/-! ## Writes of device registers (02 R55) -/

/-- A write of 8 bytes to the management block by the owner. -/
def mgmtRegWrite (r : Reg) (v : Word) (s : State) : State :=
  let m (f : Mgmt → Mgmt) : State := s.modMgmt f
  match r with
  | .modid => if s.d.mgmt.modidLocked then s else m (fun g => { g with modid := fld v 18 0 })
  | .hostbase => m (fun g => { g with hostbase := fld v 63 12 * 4096 })
  | .hostcap => m (fun g => { g with atomics := v.getLsbD 0 })
  | .owner => setNext (fld v 55 32) s
  | .fwstart => fwstart v s
  | .partctl p => partctl p (fld v 31 0) (fld v 62 60) s
  | .mailbox =>
    let op := fld v 63 56
    if op = 2 ∧ !s.d.mgmt.mboxBusy ∧ (replacementOf s (fld v 31 0)).isSome then
      forceSaves (mailbox 2 (fld v 31 0) s) (fld v 31 0)
    else mailbox op (fld v 31 0) s
  | .dumpbase => m (fun g => { g with dumpbase := v })
  | .pwrceil => m (fun g => { g with pwrceil := v.toNat })
  | .routehi i => m (fun g => { g with routehi := spSet 0 g.routehi i (fld v 15 15 * 2 ^ 15 + fld v 3 0) })
  | .routelo i => m (fun g => { g with routelo := spSet 0 g.routelo i (fld v 15 15 * 2 ^ 15 + fld v 3 0) })
  | .errcnt | .xfercnt | .mdrop | .fwstat | .window _ _ | .block _ _ | .drift _ | .occ _ _ | .rimeReg _ _ _ | .skew _
  | .none => s

/-- The ID of a master that writes OWNER with it: a claim. -/
def claimOf (ag : Agent) (v : Word) : Option Nat :=
  match ag with
  | .master id => if fld v 23 0 = id then some id else none
  | .owner => none
  | .firmware => none
  | .hv _ => none
  | .groveOf _ => none

/-- A register with a WO field acts on writes of 8 bytes only. The mailbox counts as one (log entry 102, DESIGN CHOICE: 18
R382 gives its fields no access). -/
def Reg.wo (r : Reg) : Bool :=
  match r with
  | .block _ off => blockWo off
  | .partctl _ => true
  | .mailbox => true
  | .modid | .hostbase | .hostcap | .owner | .errcnt | .xfercnt | .mdrop | .fwstart | .fwstat | .dumpbase | .pwrceil
  | .routehi _ | .routelo _ | .window _ _ | .drift _ | .occ _ _ | .rimeReg _ _ _ | .skew _ | .none => false

/-- The bits of a register that clear when written 1: SCOPECLIP (05 R125). -/
def Reg.w1c (r : Reg) : Word :=
  match r with
  | .block _ 0x228 => 4
  | _ => 0

/-- What a write of a half means for the whole register. -/
def widen (s : State) (r : Reg) (a size : Nat) (v : Word) : Word :=
  if size = 8 then v
  else
    let cur := BitVec.ofNat 64 (regValue s r) &&& ~~~r.w1c
    if a % 8 = 0 then (cur &&& 0xFFFFFFFF00000000#64) ||| (v &&& 0xFFFFFFFF#64)
    else (cur &&& 0xFFFFFFFF#64) ||| (v <<< 32)

/-- A write of 4 or 8 bytes to a device register. -/
def regWrite (s : State) (ag : Agent) (a size : Nat) (v : Word) : State :=
  let r := regAt (a / 8 * 8)
  let v := widen s r a size v
  if size ≠ 8 ∧ r.wo then
    match r with
    | .block p _ => if mayWriteBlock s ag p then s else countDrop s a
    | _ => mgmtWrite s ag id
  else
    match r with
    | .window n off => windowAccess s ag n off v
    | .block p off => if mayWriteBlock s ag p then blockRegWrite s ag p off v else countDrop s a
    | .drift k =>
      if isOwner s ag ∨ isFirmware s ag then s.modD (fun d => { d with clusters := d.clusters.modify k (fun c =>
        { c with delta := fld v 15 8, en := v.getLsbD 7, intv := fld v 4 0 }) }) else s
    | .rimeReg core n k =>
      if isOwner s ag ∨ isFirmware s ag ∨ ag = .hv (partOfCore s core) then rimeWrite s core n k v else s
    | .occ _ _ => s
    | .skew _ => s
    | .none => if isOwner s ag then s else countDrop s a
    | .owner =>
      if isOwner s ag then (if size = 8 ∨ a % 8 ≠ 0 then setNext (fld v 55 32) s else s)
      else match claimOf ag v with
        | some id => ownerClaim [id] s
        | none => dropMgmt s 1
    | .fwstart => if isOwner s ag ∨ !s.d.mgmt.held then fwstart v s else dropMgmt s 1
    | .modid | .hostbase | .hostcap | .errcnt | .xfercnt | .mdrop | .fwstat | .partctl _ | .mailbox | .dumpbase
    | .pwrceil | .routehi _ | .routelo _ => mgmtWrite s ag (mgmtRegWrite r v)

def execRegisterWrite (agent : Agent) (addr size : Nat) (value : Word) (s : State) : Out State Fault Refusal :=
  .next (regWrite s agent addr size value)

end Sys2Proof.Machine
end

