-- ==== Sys2Proof/Machine/Sync.lean ====
section
/-! DEFINITION. Floes (03 R64 to R68; 13 R293), barriers (13 R294), timelines (13 R295, R296), serac codec instructions
(07 R164 to R168), and deposits into spawn bins (08 R188 to R191; 11 R253). -/

namespace Sys2Proof.Machine

/-! ## Floes -/

def Floe.empty : Floe := ⟨0, 0, 0, 0⟩

/-- The 64-bit entry (03 R65). -/
def Floe.word (f : Floe) : Word :=
  BitVec.ofNat 64 (f.state * 2 ^ 62 + f.pend * 2 ^ 32 + f.size * 2 ^ 16 + f.offset)

def setFloe (st : Stand) (n : Nat) (f : Floe) : Stand := { st with floes := st.floes.set n f }

/-- The definition of a floe: detail 2 for its numbers, 3 for a floe that is not empty, 2 for its range (03 R67). -/
def floeDefBad (st : Stand) (n off size : Nat) : Option Nat :=
  let f := st.floes.getD n Floe.empty
  let o := off / 256
  let z := size / 256
  if off % 256 ≠ 0 ∨ size % 256 ≠ 0 ∨ size = 0 ∨ 15360 * 256 < size then some 2
  else if f.state ≠ 0 then some 3
  else if st.scratchSize < off + size ∨
      st.floes.any (fun g => g.state != 0 && decide (o < g.offset + g.size ∧ g.offset < o + z)) then some 2
  else none

/-- A floe number that the stand does not have is refused first (03 R64). -/
def withFloe (x : Gx) (n : Nat) (k : State) : State :=
  if x.st.floes.length ≤ n then x.trapAll cFLOE 1 0 else k

def floeDefOp (x : Gx) (n : Nat) (off size : Nat) : State :=
  withFloe x n (match floeDefBad x.st n off size with
    | some d => x.trapAll cFLOE d 0
    | none => (x.done x.g).modStand x.st.uid (fun st => setFloe st n ⟨2, 0, size / 256, off / 256⟩))

def execFloeDef (n : BitVec 6) (a b : BitVec 8) (s : State) : Out State Fault Refusal :=
  groveInstr (.floeDef n a b) s (fun x => floeDefOp x n.toNat (uVal x.g a).toNat (uVal x.g b).toNat)

def floeRelOp (x : Gx) (n : Nat) : State :=
  withFloe x n (match (x.st.floes.getD n Floe.empty).state with
    | 0 => x.trapAll cFLOE 3 0
    | 2 => (x.done x.g).modStand x.st.uid (fun st => setFloe st n Floe.empty)
    | _ => x.hold .memory x.g)

def execFloeRel (n : BitVec 6) (s : State) : Out State Fault Refusal :=
  groveInstr (.floeRel n) s (fun x => floeRelOp x n.toNat)

def execFloeSt (d : BitVec 8) (n : BitVec 6) (s : State) : Out State Fault Refusal :=
  groveInstr (.floeSt d n) s (fun x => withFloe x n.toNat
    (x.done (x.g.setS (opNum d) (x.st.floes.getD n.toNat Floe.empty).word)))

/-! ## Barriers -/

def barPhaseOf (st : Stand) (n : Nat) : Nat := (st.barriers.getD n Barrier.zero).phase

/-- An arrival: a second one in one phase waits for the phase to complete (08 R178), and earlier stores, atomics and range
write-backs are performed first (05 R118; 13 R290); each of these waits is one at a barrier (13 R294). `k` goes on after it
with the phase arrived in. -/
def barArrive (x : Gx) (n : Nat) (k : Gx → Nat → State) : State :=
  let phi := barPhaseOf x.st n
  if x.g.barLast.getD n none = some phi then x.hold .barrier x.g
  else if x.g.outStores ≠ 0 ∨ x.g.outWbs ≠ 0 then x.hold .barrier x.g
  else k { x with g := { x.g with barLast := x.g.barLast.set n (some phi) } } phi

/-- Stores the grove and counts its arrival. -/
def arriveNow (x : Gx) (n : Nat) (s : State) : State := s.modStand x.st.uid (fun st => arriveAt st n x.g.slot)

/-- A grove inside a barrier wait notes the phase it waits for. -/
def waitingFor (x : Gx) (phi : Nat) : Grove := { x.g with prog := { x.g.prog with phase := 1, barPhase := phi } }

/-- The wait on a phase: no cache effect, since its acquire is at stand scope (04 R91). -/
def barWaitOn (x : Gx) (n phi : Nat) : State :=
  if barPhaseOf x.st n = phi then x.hold .barrier (waitingFor x phi) else x.done x.g

def execBarArr (n : BitVec 4) (s : State) : Out State Fault Refusal :=
  groveInstr (.barArr n) s (fun x => barArrive x n.toNat (fun x _ => arriveNow x n.toNat (x.done x.g)))

def execBarWait (n : BitVec 4) (s : State) : Out State Fault Refusal :=
  groveInstr (.barWait n) s (fun x =>
    barWaitOn x n.toNat (if x.g.prog.phase = 1 then x.g.prog.barPhase else barPhaseOf x.st n.toNat))

/-- The arrival completes the phase, or the grove waits for it. -/
def barSyncArrived (x : Gx) (n phi : Nat) : State :=
  if barPhaseOf (arriveAt x.st n x.g.slot) n = phi then arriveNow x n (x.hold .barrier (waitingFor x phi))
  else arriveNow x n (x.done x.g)

def execBarSync (n : BitVec 4) (s : State) : Out State Fault Refusal :=
  groveInstr (.barSync n) s (fun x =>
    if x.g.prog.phase = 1 then barWaitOn x n.toNat x.g.prog.barPhase
    else barArrive x n.toNat (fun y phi =>
      if x.g.single.isSome ∧ barPhaseOf (arriveAt x.st n.toNat x.g.slot) n.toNat = phi then x.hold .barrier x.g
      else barSyncArrived y n.toNat phi))

/-! ## Timelines -/

def timeline (st : Stand) (t : BitVec 1) : Timeline := if t = 1#1 then st.tlm else st.tlc

def tlwaitOp (x : Gx) (scope : Nat) (t : BitVec 1) (n : Nat) : State :=
  if (timeline x.st t).counter < n then x.hold .memory x.g else acquireAt x.fin x.st.core scope

def execTlwait (s : BitVec 3) (t r : BitVec 1) (n : BitVec 16) (st : State) : Out State Fault Refusal :=
  groveInstr (.tlwait s t r n) st (fun x =>
    tlwaitOp x s.toNat t (if r = 1#1 then (sGet x.g (n.toNat % 32)).toNat else n.toNat))

def execTlrd (t : BitVec 1) (d : BitVec 5) (w : BitVec 1) (s : State) : Out State Fault Refusal :=
  groveInstr (.tlrd t d w) s (fun x =>
    let tl := timeline x.st t
    x.done (x.g.setS d.toNat (BitVec.ofNat 64 (if w = 1#1 then tl.last else tl.counter))))

/-! ## Serac codec instructions -/

def byteOf (r : BitVec 6) : BitVec 8 := 0#2 ++ r

/-- One register of the `n` lanes of a block, lowest lane first. -/
def blockRegs (g : Grove) (q : SGeom) (r j : Nat) : List Nat :=
  (List.range q.n).map (fun o => ((g.lane (j * q.n + o)).reg r).toNat)

/-- `sdec` (07 R165): the codes of every block, decoded once per lane. -/
def sdecLane (g : Grove) (q : SGeom) (a l : Nat) : Word :=
  let code := (blockRegs g q a (l / q.n)).foldr (fun w acc => w + 2 ^ 64 * acc) 0
  BitVec.ofNat 64 ((q.decode (code % 2 ^ q.B)).getD (l % q.n) 0)

def execSdec (d a b : BitVec 6) (s : State) : Out State Fault Refusal :=
  groveInstr (.sdec d a b) s (fun x =>
    let q := geomOf x.g b
    x.lanes (fun l ln => ln.setRegs d.toNat [sdecLane x.g q a.toNat l] false))

/-- `senc` (07 R165). -/
def sencLane (g : Grove) (q : SGeom) (a l : Nat) : Word :=
  let els := (blockRegs g q a (l / q.n)).map (· % 2 ^ q.P)
  BitVec.ofNat 64 (q.encode els / 2 ^ (64 * (l % q.n)))

/-- NV in the lanes whose element is a NaN or infinite. -/
def sencFlags (g : Grove) (q : SGeom) (a l : Nat) : FFlags :=
  match q.fmt.decode (((g.lane l).reg a).toNat % 2 ^ q.P) with
  | .fin .. => 0
  | .inf _ => fNV
  | .nan .. => fNV

def execSenc (d a b : BitVec 6) (s : State) : Out State Fault Refusal :=
  groveInstr (.senc d a b) s (fun x =>
    let q := geomOf x.g b
    x.lanesFlags (fun l ln => ln.setRegs d.toNat [sencLane x.g q a.toNat l] false) (sencFlags x.g q a.toNat))

def execSerr (d a b : BitVec 6) (s : State) : Out State Fault Refusal :=
  groveInstr (.serr d a b) s (fun x =>
    let q := geomOf x.g b
    x.lanes (fun l ln => ln.setRegs d.toNat
      [BitVec.ofNat 64 (q.errBound (srcWhole x.g (byteOf a) true l).toInt)] false))

def execSblk (d a b : BitVec 6) (s : State) : Out State Fault Refusal :=
  groveInstr (.sblk d a b) s (fun x =>
    let q := geomOf x.g b
    x.lanes (fun l ln => ln.setRegs d.toNat
      [BitVec.ofNat 64 ((srcWhole x.g (byteOf a) false l).toNat / q.n * (2 * q.q))] false))

/-! ## Deposits -/

/-- The remaining lanes of an instruction deposit while there is room, in an order that is a free choice (08 R189; log
entry 4): the stand, the lanes that have deposited. -/
def depositAll (st : Stand) (key : Word × BitVec 16) (rec_ : Nat → List Word) : List Nat → LaneMask → Stand × LaneMask
  | [], done => (st, done)
  | l :: ls, done =>
    match deposit1 st key (rec_ l) with
    | none => (st, done)
    | some st => depositAll st key rec_ ls (done ||| (1#1024 <<< l))

/-- One attempt of `spawn` or `rebin`; `record` is the first register of the record. Every earlier access of the grove is
performed first, the reads of its `ldx` among them (11 R254; 05 R112); within a clk, bins that change and slots that are taken
come before it (09 R208). -/
def depositOp (x : Gx) (entry : Word) (tag : BitVec 16) (record : Nat) (fin : Gx → State) : State :=
  let w := x.st.shape.recw
  if x.st.bins.isEmpty then x.trapAll cBOUNDS 7 0
  else if 56 < record + w ∨ x.g.boundary < record + w then x.trapAll cBOUNDS 1 0
  else if entry.extractLsb' 0 2 ≠ 0#2 then x.trapAll cALIGN 2 entry
  else if x.g.outStores ≠ 0 ∨ !x.g.ldx.isEmpty ∨ binsBusy x.s x.st then x.hold .deposit x.g
  else
    let todo := (laneList x.g.lam x.en).filter (fun l => !x.g.prog.done.getLsbD l)
    let o := shuffle todo x.s
    let r := depositAll x.st (entry, tag) (fun l => (List.range w).map (fun i => (x.g.lane l).reg (record + i)))
      o.1 x.g.prog.done
    let g := { x.g with prog := { x.g.prog with done := r.2 } }
    let s := o.2.modStand x.st.uid (fun st => { st with bins := r.1.bins, binOrder := r.1.binOrder })
    let y := { x with s := s, g := g }
    if (laneList x.g.lam x.en).all (fun l => r.2.getLsbD l) then fin y
    else if x.g.single.isSome then x.hold .deposit x.g
    else y.hold .deposit g

def spawnOp (x : Gx) (d a b : BitVec 8) : State :=
  depositOp x (uVal x.g d) ((uVal x.g b).setWidth 16) (opNum a) Gx.fin

def rebinOp (x : Gx) (d b : BitVec 8) : State :=
  if laneOwed x.g x.en then x.hold .score x.g
  else if !(laneErrs x.g x.en).isEmpty then x.ldxTrap (laneErrs x.g x.en)
  else depositOp x (uVal x.g d) ((uVal x.g b).setWidth 16) 0 (fun x => retireLanes x.s x.st.uid x.g x.en)

def execSpawn (d a b : BitVec 8) (s : State) : Out State Fault Refusal :=
  groveInstr (.spawn d a b) s (fun x => spawnOp x d a b)
def execRebin (d b : BitVec 8) (s : State) : Out State Fault Refusal :=
  groveInstr (.rebin d b) s (fun x => rebinOp x d b)

/-- What a grove in a deposit tries again. -/
def retryDeposit (x : Gx) : State :=
  match x.i with
  | .spawn d a b => spawnOp x d a b
  | .rebin d b => rebinOp x d b
  | _ => x.s

/-- A waiting lane deposits once room appears. An instruction of which no lane has deposited has not started: it is ready then,
and a port takes it (09 R210, R211). -/
def execDeposit (uid slot : Nat) (s : State) : Out State Fault Refusal :=
  .next (match s.stand? uid with
    | none => s
    | some st =>
      match st.grove? slot with
      | none => s
      | some g =>
        match g.held with
        | some i =>
          if g.wait = .deposit ∧ runnable s st g then
            let t : State := { retryDeposit ⟨{ s with cur := some ⟨uid, slot⟩, skidding := false, skidStop := false }, st, g,
              g.enabled, i⟩ with cur := none }
            if g.begun then t
            else if ((t.stand? uid).bind (fun st => st.grove? slot)).any (fun h => h.wait == .deposit && !h.begun) then s
            else s.setGrove uid { g with wait := .none }
          else s
        | none => s)

/-- A filling bin whose timer has reached 0 enters launching (08 R190). -/
def execBinTimerExpiry (uid bin : Nat) (s : State) : Out State Fault Refusal :=
  .next (s.modStand uid (fun st =>
    let b := st.bins.getD bin ⟨none, [], 0, none⟩
    if b.expired then
      { st with bins := st.bins.set bin { b with launching := some st.binOrder }, binOrder := st.binOrder + 1 }
    else st))

/-- A launching bin takes an empty grove slot (08 R190, R191), after the bins of the stand whose timers have run out have
changed (09 R208). -/
def execBinLaunch (uid : Nat) (s : State) : Out State Fault Refusal :=
  .next (s.modStand uid (fun st => if draining s st || st.bins.any Bin.expired then st else launchBin s.d.clkCount st))

end Sys2Proof.Machine
end

