-- ==== Sys2Proof/Machine/Copy.lean ====
section
/-! DEFINITION. The copy context of a stand (15 R320 to R338): its queue, the copy instructions, batches, dictionaries,
transforms, chunks, multicast landings and faults. -/

namespace Sys2Proof.Machine

/-! ## The fields of a slice (15 R322, R323, R329) -/

/-- Destination kind, source kind and length; `cpym` lands in scratch from a global source. -/
def CopySlice.dk (c : CopySlice) (kind : Nat) : Nat := if kind = 1 then 1 else fld c.x 39 36
def CopySlice.sk (c : CopySlice) (kind : Nat) : Nat := if kind = 1 then 0 else fld c.x 35 32
def CopySlice.len (c : CopySlice) (kind : Nat) : Nat := if kind = 1 then fld c.x 21 0 else fld c.x 31 0
def CopySlice.xf (c : CopySlice) : Nat := fld c.t 3 0
def CopySlice.type (c : CopySlice) : Nat := fld c.t 7 4
/-- Element size in bytes of the slice's type. -/
def CopySlice.es (c : CopySlice) : Nat := typeBits c.type / 8
def CopySlice.side (c : CopySlice) : Nat := c.t.toNat / 256 * 256
def CopySlice.cores (c : CopySlice) : Nat := fld c.x 44 33
def CopySlice.bar (c : CopySlice) : Nat := fld c.x 48 45
def CopySlice.sig (c : CopySlice) : Bool := c.x.getLsbD 49

/-- ST is admitted by XF. -/
def typeFits (xf t : Nat) : Bool :=
  match xf with
  | 2 | 3 => [12, 13, 0, 9, 8, 10].contains t
  | 4 | 5 => t == 9 || t == 10
  | _ => true

/-- LEN must be a multiple of this. -/
def CopySlice.unit (c : CopySlice) : Nat :=
  match c.xf with
  | 2 => 8 * c.es
  | 3 => 4 * c.es
  | 4 => 32
  | 5 => 16
  | _ => 1

/-- Source bytes that `n` destination bytes stand for; not fixed for XF 1. -/
def CopySlice.srcLen (c : CopySlice) (n : Nat) : Nat :=
  match c.xf with
  | 2 => n / 2
  | 3 => 2 * n
  | 4 => c.es * n
  | 5 => 2 * c.es * n
  | _ => n

/-- Side bytes of `n` destination bytes. -/
def CopySlice.sideLen (c : CopySlice) (n : Nat) : Nat :=
  match c.xf with
  | 2 => n / (8 * c.es)
  | 3 => n / (4 * c.es)
  | 4 => n / 32
  | 5 => n / 16
  | _ => 0

def floeNum (v : Word) : Nat := fld v 5 0

/-- The floes that the slice counts against (03 R66): a fill's, and 64 more than a drain's. -/
def CopySlice.floeKeys (c : CopySlice) (kind : Nat) : List Nat :=
  (if c.dk kind = 2 then [floeNum c.d] else []) ++ (if c.sk kind = 2 then [64 + floeNum c.s] else [])

/-! ## Issue (15 R320, R321, R325, R335) -/

/-- The Reserved fields of ENGINE 0x01. -/
def copyReserved (c : CopySlice) (kind : Nat) : Bool :=
  if kind = 1 then fld c.x 63 50 != 0 || fld c.x 32 22 != 0
  else fld c.x 63 40 != 0 || (c.dk kind == 2 && fld c.d 31 6 != 0) || (c.sk kind == 2 && fld c.s 31 6 != 0)

def notAdmitted (c : CopySlice) (kind : Nat) : Bool :=
  decide (2 < c.dk kind) || decide (2 < c.sk kind) || decide ((if kind = 1 then 2 else 5) < c.xf) ||
    !typeFits c.xf c.type || (kind == 1 && c.cores == 0)

/-- The ends that are fixed at issue: kind, value and bytes used. -/
def CopySlice.ends (c : CopySlice) (kind : Nat) : List (Nat × Word × Nat) :=
  let n := c.len kind
  (if kind = 1 then [] else [(c.dk kind, c.d, n)]) ++
    [(c.sk kind, c.s, if c.xf = 1 then 0 else c.srcLen n)]

def floeMissing (st : Stand) (e : Nat × Word × Nat) : Bool := e.1 == 2 && decide (st.floes.length ≤ floeNum e.2.1)
def floeIsEmpty (st : Stand) (e : Nat × Word × Nat) : Bool :=
  e.1 == 2 && (st.floes.getD (floeNum e.2.1) Floe.empty).state == 0
def floeShort (st : Stand) (e : Nat × Word × Nat) : Bool :=
  e.1 == 2 && decide ((st.floes.getD (floeNum e.2.1) Floe.empty).size * 256 < fld e.2.1 63 32 + e.2.2)
def scratchShort (st : Stand) (e : Nat × Word × Nat) : Bool :=
  e.1 == 1 && decide (e.2.2 ≠ 0 ∧ st.scratchSize < fld e.2.1 31 0 + e.2.2)

/-- The checks at issue, in the order of the table: cause and detail. -/
def issueCheck (st : Stand) (c : CopySlice) (kind : Nat) : Option (Nat × Nat) :=
  if copyReserved c kind then some (cENGINE, 0x01)
  else if notAdmitted c kind then some (cENGINE, 0x02)
  else if c.len kind % c.unit ≠ 0 then some (cENGINE, 0x03)
  else if (c.ends kind).any (floeMissing st) then some (cFLOE, 1)
  else if (c.ends kind).any (floeIsEmpty st) then some (cFLOE, 3)
  else if (c.ends kind).any (floeShort st) then some (cENGINE, 0x05)
  else if (c.ends kind).any (scratchShort st) then some (cBOUNDS, 2)
  else none

/-- The queue entry that a grove slot may take: its own reserve first (15 R320); none when it must wait. -/
def entryFor (st : Stand) (slot : Nat) : Option Bool :=
  if (st.copy.queue.filter (fun c => c.owner == slot && c.reserved)).length < 2 then some true
  else if (st.copy.queue.filter (fun c => !c.reserved)).length < 64 - 2 * st.shape.groves then some false
  else none

/-- The oldest gathering copy that the grove has not supplied (15 R321). -/
def gathering? (st : Stand) (slot : Nat) : Option Copy :=
  st.copy.queue.find? (fun c => c.kind == 0 && !c.started && !suppliedBy st slot c.id)

/-- Where a byte of the stand's global memory lies now, as a walk finds it, with its page's KIND; no result where the walk
faults. The walk marks nothing: the copy itself will access the page. `none` while the walk waits. -/
def placeNow (s : State) (st : Stand) (va : Nat) : Option (Option (Nat × Nat)) × State :=
  match walk s st.part va st.ptroot.toNat with
  | (.wait line mask, s) => (none, lineAsk s line mask false (2 * st.part))
  | (.fault .., s) => (some none, s)
  | (.leaf level _ e, s) => (some (match segmentOf s st.part (leafFrame level e (va / 4096) + va % 4096) with
    | .ok r => some (r.1, bits e 10 9)
    | .error _ => none), s)

/-- Some page of a global range is now mapped with KIND 0b01 (15 R325); `none` while a walk waits. -/
def rangeHost (s : State) (st : Stand) (va n : Nat) : Option Bool × State :=
  (pageRuns (n / 4096 + 2) (va % 2 ^ 64) n).foldl (fun (a : Option Bool × State) r =>
    match a.1 with
    | some false =>
      let p := placeNow a.2 st r.1
      (p.1.map (fun q => q.any (fun x => x.2 == 1)), p.2)
    | some true => a
    | none => a) (some false, s)

/-- The length of a compressed block's payload as its header now says (15 R330): no result where it cannot be read; `none`
while a walk, or the host's half of the line (04 R100), waits. -/
def payloadNow (s : State) (st : Stand) (va : Nat) : Option (Option Nat) × State :=
  (List.range 3).foldl (fun (a : Option (Option Nat) × State) i =>
    match a.1 with
    | some (some h) =>
      (match placeNow a.2 st ((va + i) % 2 ^ 64) with
       | (some (some (pa, _)), s) =>
         if isRemote pa then (some none, s)
         else if spanReady s pa 1 st.part then (some (some (h + curNat s pa 1 * 2 ^ (8 * i))), s)
         else (none, spanAsk s pa 1 false (2 * st.part + 1))
       | (some none, s) => (some none, s)
       | (none, s) => (none, s))
    | some none => a
    | none => a) (some (some 0), s) |> fun r => (r.1.map (·.map (· / 16)), r.2)

/-- Some block of a compressed global source lies in part on a page of KIND 0b01: header by header (15 R325, R330). -/
def blocksHost (st : Stand) : Nat → Nat → State → Option Bool × State
  | 0, _, s => (some false, s)
  | n + 1, va, s =>
    match rangeHost s st va 3 with
    | (some false, s) =>
      (match payloadNow s st va with
       | (none, s) => (none, s)
       | (some none, s) => (some false, s)
       | (some (some len), s) =>
         match rangeHost s st (va + 3) len with
         | (some false, s) => blocksHost st n (va + 3 + len) s
         | r => r)
    | r => r

/-- Whether a slice touches KIND 0b01 memory (05 R120); `none` while a walk waits. -/
def sliceHost (s : State) (st : Stand) (c : CopySlice) (kind : Nat) : Option Bool × State :=
  let n := c.len kind
  let dst : Option Bool × State := if c.dk kind = 0 then rangeHost s st c.d.toNat n else (some false, s)
  let src : Option Bool × State := if c.sk kind ≠ 0 then (some false, dst.2)
    else if c.xf = 1 then blocksHost st ((n + 4095) / 4096) c.s.toNat dst.2
    else rangeHost dst.2 st c.s.toNat (c.srcLen n)
  let side := rangeHost src.2 st c.side (c.sideLen n)
  ((match dst.1, src.1, side.1 with
    | some a, some b, some d => some (a || b || d)
    | _, _, _ => none), side.2)

/-- The release that goes with the issue: device scope, or system scope where the copy touches KIND 0b01 memory in this slice or
in one that another grove has supplied (05 R120); `none` while a walk waits. -/
def issueScope (s : State) (st : Stand) (c : CopySlice) (old : List CopySlice) (kind : Nat) : Option Nat × State :=
  (c :: old).foldl (fun (a : Option Nat × State) k =>
    match a.1 with
    | some 5 =>
      let r := sliceHost a.2 st k kind
      (r.1.map (fun h => if h then 6 else 5), r.2)
    | some _ => a
    | none => a) (some 5, s)

/-- The other groves that have supplied slices of a collective copy: a slice that makes it touch KIND 0b01 memory releases for
them too (05 R120). -/
def suppliers (st : Stand) (slot : Nat) (old : List CopySlice) : List Who :=
  (((old.map (·.slot)).filter (· ≠ slot)).eraseDups).map (fun n => ⟨st.uid, n⟩)

/-- A floe takes a fill or a drain now (03 R67). -/
def floeTakes (st : Stand) (key : Nat) : Bool :=
  let f := st.floes.getD (key % 64) Floe.empty
  f.state == 2 || f.state == (if key < 64 then 1 else 3)

/-- The fill or drain counts in PEND. -/
def countFloe (st : Stand) (key : Nat) : Stand :=
  let f := st.floes.getD (key % 64) Floe.empty
  setFloe st (key % 64) { f with state := if f.state = 2 then (if key < 64 then 1 else 3) else f.state, pend := f.pend + 1 }

/-- The issue events of a slice: none while the engine holds it. A copy counts once against a floe. One that the engine holds
waits until its floe is ready, also when a release empties the floe meanwhile (log entry 129). A copy that names one
floe as destination and as source counts as both at once, with the floe filling (log entry 104, DESIGN CHOICE: by 03 R67 each
of the two would wait for the other). -/
def countFloes (st : Stand) (counted keys : List Nat) : Option (Stand × List Nat) :=
  let missing := keys.filter (fun k => !counted.contains k)
  if missing.all (floeTakes st) then some (missing.foldl countFloe st, counted ++ missing) else none

def Copy.new (id kind owner : Nat) (reserved : Bool) (started : Bool) : Copy where
  id := id
  kind := kind
  owner := owner
  reserved := reserved
  slices := []
  supplied := []
  started := started
  cur := 0
  chunk := 0
  pos := 0
  counted := []
  batch := none
  bank := 0
  recvs := []
  buf := []
  landing := false
  faulted := false
  faultDetail := 0
  abandoned := false
  fetched := []
  asked := none
  paid := 0

def Stand.copy? (st : Stand) (id : Nat) : Option Copy := st.copy.queue.find? (fun c => c.id == id)
def Stand.modCopy (st : Stand) (id : Nat) (f : Copy → Copy) : Stand :=
  { st with copy := { st.copy with queue := st.copy.queue.map (fun c => if c.id = id then f c else c) } }

/-- A slice goes into its place: increasing grove slot, after those of the same slot (15 R321). -/
def insertSlice (c : CopySlice) : List CopySlice → List CopySlice
  | [] => [c]
  | d :: r => if c.slot < d.slot then c :: d :: r else d :: insertSlice c r

/-- Records a slice in a copy of the queue, with its floe events. -/
def recordSlice (st : Stand) (id : Nat) (c : CopySlice) (kind : Nat) : Stand :=
  let counted := ((st.copy? id).map (·.counted)).getD []
  match countFloes st counted (c.floeKeys kind) with
  | some r => r.1.modCopy id (fun k => { k with slices := insertSlice c k.slices, counted := r.2 })
  | none => st.modCopy id (fun k => { k with slices := insertSlice c k.slices })

/-- The slice joins the grove's open copies (15 R325). -/
def Grove.openCopy (g : Grove) (id : Nat) : Grove :=
  if g.openCopies.contains id then g else { g with openCopies := g.openCopies ++ [id] }

/-- The grove has supplied its slice of a collective copy. -/
def noteSupplied (st : Stand) (slot id : Nat) : Stand :=
  { st with copy := { st.copy with supplied := st.copy.supplied.modify slot (· ++ [id]) } }

/-- The receivers of a multicast (15 R329): the resident stands of the clearing on the named logical cores. -/
def receivers (s : State) (st : Stand) (c : CopySlice) : List Nat :=
  (s.stands.filter (fun y => y.part == st.part && y.clnum == st.clnum && coreCluster y.core == coreCluster st.core &&
    c.cores.testBit y.lcore)).map (·.uid)

/-- A receiver's barrier takes a signal of the phase in progress (15 R329). -/
def attachSignal (s : State) (uid bar id : Nat) : State :=
  s.modStand uid (fun st => { st with barriers := st.barriers.modify bar (fun b => { b with signals := id :: b.signals }) })

/-- A copy of one slice is accepted: it starts at once. -/
def acceptSingle (x : Gx) (kind : Nat) (c : CopySlice) (reserved : Bool) (recvs : List Nat) : State :=
  let id := x.s.nextId
  let s := { x.s with nextId := id + 1 }
  let k := { Copy.new id kind x.g.slot reserved true with recvs := recvs.map (fun u => ⟨u, false, false⟩) }
  let s := ({ x with s := s }.done (x.g.openCopy id)).modStand x.st.uid (fun st =>
    recordSlice { st with copy := { st.copy with queue := st.copy.queue ++ [k] } } id c kind)
  if c.sig && kind == 1 then recvs.foldl (fun s u => attachSignal s u c.bar id) s else s

/-- A grove's slice of a collective copy: the oldest that waits for it, or a new one (15 R321). -/
def acceptCollective (x : Gx) (c : CopySlice) (old : Option Copy) (reserved : Bool) : State :=
  match old with
  | some k =>
    (x.done (x.g.openCopy k.id)).modStand x.st.uid (fun st =>
      settleCopies (noteSupplied (recordSlice st k.id c 0) x.g.slot k.id))
  | none =>
    let id := x.s.nextId
    let s := { x.s with nextId := id + 1 }
    ({ x with s := s }.done (x.g.openCopy id)).modStand x.st.uid (fun st =>
      let st := { st with copy := { st.copy with queue := st.copy.queue ++ [Copy.new id 0 x.g.slot reserved false] } }
      settleCopies (noteSupplied (recordSlice st id c 0) x.g.slot id))

/-- The slice that the instruction describes: its values, and s3. -/
def sliceOf (g : Grove) (d a b : BitVec 8) : CopySlice := ⟨g.slot, uVal g d, uVal g a, uVal g b, sGet g 3⟩

/-- CopyIssue of 15 R325. -/
def copyIssue (x : Gx) (kind : Nat) (c : CopySlice) : State :=
  match issueCheck x.st c kind with
  | some r => x.trapAll r.1 r.2 0
  | none =>
    let old := if kind = 0 then gathering? x.st x.g.slot else none
    match (if old.isSome then some true else entryFor x.st x.g.slot) with
    | none => x.hold .copy x.g
    | some reserved =>
      let others := (old.map (·.slices)).getD []
      match issueScope x.s x.st c others kind with
      | (none, s) => (x.at s).hold .inside x.g
      | (some sc, s) => (x.at s).releasedWith (suppliers x.st x.g.slot others) sc (fun x =>
        if kind = 0 then acceptCollective x c old reserved
        else acceptSingle x kind c reserved (if kind = 1 then receivers x.s x.st c else []))

def execCpy (d a b : BitVec 8) (s : State) : Out State Fault Refusal :=
  groveInstr (.cpy d a b) s (fun x => copyIssue x 0 (sliceOf x.g d a b))
def execCpym (d a b : BitVec 8) (s : State) : Out State Fault Refusal :=
  groveInstr (.cpym d a b) s (fun x => copyIssue x 1 (sliceOf x.g d a b))
def execCpyx (d a b : BitVec 8) (s : State) : Out State Fault Refusal :=
  groveInstr (.cpyx d a b) s (fun x => copyIssue x 2 (sliceOf x.g d a b))

/-! ## Batches (15 R327, R328) -/

/-- The grove's open copies that no `seal` has counted and that are not complete. -/
def toSeal (st : Stand) (g : Grove) : List Nat :=
  g.openCopies.filter (fun id => st.copy.queue.any (fun c => c.id == id && c.batch.isNone))

/-- A batch that holds the copies is closed on tlc, bound to the current bank (15 R327, R331). -/
def closeBatch (st : Stand) (ids : List Nat) : Stand :=
  let n := st.tlc.last + 1
  let bank := st.copy.bank
  let more : List Batch := if ids.isEmpty then [] else [⟨n, ids, false, bank⟩]
  Stand.settleTlc { st with
    tlc := { st.tlc with last := n }
    batches := st.batches ++ more
    copy := { st.copy with queue := st.copy.queue.map (fun (c : Copy) =>
      if ids.contains c.id then { c with batch := some n, bank := if c.kind = 3 then c.bank else bank } else c) } }

/-- A batch of the stand is incomplete. -/
def batchOpen (st : Stand) (n : Nat) : Bool := st.batches.any (fun b => b.num == n)

def execSeal (s : State) : Out State Fault Refusal :=
  groveInstr .seal s (fun x =>
    let g := { x.g with
      openCopies := []
      batches := x.g.batches.filter (batchOpen x.st) ++ [x.st.tlc.last + 1] }
    (x.done g).modStand x.st.uid (fun st => closeBatch st (toSeal x.st x.g)))

def waitbOp (x : Gx) (scope n : Nat) : State :=
  if n < (x.g.batches.filter (batchOpen x.st)).length then x.hold .memory x.g else acquireAt x.fin x.st.core scope

def execWaitb (sc : BitVec 3) (n : BitVec 16) (s : State) : Out State Fault Refusal :=
  groveInstr (.waitb sc n) s (fun x => waitbOp x sc.toNat n.toNat)

/-! ## Dictionaries (15 R331) -/

def dictLdOp (x : Gx) (k a : Nat) (addr : Word) : State :=
  if addr.toNat % 64 ≠ 0 then x.trapAll cALIGN a addr
  else if x.st.batches.any (fun b => !b.conversion && b.bank == k) then x.hold .copy x.g
  else
    match entryFor x.st x.g.slot with
    | none => x.hold .copy x.g
    | some reserved =>
      match rangeHost x.s x.st addr.toNat 32768 with
      | (none, s) => (x.at s).hold .inside x.g
      | (some host, s) => (x.at s).released (if host then 6 else 5) (fun x =>
        (acceptSingle x 3 ⟨x.g.slot, 0, addr, 0, 0⟩ reserved []).modStand x.st.uid (fun st =>
          { st with copy := { st.copy with
              bank := k
              queue := st.copy.queue.map (fun c => if c.id = x.s.nextId then { c with bank := k } else c) } }))

def execDictLd (k : BitVec 1) (a : BitVec 8) (s : State) : Out State Fault Refusal :=
  groveInstr (.dictLd k a) s (fun x => dictLdOp x k.toNat 2 (uVal x.g a))

/-! ## `cpy.res` (15 R337) -/

/-- Marks the paused context for resumption, which comes at the end of the halt, or at once outside one. While no copy is
faulted it has no effect. -/
def resumeContext (abandon : Bool) (st : Stand) : Stand :=
  if !st.copy.paused || !st.copy.queue.any (·.faulted) then st
  else
    let c : CopyCtx := { st.copy with
      resume := true
      queue := st.copy.queue.map (fun c => if c.faulted then { c with faulted := false, abandoned := abandon } else c) }
    { st with copy := if st.halt.isSome then c else c.goOn }

def cpyResOp (x : Gx) (abandon : Bool) : State := x.fin.modStand x.st.uid (resumeContext abandon)

def execCpyRes (s : State) : Out State Fault Refusal := groveInstr .cpyRes s (fun x => cpyResOp x false)
def execCpyResAbandon (s : State) : Out State Fault Refusal := groveInstr .cpyResAbandon s (fun x => cpyResOp x true)

/-! ## Accesses of the context (15 R326, R336) -/

/-- Why a chunk does not go through: a page must be walked, a line must be transferred, it waits for something else, or it
fails, with its detail and FAULTADDR. -/
inductive CStop where
  | miss (va acc : Nat)
  | fetch (line : Nat) (mask : ByteMask) (write : Bool)
  | held
  | fault (detail addr : Nat)
deriving DecidableEq, Repr

/-- The copy as the requester of walks (02 R45). -/
def Copy.mmu (c : Copy) (st : Stand) : Mmu := st.mmu false (1001 + 2 * c.id)

/-- The check on a translated run inside one page: detail and offset. Chunks carry no alignment (log entry 103, DESIGN
CHOICE: 15 R335 leaves it to the run of the chunk, and R336 gives it no detail). -/
def ctxCheck (s : State) (part pa len kind : Nat) (write : Bool) : Option (Nat × Nat) :=
  if kind = 2 then some (0x0E, 0)
  else if isRemote pa then none
  else match resultFault s pa with
    | some d => some (0x10 + d, 0)
    | none =>
      match regionOf s pa with
      | .device => some (0x15, 0)
      | .decoded =>
        (match windowAt s pa with
         | some (_, w) => if w.busy ∨ w.part ≠ part ∨ (write ∧ w.kind = 1) then some (0x17, 0) else none
         | none => none)
      | .hbm | .tier2 _ | .host | .hole =>
        ((List.range len).find? (fun i => inCoded s (pa + i))).map (fun i => (0x0B, i))

/-- The detail of a walk's fault (15 R336). -/
def ctxDetail (f : WalkFault) : Nat :=
  if f.code = cPAGE then 0x08 else if f.code = cPOISON then 0x09 else if f.code = cOWNERLOST then 0x0A else 0x10 + f.detail

/-- One run of an engine's access inside a page, translated with the stand's PTROOT and ASID and without U. -/
def ctxRun (s : State) (st : Stand) (c : Copy) (r : Nat × Nat) (acc : Nat) : Except CStop Seg :=
  match lookup s (c.mmu st) r.1 acc with
  | .miss => .error (.miss r.1 acc)
  | .fault f => .error (.fault (ctxDetail f) r.1)
  | .ok pa kind =>
    match ctxCheck s st.part pa r.2 kind (acc == accWrite) with
    | some (d, i) => .error (.fault d (r.1 + i))
    | none => .ok ⟨pa, r.2, kind⟩

/-- All runs of an engine's access, lowest address first. -/
def ctxRuns (s : State) (st : Stand) (c : Copy) (va n acc : Nat) : Except CStop (List Seg) :=
  (pageRuns (n / 4096 + 2) (va % 2 ^ 64) n).mapM (fun r => ctxRun s st c r acc)

/-- The lines of this module that a run touches, with its bytes of each. -/
def segLines (q : Seg) : List (Nat × ByteMask) :=
  if isRemote q.pa || q.len == 0 then [] else (spanLines q.pa q.len).map (fun l => (l, runMask l q.pa q.len))

/-- The first line of some runs that has not been transferred for the chunk, or cannot be served now (04 R84, R100). -/
def unfetched (s : State) (st : Stand) (c : Copy) (write : Bool) (segs : List Seg) : Option CStop :=
  ((segs.flatMap segLines).find? (fun q => !c.fetched.contains (q.1, write) || !lineReady s q.1 st.part q.2)).map
    (fun q => .fetch q.1 q.2 write)

/-- A byte of another module is a free value (log entry 9). -/
def remoteByte (s : State) (pa : Nat) : Byte :=
  (Config.freeWord ((s.fresh + 1) * 2 ^ 64 + pa / 8)).extractLsb' (8 * (pa % 8)) 8

/-- Current bytes of a run at their home, registered words forwarded, with poison and lost marks. -/
def ctxBytes (s : State) (q : Seg) : List (Byte × Bool × Bool) :=
  if isRemote q.pa then (List.range q.len).map (fun i => (remoteByte s (q.pa + i), peerDown s q.pa, false))
  else curBytes s q.pa q.len

/-- Global bytes read by the context. -/
def ctxRead (s : State) (st : Stand) (c : Copy) (va n : Nat) : Except CStop (List Byte) :=
  match ctxRuns s st c va n accRead with
  | .error e => .error e
  | .ok segs =>
    match unfetched s st c false segs with
    | some e => .error e
    | none =>
      let bs := segs.flatMap (ctxBytes s)
      match bs.findIdx? (fun b => b.2.1 || b.2.2) with
      | some i => .error (.fault (if (bs.getD i (0, false, false)).2.1 then 0x09 else 0x0A) ((va + i) % 2 ^ 64))
      | none => .ok (bs.map (·.1))

/-- Stand-relative scratch offset of a byte of an end of kind 1 or 2 (15 R322). -/
def endPlace (st : Stand) (kind : Nat) (v : Word) (off : Nat) : Nat :=
  if kind = 1 then fld v 31 0 + off
  else (st.floes.getD (floeNum v) Floe.empty).offset * 256 + fld v 63 32 + off

/-- First byte beyond what an end of kind 1 or 2 may use. -/
def endLimit (st : Stand) (kind : Nat) (v : Word) : Nat :=
  if kind = 1 then st.scratchSize
  else (st.floes.getD (floeNum v) Floe.empty).offset * 256 + (st.floes.getD (floeNum v) Floe.empty).size * 256

/-- Source bytes of a slice. Those of a decompression are not checked at issue: a block that leaves the scratch range or
the floe is malformed. -/
def copyRead (s : State) (st : Stand) (c : Copy) (kind : Nat) (v : Word) (off n : Nat) : Except CStop (List Byte) :=
  if kind = 0 then ctxRead s st c ((v.toNat + off) % 2 ^ 64) n
  else if endLimit st kind v < endPlace st kind v off + n then .error (.fault 0x0C 0)
  else .ok (memBytes st.scratch (endPlace st kind v off) n)

/-! ## Decompression (15 R330) -/

def popcount (n : Nat) : Nat := ((List.range 64).filter (fun i => n.testBit i)).length

/-- Start of the `k`-th bitmap of a zero-elided payload. -/
def elideStart (rd : Nat → Nat → Except CStop (List Byte)) (bad : CStop) (L : Nat) : Nat → Nat → Except CStop Nat
  | 0, p => .ok p
  | k + 1, p =>
    if L < p + 8 then .error bad
    else match rd p 8 with
      | .error e => .error e
      | .ok bm => elideStart rd bad L k (p + 8 + popcount (ofBytes bm))

/-- The bytes of a bitmap's chunk: the stored bytes at the set bits. -/
def elideFill (bm : Nat) : Nat → Nat → List Byte → List Byte
  | 0, _, _ => []
  | n + 1, k, bs =>
    if bm.testBit k then bs.headD 0 :: elideFill bm n (k + 1) (bs.drop 1) else 0 :: elideFill bm n (k + 1) bs

/-- Chunk `j` of a zero-elided block, `n` bytes: its bytes and the end of its part of the payload. -/
def elideChunk (rd : Nat → Nat → Except CStop (List Byte)) (bad : CStop) (L j n : Nat) : Except CStop (List Byte × Nat) := do
  let p ← elideStart rd bad L j 0
  if L < p + 8 then .error bad
  else
    let bm := ofBytes (← rd p 8)
    let e := p + 8 + popcount bm
    if bm / 2 ^ n ≠ 0 ∨ L < e then .error bad
    else
      let bs ← rd (p + 8) (popcount bm)
      .ok (elideFill bm n 0 bs, e)

/-- `k` dictionary codes from `p`: their bytes, and where they end. -/
def dictCodes (rd : Nat → Nat → Except CStop (List Byte)) (bad : CStop) (L : Nat) (bank : List (Nat × Word)) :
    Nat → Nat → List Byte → Except CStop (List Byte × Nat)
  | 0, p, acc => .ok (acc, p)
  | k + 1, p, acc =>
    if L < p + 2 then .error bad
    else match rd p 2 with
      | .error e => .error e
      | .ok c =>
        let code := ofBytes c
        if code < 4096 then dictCodes rd bad L bank k (p + 2) (acc ++ toBytes 8 (spGet 0 bank code).toNat)
        else if code = 0xFFFF ∧ p + 10 ≤ L then
          match rd (p + 2) 8 with
          | .error e => .error e
          | .ok b => dictCodes rd bad L bank k (p + 10) (acc ++ b)
        else .error bad

/-- The bound bank of a copy; none while its batch is not closed or a load into the bank is in the queue. -/
def boundBank (st : Stand) (c : Copy) : Option (List (Nat × Word)) :=
  if c.batch.isSome ∧ !st.copy.queue.any (fun k => k.kind == 3 && k.bank == c.bank) then
    some (if c.bank = 0 then st.copy.bank0 else st.copy.bank1)
  else none

/-- A copy bound to a bank that is being loaded does not decode. -/
def bankLoading (st : Stand) (c : Copy) : Bool :=
  c.batch.isSome && st.copy.queue.any (fun k => k.kind == 3 && k.bank == c.bank)

/-- Chunk `ch` of a decompressed slice, with the offset of the header that the next chunk's block has. -/
def decompress (s : State) (st : Stand) (c : Copy) (sl : CopySlice) (ch pos n : Nat) : Except CStop (List Byte × Nat) := do
  if bankLoading st c then .error .held
  else
    let k := sl.sk c.kind
    let hdrAddr := if k = 0 then (sl.s.toNat + pos) % 2 ^ 64 else endPlace st k sl.s pos
    let bad := CStop.fault 0x0C hdrAddr
    let rd0 (off m : Nat) : Except CStop (List Byte) :=
      match copyRead s st c k sl.s off m with
      | .error (.fault 0x0C _) => .error bad
      | r => r
    let hdr := ofBytes (← rd0 pos 3)
    let L := hdr / 16
    let size := min 4096 (sl.len c.kind - 4096 * (ch / 64))
    let j := ch % 64
    let rd (p m : Nat) : Except CStop (List Byte) := rd0 (pos + 3 + p) m
    let isLast := decide (size ≤ 64 * j + n)
    let r : Except CStop (List Byte × Nat) :=
      match hdr % 16 with
      | 0 => if L ≠ size then .error bad else (rd (64 * j) n).map (fun bs => (bs, if isLast then L else 0))
      | 1 => elideChunk rd bad L j n
      | 2 => (match boundBank st c with
          | none => .error .held
          | some bank => do
            let skip ← dictCodes rd bad L bank (8 * j) 0 []
            let r ← dictCodes rd bad L bank ((n + 7) / 8) skip.2 []
            .ok (r.1.take n, r.2))
      | _ => .error bad
    let r ← r
    if isLast ∧ r.2 ≠ L then .error bad
    else .ok (r.1, if isLast then pos + 3 + L else pos)

/-! ## 2:4 (15 R333) -/

/-- Bytes cut into pieces of `n`. -/
def pieces (n : Nat) : Nat → List Byte → List (List Byte)
  | 0, _ => []
  | k + 1, bs => bs.take n :: pieces n k (bs.drop n)

/-- The nibble of group `g` of metadata bytes. -/
def nibble (meta_ : List Byte) (g : Nat) : Nat := bits (meta_.getD (g / 2) 0).toNat (4 * (g % 2) + 3) (4 * (g % 2))

/-- Expansion: `n` dense bytes. -/
def expand24 (es n : Nat) (src meta_ : List Byte) : List Byte :=
  let els := pieces es (n / es / 2) src
  (List.range (n / (4 * es))).flatMap (fun g =>
    let m := nibble meta_ g
    let z := List.replicate 4 (List.replicate es (0 : Byte))
    ((z.set (m % 4) (els.getD (2 * g) [])).set (m / 4) (els.getD (2 * g + 1) [])).flatten)

/-- Magnitude: a NaN ranks above every number. -/
def rank24 (t v : Nat) : Nat :=
  if t < 8 then (intVal t v).natAbs
  else match (fmtOf t).decode v with
    | .nan .. => 2 ^ 64
    | .inf _ => v % 2 ^ (typeBits t - 1)
    | .fin .. => v % 2 ^ (typeBits t - 1)

/-- Position of the largest rank among the positions given, the lowest on a tie. -/
def largestAt (ranks : List Nat) (ps : List Nat) : Nat :=
  ps.foldl (fun b p => if ranks.getD b 0 < ranks.getD p 0 then p else b) (ps.headD 0)

/-- The two positions kept of a group, rising. -/
def kept24 (ranks : List Nat) : Nat × Nat :=
  let a := largestAt ranks [0, 1, 2, 3]
  let b := largestAt ranks ([0, 1, 2, 3].filter (· ≠ a))
  (min a b, max a b)

/-- Compaction of `4 * k` elements: the kept bytes and the metadata bytes. -/
def compact24 (t es k : Nat) (src : List Byte) : List Byte × List Byte :=
  let els := pieces es (4 * k) src
  let gs := (List.range k).map (fun g => kept24 ((List.range 4).map (fun i => rank24 t (ofBytes (els.getD (4 * g + i) [])))))
  (gs.zipIdx.flatMap (fun (p, g) => els.getD (4 * g + p.1) [] ++ els.getD (4 * g + p.2) []),
   (List.range (k / 2)).map (fun i =>
     let nib (g : Nat) : Nat := (gs.getD g (0, 1)).1 + 4 * (gs.getD g (0, 1)).2
     BitVec.ofNat 8 (nib (2 * i) + 16 * nib (2 * i + 1))))

/-! ## Quantization (15 R334) -/

/-- A finite value exactly, in units of 2^-700. -/
def fixVal (v : FVal) : Option Int :=
  match v with
  | .fin n m e => some ((if n then -1 else 1) * ((m * 2 ^ (e + 700).toNat : Nat) : Int))
  | .inf _ => none
  | .nan .. => none

/-- Codes of a group under a scale exponent: e4m3 one a byte, i4x one a slot. -/
def groupCodes (i4 : Bool) (sigma : Int) (xs : List FVal) : List Nat :=
  if i4 then (List.range 8).flatMap (fun k => (quantQuad 0 sigma ((xs.drop (4 * k)).take 4)).1)
  else xs.map (fun v => (cvtFF (fmtOf 12) (fmtOf 10) 0 true (match v with
    | .fin n m e => .fin n m (e - sigma)
    | w => w)).1)

/-- The decoded value of code `j`. -/
def codeValue (i4 : Bool) (sigma : Int) (codes : List Nat) (j : Nat) : FVal :=
  if i4 then i4xSlot codes sigma j
  else match (fmtOf 12).decode (codes.getD j 0) with
    | .fin n m e => .fin n m (e + sigma)
    | w => w

/-- The squared error over the finite elements, exact. -/
def groupErr (i4 : Bool) (sigma : Int) (xs : List FVal) (codes : List Nat) : Nat :=
  (xs.zipIdx.map (fun (v, j) =>
    match fixVal v, fixVal (codeValue i4 sigma codes j) with
    | some a, some b => (a - b).natAbs ^ 2
    | _, _ => 0)).sum

/-- e0: the least e with m at most qmax * 2^e, for the largest magnitude in units of 2^-700. -/
def scaleE0 (qmax m : Nat) : Int :=
  let lo : Int := (Nat.log2 m : Int) - 712
  lo + (((List.range 16).find? (fun (i : Nat) => decide (m ≤ qmax * 2 ^ (lo + (i : Int) + 700).toNat))).getD 0 : Nat)

def clampScale (e : Int) : Int := max (-128) (min 127 e)

/-- The candidate scale exponents, in order. -/
def scaleCands (qmax : Nat) (xs : List FVal) : List Int :=
  let m := (xs.filterMap fixVal).foldl (fun a v => max a v.natAbs) 0
  if m = 0 then [0]
  else
    let e0 := scaleE0 qmax m
    [clampScale e0, clampScale (e0 - 1), clampScale (e0 + 1)].eraseDups

/-- QuantGroup: the codes and the scale exponent of least error, the first on a tie. -/
def quantBest (i4 : Bool) (xs : List FVal) : List Nat × Int :=
  let tries := (scaleCands (if i4 then 7 else 448) xs).map (fun e =>
    let codes := groupCodes i4 e xs
    (groupErr i4 e xs codes, codes, e))
  match tries with
  | [] => ([], 0)
  | t :: ts => (ts.foldl (fun a b => if b.1 < a.1 then b else a) t).2

/-- Groups of 32 elements quantized: destination bytes and scale bytes. -/
def quantize (i4 : Bool) (t es groups : Nat) (src : List Byte) : List Byte × List Byte :=
  let xs := (pieces es (32 * groups) src).map (fun b => (fmtOf t).decode (ofBytes b))
  let rs := (List.range groups).map (fun g => quantBest i4 ((xs.drop (32 * g)).take 32))
  (rs.flatMap (fun r =>
     if i4 then (List.range 16).map (fun i => BitVec.ofNat 8 (r.1.getD (2 * i) 0 % 16 + 16 * (r.1.getD (2 * i + 1) 0 % 16)))
     else r.1.map (BitVec.ofNat 8)),
   rs.map (fun r => BitVec.ofNat 8 (wrap 8 r.2)))

/-! ## Chunks (15 R326) -/

def Copy.chunksOf (c : Copy) (sl : CopySlice) : Nat := (sl.len c.kind + 63) / 64

/-- The next chunk of a copy: its slice's number, the slice, the chunk and the block's offset; none when all are
written. -/
def Copy.next (c : Copy) : Option (Nat × CopySlice × Nat × Nat) :=
  (c.slices.zipIdx.find? (fun p =>
      c.cur < p.2 && decide (0 < c.chunksOf p.1) || (p.2 == c.cur && decide (c.chunk < c.chunksOf p.1)))).map
    (fun p => if p.2 = c.cur then (p.2, p.1, c.chunk, c.pos) else (p.2, p.1, 0, 0))

/-- What a chunk writes: destination bytes, side bytes, and the next block's offset. -/
structure ChunkOut where
  bytes : List Byte
  side : List Byte
  pos : Nat
deriving Repr

/-- The source of a chunk of destination bytes `off` to `off + n - 1`, read and transformed. -/
def chunkData (s : State) (st : Stand) (c : Copy) (sl : CopySlice) (ch pos n : Nat) : Except CStop ChunkOut := do
  let off := 64 * ch
  let k := sl.sk c.kind
  if sl.xf = 1 then
    let r ← decompress s st c sl ch pos n
    .ok ⟨r.1, [], r.2⟩
  else
    let src ← copyRead s st c k sl.s (sl.srcLen off) (sl.srcLen n)
    match sl.xf with
    | 2 =>
      let m ← ctxRead s st c ((sl.side + sl.sideLen off) % 2 ^ 64) (sl.sideLen n)
      .ok ⟨expand24 sl.es n src m, [], 0⟩
    | 3 =>
      let r := compact24 sl.type sl.es (n / (2 * sl.es)) src
      .ok ⟨r.1, r.2, 0⟩
    | 4 =>
      let r := quantize false sl.type sl.es (n / 32) src
      .ok ⟨r.1, r.2, 0⟩
    | 5 =>
      let r := quantize true sl.type sl.es (n / 16) src
      .ok ⟨r.1, r.2, 0⟩
    | _ => .ok ⟨src, [], 0⟩

/-- A receiver that is still there, resident or saved. -/
def recvAlive (s : State) (uid : Nat) : Bool := (s.stands ++ s.d.saved).any (fun st => st.uid == uid)

/-- A chunk evaluated: what it writes, and where; a chunk of a multicast that would leave a receiver's reservation
fails (15 R329). -/
structure ChunkEval where
  slice : Nat
  sl : CopySlice
  ch : Nat
  out : ChunkOut
  dst : List Seg
  side : List Seg
deriving Repr

def evalChunk (s : State) (st : Stand) (c : Copy) (nx : Nat × CopySlice × Nat × Nat) : Except CStop ChunkEval := do
  let sl := nx.2.1
  let ch := nx.2.2.1
  let n := min 64 (sl.len c.kind - 64 * ch)
  let out ← chunkData s st c sl ch nx.2.2.2 n
  let dst ← if sl.dk c.kind = 0 then ctxRuns s st c (sl.d.toNat + 64 * ch) n accWrite else .ok []
  let side ← ctxRuns s st c (sl.side + sl.sideLen (64 * ch)) out.side.length accWrite
  let out_ := c.recvs.any (fun r => (s.stands ++ s.d.saved).any (fun y =>
    y.uid == r.uid && decide (y.scratchSize < fld sl.d 31 0 + 64 * ch + n)))
  if c.kind = 1 ∧ out_ then .error (.fault 0x0D (fld sl.d 31 0))
  else match unfetched s st c true (dst ++ side) with
    | some e => .error e
    | none => .ok ⟨nx.1, sl, ch, out, dst, side⟩

/-- Acknowledgements of a copy's bytes of host memory go to no grove. -/
def copyWho (uid id : Nat) : Who := ⟨uid, 2 ^ 17 + id⟩

/-- Writes a run's bytes at their homes; bytes for another module leave this one (log entry 9). -/
def writeSegs (s : State) (who : Who) (segs : List Seg) (bs : List Byte) : State :=
  (segs.foldl (fun (a : State × List Byte) q =>
    ((if isRemote q.pa then a.1 else engineWriteBy a.1 q.pa (a.2.take q.len) [who]), a.2.drop q.len)) (s, bs)).1

/-! ## Transfers (03 R73 to R76; 15 R326, R332) -/

/-- The copies of the stands of a partition that are at work. -/
def busyCopies (s : State) (part : Nat) : List Copy :=
  (s.stands.filter (fun st => st.part == part)).flatMap (fun st => st.copy.queue)

/-- An older transfer of the partition's copies waits at the line's port (03 R76). -/
def behindOther (s : State) (part line t : Nat) : Bool :=
  (busyCopies s part).any (fun c => match c.asked with
    | some a => decide (a.2 < t) && homeSlice s a.1 == homeSlice s line
    | none => false)

/-- A line is transferred for the chunk in progress: asked for, paid for (the line, what reaches memory, and the answers of
the cores that hold words of it, 03 R74), and read or opened for writing at its home; it may have to wait for its line, the
host, or tokens. -/
def fetchLine (s : State) (st : Stand) (c : Copy) (line : Nat) (mask : ByteMask) (write : Bool) : State :=
  let keep (s : State) (f : Copy → Copy) : State := s.modStand st.uid (fun st => st.modCopy c.id f)
  if !lineReady s line st.part mask then lineAsk s line mask write (2 * st.part + 1)
  else if c.fetched.contains (line, write) then s
  else
    let t := match c.asked with
      | some a => if a.1 = line then a.2 else s.stamp
      | none => s.stamp
    let s := keep s (fun k => { k with asked := some (line, t) })
    if behindOther s st.part line t then s
    else
      let need := 1 + missTokens s line st.part + holders s line mask - c.paid
      let r := takeTokens s (homeSlice s line) st.part 1 (spareForCopy s (homeSlice s line) t) need
      if r.1 < need then keep r.2 (fun k => { k with paid := c.paid + r.1 })
      else keep (l2Access r.2 line st.part 0 !write) (fun k => { k with fetched := (line, write) :: k.fetched, asked := none, paid := 0 })

/-- A decompression may read a line up to 32 KiB beyond the block in progress, which the slice marks decode-ahead; whether
it does is a free choice (15 R332; 03 R73; log entry 105). A page that is not translated, or a line that is not ready, is left
alone: what such a read meets is not reported. -/
def readAhead (s : State) (st : Stand) (c : Copy) (sl : CopySlice) (pos : Nat) : State :=
  if sl.xf ≠ 1 ∨ sl.sk c.kind ≠ 0 then s
  else
    let f := s.freeWord
    match if f.1.getLsbD 0 then copyRead s st c 0 sl.s pos 3 else .error .held with
    | .error _ => f.2
    | .ok h =>
      match ctxRun f.2 st c ((sl.s.toNat + pos + f.1.toNat / 2 % (3 + ofBytes h / 16 + 32768)) % 2 ^ 64, 1) accRead with
      | .error _ => f.2
      | .ok q =>
        let line := q.pa / 128
        if isRemote q.pa || (l2Home f.2 line).isSome || !lineReady f.2 line st.part 0 then f.2
        else
          let n := missTokens f.2 line st.part
          let r := takeTokens f.2 (homeSlice f.2 line) st.part 1 (spareForCopy f.2 (homeSlice f.2 line) f.2.stamp) n
          if r.1 < n then f.2 else l2Access r.2 line st.part 1 true

/-- A copy is complete: it leaves the queue, its floes' PEND falls, its batch may complete (15 R326, R327; 03 R67). -/
def finishCopy (st : Stand) (c : Copy) : Stand :=
  let st := { st with copy := { st.copy with queue := st.copy.queue.filter (fun k => k.id ≠ c.id) } }
  let st := c.counted.foldl (fun st key =>
    let f := st.floes.getD (key % 64) Floe.empty
    setFloe st (key % 64) { f with pend := f.pend - 1, state := if f.pend ≤ 1 then 2 else f.state }) st
  match c.batch with
  | none => st
  | some n =>
    let st := { st with batches := st.batches.map (fun (b : Batch) =>
      if b.num = n then { b with copies := b.copies.filter (· ≠ c.id) } else b) }
    if st.batches.any (fun b => b.num == n && b.copies.isEmpty && !b.conversion) then st.completeBatch n else st

/-- Writes to host memory that the copy still waits for (05 R119). -/
def pushesOut (s : State) (uid id : Nat) : Bool :=
  s.m.hostQ.any (fun q => match q with
    | .push _ _ _ ws => ws.contains (copyWho uid id)
    | .atom .. => false)

/-- A copy with nothing left to write completes once its bytes are performed; its multicast signals have arrived. -/
def tryComplete (s : State) (uid id : Nat) : State :=
  match (s.stand? uid).bind (fun st => st.copy? id) with
  | none => s
  | some c =>
    if c.landing ∨ (c.next.isSome ∧ !c.abandoned) ∨ pushesOut s uid id then s
    else
      let s := (c.recvs.filter (fun r => !r.signalled)).foldl (fun s r =>
        s.modStand r.uid (fun st => (c.slices.filter (·.sig)).foldl (fun st sl => signalArrives st sl.bar id) st)) s
      standEnd (s.modStand uid (fun st => finishCopy st c)) uid

/-- The copies of the stand may run (15 R336, R338; 16 R344, R349). -/
def contextRuns (s : State) (st : Stand) : Bool :=
  st.halt.isNone && !st.dbgHalt && !draining s st && !st.copy.paused && !(s.d.core st.core).quarantined

/-- A copy's next chunk moves on; while it stays in one compressed block, the lines that were read for it stay at hand. -/
def Copy.advance (c : Copy) (e : ChunkEval) : Copy :=
  { c with
    cur := e.slice
    chunk := e.ch + 1
    pos := e.out.pos
    faultDetail := 0
    fetched := if e.sl.xf = 1 ∧ e.out.pos = c.pos then c.fetched.filter (fun f => !f.2) else [] }

/-- A chunk that goes through is written, or held for its receivers. -/
def writeChunk (s : State) (st : Stand) (c : Copy) (e : ChunkEval) : State :=
  let s := { s with fresh := s.fresh + 1 }
  if c.kind = 1 then
    let alive := c.recvs.filter (fun r => recvAlive s r.uid)
    let c' := { c.advance e with recvs := alive.map (fun r => { r with pending := true }), buf := e.out.bytes, landing := !alive.isEmpty }
    tryComplete (s.modStand st.uid (fun st => st.modCopy c.id (fun _ => c'))) st.uid c.id
  else
    let s := writeSegs s (copyWho st.uid c.id) e.dst e.out.bytes
    let s := writeSegs s (copyWho st.uid c.id) e.side e.out.side
    let s := s.modStand st.uid (fun st =>
      let st := if e.sl.dk c.kind = 0 then st
        else { st with scratch := memSetBytes st.scratch (endPlace st (e.sl.dk c.kind) e.sl.d (64 * e.ch)) e.out.bytes }
      st.modCopy c.id (fun k => k.advance e))
    tryComplete s st.uid c.id

/-- The floes that the engine still holds the copy's next slice for (03 R67). -/
def releaseHeld (st : Stand) (c : Copy) (sl : CopySlice) : Option (Stand × List Nat) :=
  countFloes st c.counted (sl.floeKeys c.kind)

/-- COPY_CHUNK: the next chunk of a started copy, or the completion of a copy with none left. A chunk that fails is left to
CHUNK_FAULT. -/
def execCopyChunk (uid id : Nat) (s : State) : Out State Fault Refusal :=
  .next (match s.stand? uid with
    | none => s
    | some st =>
      match st.copy? id with
      | none => s
      | some c =>
        if c.landing then
          (if c.recvs.any (fun r => r.pending && recvAlive s r.uid) then s
           else tryComplete (s.modStand uid (fun st => st.modCopy id (fun k => { k with landing := false }))) uid id)
        else if !contextRuns s st || !c.started || c.kind == 3 && !c.abandoned then s
        else if c.abandoned then tryComplete s uid id
        else
          match c.next with
          | none => tryComplete s uid id
          | some nx =>
            match releaseHeld st c nx.2.1 with
            | none => s
            | some r =>
              let st' := r.1.modCopy id (fun k => { k with counted := r.2 })
              let s := s.modStand uid (fun _ => st')
              let c := { c with counted := r.2 }
              let s := readAhead s st' c nx.2.1 nx.2.2.2
              match evalChunk s st' c nx with
              | .ok e => writeChunk s st' c e
              | .error (.miss va acc) => queueWalk s (c.mmu st') va acc
              | .error (.fetch line mask write) => fetchLine s st' c line mask write
              | .error .held => s
              | .error (.fault ..) => s)

/-- MULTICAST_LANDING: the chunk lands in one receiver, on whatever core it now is; its signal follows the last
(15 R329; 08 R194). -/
def execMulticastLanding (uid id recv : Nat) (s : State) : Out State Fault Refusal :=
  .next (match s.stand? uid with
    | none => s
    | some st =>
      match st.copy? id with
      | none => s
      | some c =>
        if !c.landing || !c.recvs.any (fun r => r.uid == recv && r.pending) || (s.stand? recv).isNone && recvAlive s recv then s
        else
          let isLast := c.next.isNone
          let sl := (c.slices.getD c.cur ⟨0, 0, 0, 0, 0⟩)
          let s := s.modStand recv (fun y =>
            let y := { y with scratch := memSetBytes y.scratch (fld sl.d 31 0 + 64 * (c.chunk - 1)) c.buf }
            if isLast && sl.sig then signalArrives y sl.bar id else y)
          let recvs := c.recvs.map (fun r => if r.uid = recv then { r with pending := false, signalled := isLast } else r)
          let still := recvs.any (fun r => r.pending && recvAlive s r.uid)
          tryComplete (s.modStand uid (fun st => st.modCopy id (fun k =>
            { k with recvs := recvs, landing := still, buf := if still then k.buf else [] }))) uid id)

/-! ## Faults and dictionary tables (15 R331, R336) -/

/-- The read of a dictionary table. -/
def tableRead (s : State) (st : Stand) (c : Copy) : Except CStop (List Byte) :=
  match c.slices with
  | [] => .error .held
  | sl :: _ => ctxRead s st c sl.s.toNat 32768

/-- The failure that a copy meets now. -/
def copyFails (s : State) (st : Stand) (c : Copy) : Option CStop :=
  if c.kind = 3 then (match tableRead s st c with | .error e => some e | .ok _ => none)
  else
    match c.next with
    | none => none
    | some nx =>
      if (releaseHeld st c nx.2.1).isNone then none
      else match evalChunk s st c nx with
        | .error e => some e
        | .ok _ => none

/-- CHUNK_FAULT: the context pauses and the batch is faulted; an ENGINE trap is raised. -/
def execChunkFault (uid id : Nat) (s : State) : Out State Fault Refusal :=
  .next (match s.stand? uid with
    | none => s
    | some st =>
      match st.copy? id with
      | none => s
      | some c =>
        if !contextRuns s st || !c.started || c.landing || c.abandoned then s
        else
          match copyFails s st c with
          | some (.fault d addr) =>
            let s := (dropAsks s (c.mmu st).who).modStand uid (fun st =>
              let st := st.modCopy id (fun k => { k with faulted := true, faultDetail := d })
              { st with copy := { st.copy with paused := true, resume := false } })
            engineFault s uid d (BitVec.ofNat 64 addr) 2 0
          | _ => s)

/-- The `n` words of a table from entry `e` on, those that are not 0: entry e is bytes 8e to 8e + 7 of the table. -/
def tableWords : Nat → Nat → List Byte → List (Nat × Word)
  | 0, _, _ => []
  | n + 1, e, bs =>
    let w := BitVec.ofNat 64 (ofBytes (bs.take 8))
    if w = 0#64 then tableWords n (e + 1) (bs.drop 8) else (e, w) :: tableWords n (e + 1) (bs.drop 8)

/-- DICT_TABLE_LOADED. -/
def execDictTableLoaded (uid id : Nat) (s : State) : Out State Fault Refusal :=
  .next (match s.stand? uid with
    | none => s
    | some st =>
      match st.copy? id with
      | none => s
      | some c =>
        if !contextRuns s st || c.kind != 3 || c.abandoned then s
        else
          match tableRead s st c with
          | .ok bs =>
            let ws := tableWords 4096 0 bs
            let s := { s with fresh := s.fresh + 1 }
            standEnd (s.modStand uid (fun st =>
              let st := { st with copy := { st.copy with
                bank0 := if c.bank = 0 then ws else st.copy.bank0
                bank1 := if c.bank = 0 then st.copy.bank1 else ws } }
              finishCopy st c)) uid
          | .error (.miss va acc) => queueWalk s (c.mmu st) va acc
          | .error (.fetch line mask write) => fetchLine s st c line mask write
          | .error .held => s
          | .error (.fault ..) => s)

end Sys2Proof.Machine
end

