-- ==== Sys2Proof/Machine/Matrix.lean ====
section
/-! DEFINITION. The matrix sequencer's words, operand reads, pins, and the matrix unit (14 R297 to R319; 03 R72; the
matrix sum of 06 R144, R145). -/

namespace Sys2Proof.Machine

/-! ## A word of the sequencer -/

/-- The slot that names a stand's sequencer as the agent of a turn; no grove has it (08 R181). -/
def seqSlot : Nat := 16

/-- The stand whose sequencer executes. -/
structure Sx where
  s : State
  st : Stand

def sx? (s : State) : Option Sx :=
  match s.cur with
  | none => none
  | some w => if w.slot = seqSlot then (s.stand? w.uid).map (fun st => ⟨s, st⟩) else none

def Sx.q (x : Sx) : Seqr := x.st.seq
/-- Stores the sequencer. -/
def Sx.put (x : Sx) (q : Seqr) : State := x.s.modStand x.st.uid (fun st => { st with seq := q })
/-- The word is over. -/
def Sx.done (x : Sx) (q : Seqr) : State := x.put { q with mpc := q.mpc + 4, wait := none }
/-- The word is held; a later turn tries it again. -/
def Sx.hold (x : Sx) : State := x.s

/-! ## Parts of an operation (14 R305, R306, R311) -/

/-- A data part, scale part or metadata of an operation: where its rows lie. -/
structure MPart where
  src : Bool
  base : Word
  pitch : Nat
  rows : Nat
  len : Nat
deriving DecidableEq, Repr

/-- Bytes of `n` elements of a type in a row. -/
def rowBytes (t n : Nat) : Nat := if t = 14 then n / 2 else n * (typeBits t / 8)

def Record.dataPart (r : Record) (rows n : Nat) : MPart := ⟨r.src, r.base, r.pitch, rows, n⟩
def Record.scalePart (r : Record) (rows n : Nat) : MPart := ⟨r.ssrc, r.sbase, r.spitch, rows, n⟩

/-- A's elements in a row: 64, or 32 compressed ones. -/
def aCols (kind : Nat) : Nat := if kind = 1 then 32 else 64

/-- The parts of an operation: A, B, the scales of A and of B, the metadata. -/
def matParts (kind : Nat) (ra rb rm : Record) : List MPart :=
  if kind = 2 then []
  else
    [ra.dataPart 128 (rowBytes ra.type (aCols kind)), rb.dataPart 64 (rowBytes rb.type 96)] ++
    (if ra.type = 14 then [ra.scalePart 128 (aCols kind / 32)] else []) ++
    (if rb.type = 14 then [rb.scalePart 64 3] else []) ++
    (if kind = 1 then [rm.dataPart 128 8] else [])

def MatOp.parts (o : MatOp) : List MPart := matParts o.kind o.ra o.rb o.rm

/-- Virtual address of a row of a global part. -/
def MPart.rowVa (p : MPart) (r : Nat) : Nat := (p.base.toNat + r * p.pitch) % 2 ^ 64

/-- The global bytes of an operation, page by page: address and length. -/
def MatOp.globalRuns (o : MatOp) : List (Nat × Nat) :=
  (o.parts.filter (·.src)).flatMap (fun p => (List.range p.rows).flatMap (fun r => pageRuns 3 (p.rowVa r) p.len))

/-! ## Data that has arrived -/

/-- Bytes of a global run with their marks, once its lines are there. -/
def MatOp.runData (o : MatOp) (r : Nat × Nat) : List (Byte × Bool × Bool) :=
  let pa := ((o.pages.find? (fun p => p.1 == r.1 / 4096)).map (·.2)).getD 0 + r.1 % 4096
  (segPieces (r.2 / 128 + 2) pa r.2 0 0).flatMap (fun q =>
    match o.got.find? (fun y => y.1 == q.line) with
    | some y => (List.range q.len).map (fun i =>
        (lineByte y.2.bytes (q.off + i), y.2.poison.getLsbD (q.off + i), y.2.lost.getLsbD (q.off + i)))
    | none => List.replicate q.len (0, false, false))

/-- The lowest address whose byte has one mark. -/
def lowestMark (mark : Byte × Bool × Bool → Bool) (o : MatOp) : Option Nat :=
  o.globalRuns.foldl (fun best r =>
    match (o.runData r).findIdx? mark with
    | some i => (match best with | some b => some (min b (r.1 + i)) | none => some (r.1 + i))
    | none => best) none

/-- POISON or OWNERLOST in the operand bytes: detail and the lowest such address (14 R318). -/
def MatOp.dataFault (o : MatOp) : Option (Nat × Nat) :=
  match lowestMark (fun b => b.2.1) o, lowestMark (fun b => b.2.2) o with
  | some a, some b => if a ≤ b then some (0x49, a) else some (0x4A, b)
  | some a, none => some (0x49, a)
  | none, some b => some (0x4A, b)
  | none, none => none

/-- Every operand byte has arrived, none of them faulty. -/
def MatOp.arrived (o : MatOp) : Bool := o.started && o.want.isEmpty && o.dataFault.isNone

/-- Every operand read of earlier operations has returned its data (05 R118); `mzero` reads nothing. -/
def Seqr.allRead (q : Seqr) : Bool := q.ops.all (fun o => o.kind == 2 || o.arrived)

/-! ## Faults (14 R318, R319) -/

def resumable (detail : Nat) : Bool := detail == 0x44 || detail == 0x49 || detail == 0x4A || decide (0x50 ≤ detail)

/-- Detail of a translation fault. -/
def seqDetail (code detail : Nat) : Nat :=
  if code = cPAGE then 0x44 else if code = cALIGN then 0x48 else if code = cPOISON then 0x49
  else if code = cOWNERLOST then 0x4A else 0x50 + detail

/-- RUN becomes 2 with MPC at the faulting word; a resumable fault is a trap, another aborts the stand. -/
def raiseSeq (s : State) (uid detail : Nat) (addr mpc : Word) : State :=
  let s := s.modStand uid (fun st => { st with seq := { st.seq with run := 2, wait := none } })
  if resumable detail then engineFault s uid detail addr 1 mpc else abortDomain s uid (causeWord cENGINE detail) mpc

/-- A fault of the word at MPC; earlier operations run to completion first (14 R319). -/
def Sx.fault (x : Sx) (detail : Nat) (addr : Word) : State :=
  if x.q.ops.isEmpty then raiseSeq x.s x.st.uid detail addr x.q.mpc else x.s

/-- The number that the next batch of the stand takes (14 R313). -/
def nextBatch (st : Stand) : Nat := st.tlm.last + 1 - st.seq.again

/-- tlm follows the batches that are closed and not complete. -/
def Stand.settleTlm (st : Stand) : Stand :=
  { st with tlm := { st.tlm with counter := timelineOf st.tlm.last st.mbatches } }

/-- The barriers as before an `mend` that followed: the sequencer takes part in those at which it arrived (14 R313, R315). -/
def rejoin (st : Stand) : List Barrier :=
  if st.seq.run ≠ 0 then st.barriers
  else st.barriers.mapIdx (fun n b => match st.seq.barLast.getD n none with
    | some phi => { b with seqJoined := true, seqArrived := phi == b.phase }
    | none => b)

/-- The sequencer is back at the word of an operation. Batches closed behind it keep their numbers, incomplete until the words
that are executed again close them again: a last number never decreases, and the faulted operation joins no batch
(13 R296; 14 R319; log entry 23). -/
def undoTo (st : Stand) (o : MatOp) : Stand :=
  let again := st.tlm.last + 1 - o.undoNext
  Stand.settleTlm { st with
    mbatches := st.mbatches.filter (· < o.undoNext) ++ (List.range again).map (o.undoNext + ·)
    barriers := rejoin st
    seq := { st.seq with
      mpc := o.undoPc
      x := o.undoX
      q := o.undoQ
      mtype := o.undoType
      openOps := o.undoOpen
      again := again
      run := 1
      ops := [] } }

/-- A fault found in the reads of the stand's oldest operation, earlier ones being complete: the sequencer is back at its
word, and later operations with it. During a swap the fault waits for the resume, and is met by the word again (08 R193). -/
def opFault (s : State) (uid : Nat) (o : MatOp) (detail : Nat) (addr : Nat) : State :=
  match s.stand? uid with
  | none => s
  | some st =>
    let s := s.modM (fun m => { m with pinQueue := m.pinQueue.filter (fun p => p.uid != uid) })
    let s := st.seq.ops.foldl (fun s k => dropAsks s ⟨uid, 1000 + 2 * k.id⟩) s
    let s := s.modCore st.core (fun c => c.leaveUnit (fun w => w.uid == uid))
    let back := s.modStand uid (fun st => undoTo st o)
    if swapping s st.core then back else raiseSeq back uid detail (BitVec.ofNat 64 addr) o.undoPc

/-- A matrix-stream word: nothing executes it without a sequencer; a Reserved bit is a fault (14 R318). -/
def matrixInstr (i : Instr) (s : State) (body : Sx → State) : Out State Fault Refusal :=
  match sx? s with
  | none => .fault .noSequencer
  | some x => .next (if i.wellFormed then body x else x.fault 0x41 x.q.mpc)

/-! ## Control and scalars (14 R316, R317) -/

def xGet (q : Seqr) (n : Nat) : Word := vget q.x n 0
def Seqr.setX (q : Seqr) (n : Nat) (v : Word) : Seqr := { q with x := q.x.setIfInBounds n v }

def execMnop (s : State) : Out State Fault Refusal := matrixInstr .mnop s (fun x => x.done x.q)

/-- The target of a jump: the word's address plus four times the signed offset. -/
def jumpTo (q : Seqr) (o : BitVec 23) : Word := q.mpc + 4 * o.signExtend 64

def execMjmp (o : BitVec 23) (s : State) : Out State Fault Refusal :=
  matrixInstr (.mjmp o) s (fun x => x.put { x.q with mpc := jumpTo x.q o, wait := none })

def execMloop (n : BitVec 3) (o : BitVec 23) (s : State) : Out State Fault Refusal :=
  matrixInstr (.mloop n o) s (fun x =>
    let v := xGet x.q n.toNat - 1
    let q := x.q.setX n.toNat v
    if v = 0 then x.done q else x.put { q with mpc := jumpTo q o, wait := none })

/-- Operand B of a scalar word. -/
def xB (q : Seqr) (sel : BitVec 1) (i : BitVec 19) : Word :=
  if sel = 1#1 then xGet q (i.extractLsb' 0 3).toNat else i.signExtend 64

def xOp (d a : BitVec 3) (sel : BitVec 1) (i : BitVec 19) (f : Word → Word → Word) (x : Sx) : State :=
  x.done (x.q.setX d.toNat (f (xGet x.q a.toNat) (xB x.q sel i)))

def execXadd (d a : BitVec 3) (sel : BitVec 1) (i : BitVec 19) (s : State) : Out State Fault Refusal :=
  matrixInstr (.xadd d a sel i) s (xOp d a sel i (· + ·))
def execXsub (d a : BitVec 3) (sel : BitVec 1) (i : BitVec 19) (s : State) : Out State Fault Refusal :=
  matrixInstr (.xsub d a sel i) s (xOp d a sel i (· - ·))
def execXmul (d a : BitVec 3) (sel : BitVec 1) (i : BitVec 19) (s : State) : Out State Fault Refusal :=
  matrixInstr (.xmul d a sel i) s (xOp d a sel i (· * ·))
def execXshl (d a : BitVec 3) (sel : BitVec 1) (i : BitVec 19) (s : State) : Out State Fault Refusal :=
  matrixInstr (.xshl d a sel i) s (xOp d a sel i (fun a b => if b.toNat < 64 then a <<< b.toNat else 0))
def execXshr (d a : BitVec 3) (sel : BitVec 1) (i : BitVec 19) (s : State) : Out State Fault Refusal :=
  matrixInstr (.xshr d a sel i) s (xOp d a sel i (fun a b => if b.toNat < 64 then a >>> b.toNat else 0))
def execXand (d a : BitVec 3) (sel : BitVec 1) (i : BitVec 19) (s : State) : Out State Fault Refusal :=
  matrixInstr (.xand d a sel i) s (xOp d a sel i (· &&& ·))
def execXior (d a : BitVec 3) (sel : BitVec 1) (i : BitVec 19) (s : State) : Out State Fault Refusal :=
  matrixInstr (.xior d a sel i) s (xOp d a sel i (· ||| ·))
def execXxor (d a : BitVec 3) (sel : BitVec 1) (i : BitVec 19) (s : State) : Out State Fault Refusal :=
  matrixInstr (.xxor d a sel i) s (xOp d a sel i (· ^^^ ·))

def execXli (d : BitVec 3) (i : BitVec 23) (s : State) : Out State Fault Refusal :=
  matrixInstr (.xli d i) s (fun x => x.done (x.q.setX d.toNat (i.signExtend 64)))

/-! ## Types and records (14 R303, R304) -/

/-- e4m3, e5m2, i8, i4x, bf16, f16, f32, f64. -/
def matTypes : List Nat := [12, 13, 0, 14, 9, 8, 10, 11]

def execMmode (t : BitVec 4) (s : State) : Out State Fault Refusal :=
  matrixInstr (.mmode t) s (fun x =>
    if matTypes.contains t.toNat then x.done { x.q with mtype := t.toNat } else x.fault 0x41 x.q.mpc)

def floeReady (st : Stand) (n : Nat) : Bool := (st.floes.getD n Floe.empty).state == 2

/-- An earlier operation that names the record has not all its operand bytes (14 R301). -/
def recordHeld (q : Seqr) (n : Nat) : Bool := q.ops.any (fun o => o.qs.contains n && !o.arrived)

/-- The base and pitch of MrecLd and MrecSc, then what follows. -/
def mrecOp (x : Sx) (q : BitVec 4) (src px : BitVec 1) (n : BitVec 6) (pitch : BitVec 13) (unit : Nat)
    (k : Word → Nat → State) : State :=
  if recordHeld x.q q.toNat then x.hold
  else if src = 0#1 ∧ x.st.floes.length ≤ n.toNat then x.fault 0x43 x.q.mpc
  else if src = 0#1 ∧ !floeReady x.st n.toNat then x.hold
  else
    let base := if src = 0#1 then BitVec.ofNat 64 n.toNat else xGet x.q (n.extractLsb' 0 3).toNat
    let p := if px = 1#1 then (xGet x.q (pitch.extractLsb' 0 3).toNat).toNat else unit * pitch.toNat
    if 2 ^ 32 ≤ p then x.fault 0x48 x.q.mpc else k base p

def Seqr.setRecord (q : Seqr) (n : Nat) (f : Record → Record) : Seqr := { q with q := q.q.setIfInBounds n (f (vget q.q n Record.zero)) }

def execMrecLd (q : BitVec 4) (src px : BitVec 1) (n : BitVec 6) (pitch : BitVec 13) (s : State) :
    Out State Fault Refusal :=
  matrixInstr (.mrecLd q src px n pitch) s (fun x => mrecOp x q src px n pitch 8 (fun base p =>
    if src = 1#1 ∧ (base.toNat % 8 ≠ 0 ∨ p % 8 ≠ 0) then x.fault 0x48 x.q.mpc
    else x.done (x.q.setRecord q.toNat (fun _ => ⟨base, true, x.q.mtype, src == 1#1, p, 0, false, false, 0⟩))))

def execMrecSc (q : BitVec 4) (src px : BitVec 1) (n : BitVec 6) (pitch : BitVec 13) (s : State) :
    Out State Fault Refusal :=
  matrixInstr (.mrecSc q src px n pitch) s (fun x => mrecOp x q src px n pitch 1 (fun base p =>
    x.done (x.q.setRecord q.toNat (fun r => { r with sbase := base, svalid := true, ssrc := src == 1#1, spitch := p }))))

/-! ## Operations (14 R301, R306, R307, R310 to R312) -/

/-- An admitted pair of types. -/
def pairOk (a b : Nat) : Bool :=
  ((a == 12 || a == 13) && (b == 12 || b == 13)) || (a == b && [0, 14, 9, 8, 10, 11].contains a)

/-- The checks of an operation in the order of the pseudocode. A metadata record that is not valid counts with the other
records, before its SRC (log entry 136, DESIGN CHOICE: 14 R311 gives the two no order). -/
def matCheck (st : Stand) (kind tile : Nat) (ra rb rm : Record) : Option Nat :=
  if st.shape.tiles ≤ tile then some 0x46
  else if kind = 2 then none
  else if !ra.valid || !rb.valid || !pairOk ra.type rb.type || (ra.type == 14 && !ra.svalid) ||
      (rb.type == 14 && !rb.svalid) || (kind == 1 && !rm.valid) then some 0x42
  else if kind = 1 ∧ rm.src then some 0x47
  else if (matParts kind ra rb rm).any (fun p => !p.src && decide (st.floes.length ≤ floeNum p.base)) then some 0x43
  else none

/-- A floe part that leaves its floe (14 R310). -/
def partOut (st : Stand) (p : MPart) : Bool :=
  let f := st.floes.getD (floeNum p.base) Floe.empty
  !p.src && decide (f.size * 256 < (p.rows - 1) * p.pitch + p.len)

/-- The hand-over of an operation. -/
def handOver (x : Sx) (kind tile : Nat) (qs : List Nat) (ra rb rm : Record) : State :=
  match matCheck x.st kind tile ra rb rm with
  | some d => x.fault d x.q.mpc
  | none =>
    let parts := matParts kind ra rb rm
    if 2 ≤ x.q.ops.length ∨ x.q.ops.any (fun o => o.tile == tile) ∨
        parts.any (fun p => !p.src && !floeReady x.st (floeNum p.base)) then x.hold
    else if parts.any (partOut x.st) then x.fault 0x45 x.q.mpc
    else
      let floes := parts.map (fun p => if p.src then Floe.empty else x.st.floes.getD (floeNum p.base) Floe.empty)
      let o : MatOp := ⟨x.s.nextId, kind, tile, ra, rb, rm, qs, floes, false, [], [], [], [], none, x.q.mpc, x.q.x, x.q.q,
        x.q.mtype, x.q.openOps, nextBatch x.st⟩
      { x with s := { x.s with nextId := x.s.nextId + 1 } }.done
        { x.q with openOps := (x.q.openOps + 1) % 2 ^ 16, ops := x.q.ops ++ [o] }

def recordOf (q : Seqr) (n : BitVec 4) : Record := vget q.q n.toNat Record.zero

def execMma (c a b : BitVec 4) (s : State) : Out State Fault Refusal :=
  matrixInstr (.mma c a b) s (fun x =>
    handOver x 0 c.toNat [a.toNat, b.toNat] (recordOf x.q a) (recordOf x.q b) Record.zero)

def execMmaSp (c a b m : BitVec 4) (s : State) : Out State Fault Refusal :=
  matrixInstr (.mmaSp c a b m) s (fun x =>
    handOver x 1 c.toNat [a.toNat, b.toNat, m.toNat] (recordOf x.q a) (recordOf x.q b) (recordOf x.q m))

def execMzero (c : BitVec 4) (s : State) : Out State Fault Refusal :=
  matrixInstr (.mzero c) s (fun x => handOver x 2 c.toNat [] Record.zero Record.zero Record.zero)

/-! ## Batches, fences and barriers (14 R313 to R315) -/

/-- Closes the batch: its number, and the operations that it holds; it is complete at once when none of them is under way
(14 R313). -/
def closeMatrix (st : Stand) : Stand :=
  let n := nextBatch st
  let left := st.seq.ops.any (fun o => o.batch.isNone)
  Stand.settleTlm { st with
    tlm := { st.tlm with last := max st.tlm.last n }
    mbatches := st.mbatches.filter (· ≠ n) ++ (if left then [n] else [])
    seq := { st.seq with
      openOps := 0
      again := st.seq.again - 1
      mpc := st.seq.mpc + 4
      wait := none
      ops := st.seq.ops.map (fun (o : MatOp) => if o.batch.isNone then { o with batch := some n } else o) } }

def execMendGo (s : State) : Out State Fault Refusal :=
  matrixInstr .mendGo s (fun x => x.s.modStand x.st.uid closeMatrix)

/-- The stream ends: RUN 0, out of every barrier, and the stand may end. -/
def execMend (s : State) : Out State Fault Refusal :=
  matrixInstr .mend s (fun x =>
    standEnd (x.s.modStand x.st.uid (fun st =>
      let st := closeMatrix st
      seqLeaves { st with seq := { st.seq with run := 0 } })) x.st.uid)

def execMfence (s : State) : Out State Fault Refusal :=
  matrixInstr .mfence s (fun x => if x.q.ops.isEmpty then x.done x.q else x.hold)

/-- The sequencer arrives, joining at its first arrival (08 R178). -/
def seqArrives (st : Stand) (n : Nat) : Stand :=
  settleBarriers { st with barriers := st.barriers.modify n (fun b => { b with seqJoined := true, seqArrived := true }) }

def execMbarArr (n : BitVec 4) (s : State) : Out State Fault Refusal :=
  matrixInstr (.mbarArr n) s (fun x =>
    let phi := barPhaseOf x.st n.toNat
    if x.q.barLast.getD n.toNat none = some phi ∨ !x.q.allRead then x.hold
    else (x.done { x.q with barLast := x.q.barLast.set n.toNat (some phi) }).modStand x.st.uid
      (fun st => seqArrives st n.toNat))

/-- A wait on the phase in progress when it starts (13 R294; 14 R315). -/
def execMbarWait (n : BitVec 4) (s : State) : Out State Fault Refusal :=
  matrixInstr (.mbarWait n) s (fun x =>
    match x.q.wait with
    | some phi => if barPhaseOf x.st n.toNat = phi then x.hold else x.done x.q
    | none => x.put { x.q with wait := some (barPhaseOf x.st n.toNat) })

/-! ## The sequencer's turn (14 R298) -/

/-- The sequencer executes its next word (14 R298; 16 R344, R349). -/
def seqRuns (s : State) (st : Stand) : Bool :=
  st.seq.run == 1 && st.halt.isNone && !st.dbgHalt && !draining s st && !(s.d.core st.core).quarantined

/-! ## Pins and the start of an operation (03 R72; 14 R308, R309) -/

/-- What a global run of an operand meets: a page to walk, a fault with its detail and address, or its page's address. -/
inductive MTr where
  | miss (va : Nat)
  | fault (detail addr : Nat)
  | ok (va pa : Nat)
deriving DecidableEq, Repr

/-- The operation as the requester of walks (02 R45). -/
def MatOp.mmu (o : MatOp) (st : Stand) : Mmu := st.mmu true (1000 + 2 * o.id)

/-- A run of an operand translated (14 R309). A page of another module is refused for stage 1's address, before stage 2. -/
def matTranslate (s : State) (st : Stand) (o : MatOp) (r : Nat × Nat) : MTr :=
  match lookup s (o.mmu st) r.1 accRead with
  | .miss => .miss r.1
  | .fault f => .fault (if f.code = cPROT ∧ f.detail = 6 ∧ f.leaf.any (fun l => isRemote l.1) then 0x4B
      else seqDetail f.code f.detail) r.1
  | .ok pa kind =>
    if isRemote pa then .fault 0x4B r.1
    else if kind ≠ 0 then .fault 0x4C r.1
    else match pieceCheck s st.part pa r.2 0 .load false with
      | some (c, d, i) => .fault (seqDetail c d) (r.1 + i)
      | none => .ok r.1 pa

/-- The lowest fault. -/
def lowestFault (ts : List MTr) : Option (Nat × Nat) :=
  ts.foldl (fun best t => match t with
    | .fault d a => (match best with | some b => if a < b.2 then some (d, a) else best | none => some (d, a))
    | .miss _ => best
    | .ok .. => best) none

/-- Scratch bytes of a floe part, rows one after another. -/
def takePart (st : Stand) (p : MPart) (f : Floe) : List Byte :=
  if p.src then []
  else (List.range p.rows).flatMap (fun r => memBytes st.scratch (f.offset * 256 + r * p.pitch) p.len)

/-- A line's read goes out, with a pin or without. -/
def tfuRead (s : State) (st : Stand) (op line : Nat) (pin : Bool) : State :=
  let r := sendRead s st.uid st.core line st.part (some ⟨st.uid, op⟩) false 0
  r.2.modM (fun m => { m with fills := m.fills.map (fun (f : Fill) => if f.id = r.1 then { f with pin := pin } else f) })

/-- The operation's reads begin: floe parts are taken, its lines wait for their pins; without ways to allocate, they are
read without. -/
def beginOp (s : State) (st : Stand) (o : MatOp) (ts : List MTr) : State :=
  let segs := (o.globalRuns.zip ts).filterMap (fun p => match p.2 with
    | .ok va pa => some (va, pa, p.1.2)
    | .miss _ => none
    | .fault .. => none)
  let lines := (segs.flatMap (fun q => (segPieces (q.2.2 / 128 + 2) q.2.1 q.2.2 0 0).map (·.line))).eraseDups
  let o' : MatOp := { o with
    started := true
    taken := (o.parts.zip o.floes).map (fun p => takePart st p.1 p.2)
    pages := (segs.map (fun q => (q.1 / 4096, q.2.1 - q.1 % 4096))).eraseDups
    want := lines }
  let s := s.modStand st.uid (fun st => { st with seq := { st.seq with
    ops := st.seq.ops.map (fun (k : MatOp) => if k.id = o.id then o' else k) } })
  let s := s.modCore st.core (fun c =>
    if c.mxOp.isNone then { c with mxOp := some ⟨st.uid, o.id⟩, mxLast := st.sslot }
    else { c with mxNext := some ⟨st.uid, o.id⟩, mxLast := st.sslot })
  if (waysOf s st.part).isEmpty then lines.foldl (fun s l => tfuRead s st o.id l false) s
  else s.modM (fun m => { m with pinQueue := m.pinQueue ++ lines.map (fun l => ⟨l, st.uid, o.id⟩) })

/-- The stand that the free matrix unit serves next: round robin of stand slots behind the one served last. -/
def nextServed (s : State) (core last : Nat) : Option (Stand × MatOp) :=
  let cands := (s.stands.filter (fun st => st.core == core)).filterMap (fun st =>
    (st.seq.ops.find? (fun o => !o.started)).map (fun o => (st, o)))
  let far (st : Stand) : Nat := (st.sslot + 8 - last - 1) % 8
  match cands with
  | [] => none
  | c :: cs => some (cs.foldl (fun b x => if far x.1 < far b.1 then x else b) c)

/-- The matrix unit can begin another operation's reads: it is free, or it is past the reads of the operation that it
executes (14 R307, R308). -/
def unitTakes (s : State) (core : Nat) : Bool :=
  (s.d.core core).mxNext.isNone && (match (s.d.core core).mxOp with
    | none => true
    | some w => ((s.stand? w.uid).bind (fun st => st.seq.ops.find? (fun o => o.id == w.slot))).any MatOp.arrived)

/-- MATRIX_OPERATION_START. A fault in translation waits for the stand's earlier operation to complete. -/
def execMatrixOperationStart (core : Nat) (s : State) : Out State Fault Refusal :=
  .next (if !unitTakes s core || (s.d.core core).quarantined || swapping s core then s
    else match nextServed s core (s.d.core core).mxLast with
    | none => s
    | some (st, o) =>
      let ts := o.globalRuns.map (matTranslate s st o)
      let misses := ts.filterMap (fun t => match t with | .miss va => some va | .ok .. => none | .fault .. => none)
      if !misses.isEmpty then misses.foldl (fun s va => queueWalk s (o.mmu st) va accRead) s
      else match lowestFault ts with
        | some (d, a) => if (st.seq.ops.head?).any (fun k => k.id == o.id) then opFault s st.uid o d a else s
        | none => beginOp s st o ts)

/-- Slice and set of a line. -/
def setOf (s : State) (line : Nat) : Nat × Nat := (homeSlice s line, l2SetOf line)

/-- The set of a line has room for a pin of it (03 R72): fewer than 8 of its ways hold pinned lines, or the line is one of
them, with a count below 255. -/
def pinRoom (s : State) (line : Nat) : Bool :=
  let pinned := s.m.l2.filter (fun y => y.slice == homeSlice s line && y.pins != 0 && l2SetOf y.line == l2SetOf line)
  match l2Home s line with
  | some y => decide (y.pins < 255) && (y.pins != 0 || decide (pinned.length < 8))
  | none => decide (pinned.length < 8)

/-- A pin is obtained: the line is in its slice, its count rises, and its read goes out. The transfers that bring the line in
are the stand's (03 R74); while its port has no token for them the pin waits. -/
def takePin (s : State) (st : Stand) (p : PinReq) : State :=
  let r := prepay s (homeSlice s p.line) p.line st.part 0 (missTokens s p.line st.part)
  if !r.1 then r.2
  else
    let s := (l2Access r.2 p.line st.part 0 false).modM (fun m => { m with
      pinQueue := m.pinQueue.erase p
      l2 := m.l2.map (fun y => if y.line = p.line ∧ y.visitor.isNone then { y with pins := y.pins + 1 } else y) })
    tfuRead s st p.op p.line true

/-- PIN: the first pin that waits in the line's set obtains it when the set has room and the line can be brought in (03 R72;
07 R159; 18 R382). -/
def execPin (line : Nat) (s : State) : Out State Fault Refusal :=
  .next (match s.m.pinQueue.find? (fun p => setOf s p.line == setOf s line) with
    | none => s
    | some p =>
      if p.line ≠ line then s
      else
        match s.stand? p.uid with
        | none => s
        | some st =>
          if !groupReady s line then startFill s line (2 * st.part)
          else if !pinRoom s line || !homeOpen s line st.part then s
          else takePin s st p)

/-! ## The matrix sum (06 R144, R145) -/

/-- OVF, INV and INX of a slot (06 R142). -/
def sOVF : Word := 0x8000000000000000#64
def sINV : Word := 0x4000000000000000#64
def sINX : Word := 0x2000000000000000#64

/-- One group of products: its sum, and the sticky bits that it sets. An element that a 2:4 pattern omits gives an exact
zero product, of positive sign (log entry 131, DESIGN CHOICE: 06 R144 and 14 R311 give it none). -/
def matGroup (ps : List (Option FVal × FVal)) : FVal × Word :=
  let prods := ps.map (fun p => match p.1 with
    | none => some (.fin false 0 0)
    | some a => if a.isNaN || p.2.isNaN then none else mulVal a p.2)
  let vs := prods.filterMap id
  let infs := vs.filter FVal.isInf
  if prods.any Option.isNone || (infs.any FVal.neg && infs.any (fun v => !v.neg)) then (.nan false true 0, sINV)
  else if !infs.isEmpty then (.inf (infs.any FVal.neg), 0)
  else if vs.all FVal.isZero then (.fin (vs.all FVal.neg) 0 0, 0)
  else
    let top := vs.foldl (fun (a : Option Int) v => match v with
      | .fin _ 0 _ => a
      | .fin _ m e => (match a with | some b => some (max b ((Nat.log2 m : Int) + e)) | none => some ((Nat.log2 m : Int) + e))
      | _ => a) none
    let u : Int := top.getD 0 - 55
    let cut (m : Nat) (e : Int) : Nat × Bool :=
      if u ≤ e then (m * 2 ^ (e - u).toNat, false) else (m / 2 ^ (u - e).toNat, m % 2 ^ (u - e).toNat != 0)
    let r := vs.foldl (fun (a : Int × Bool) v => match v with
      | .fin n m e => (a.1 + (if n then -1 else 1) * ((cut m e).1 : Int), a.2 || (cut m e).2)
      | _ => a) (0, false)
    (.fin (decide (r.1 < 0)) r.1.natAbs u, if r.2 then sINX else 0)

/-- RoundA56(c + S) into a slot, its sticky bits kept. -/
def roundSlot (slot : Word) (S : FVal) : Word :=
  let hi := slot &&& 0xFF00000000000000#64
  let c := fmtA56.decode (slot.toNat % 2 ^ 56)
  if c.isNaN || S.isNaN then hi ||| BitVec.ofNat 64 (fmtA56.canonNaN false) ||| sINV
  else
    let r := sumRound fmtA56 0 [c, S]
    hi ||| BitVec.ofNat 64 r.1 ||| (if r.2 &&& fNV ≠ 0 then sINV else 0) |||
      (if r.2 &&& fOF ≠ 0 then sOVF ||| sINX else if r.2 &&& fNX ≠ 0 then sINX else 0)

/-- One slot: the four groups in increasing k. -/
def matSlot (slot : Word) (a : List (Option FVal)) (b : List FVal) : Word :=
  (List.range 4).foldl (fun c g =>
    let r := matGroup (((a.drop (16 * g)).take 16).zip ((b.drop (16 * g)).take 16))
    roundSlot c r.1 ||| r.2) slot

/-! ## Operand values (14 R305, R311) -/

/-- An operand part's bytes, row after row: taken from the floe, or from the lines that arrived. -/
def MatOp.partBytes (o : MatOp) (k : Nat) : List Byte :=
  match o.parts[k]? with
  | none => []
  | some p =>
    if p.src then (List.range p.rows).flatMap (fun r => (pageRuns 3 (p.rowVa r) p.len).flatMap (fun q => (o.runData q).map (·.1)))
    else o.taken.getD k []

/-- Values of a row's elements; an i4x row has a scale byte per 32 elements. -/
def rowVals (t n : Nat) (bs scales : List Byte) : List FVal :=
  if t = 14 then (List.range (n / 32)).flatMap (fun g =>
    let codes := ((bs.drop (16 * g)).take 16).flatMap (fun b => [b.toNat % 16, b.toNat / 16])
    (List.range 32).map (i4xSlot codes (sextNat 8 (scales.getD g 0).toNat)))
  else
    let es := typeBits t / 8
    (List.range n).map (fun k =>
      let v := ofBytes ((bs.drop (es * k)).take es)
      if t = 0 then .fin (decide (intVal 0 v < 0)) (intVal 0 v).natAbs 0 else (fmtOf t).decode v)

/-- Rows of a part's bytes. -/
def partRows (p : MPart) (bs : List Byte) : List (List Byte) := pieces p.len p.rows bs

/-- Expand of 14 R311: the second value wins; omitted elements are none. -/
def expandRow (els : List FVal) (meta_ : List Byte) : List (Option FVal) :=
  (List.range 16).flatMap (fun g =>
    let m := nibble meta_ g
    ((List.replicate 4 (none : Option FVal)).set (m % 4) (some (els.getD (2 * g) (.fin false 0 0)))).set (m / 4)
      (some (els.getD (2 * g + 1) (.fin false 0 0))))

/-- Rows of A and rows of B as values. -/
def MatOp.operands (o : MatOp) : List (List (Option FVal)) × List (List FVal) :=
  let rows (k : Nat) : List (List Byte) := match o.parts[k]? with
    | some p => partRows p (o.partBytes k)
    | none => []
  let sa := if o.ra.type = 14 then 1 else 0
  let sb := if o.rb.type = 14 then 1 else 0
  let aScale := if sa = 1 then rows 2 else []
  let bScale := if sb = 1 then rows (2 + sa) else []
  let md := rows (2 + sa + sb)
  let a := (rows 0).mapIdx (fun i r => rowVals o.ra.type (aCols o.kind) r (aScale.getD i []))
  (if o.kind = 1 then a.mapIdx (fun i r => expandRow r (md.getD i [])) else a.map (fun r => r.map some),
   (rows 1).mapIdx (fun i r => rowVals o.rb.type 96 r (bScale.getD i [])))

/-- Replaces the slots of a tile. -/
def setTile (tiles : List (Nat × Word)) (c : Nat) (f : Nat → Word) : List (Nat × Word) :=
  let new := (List.range 12288).filterMap (fun k => if f k = 0 then none else some (tileKey c k, f k))
  tiles.filter (fun p => p.1 < tileKey c 0) ++ new ++ tiles.filter (fun p => tileKey (c + 1) 0 ≤ p.1)

/-- MatSum on a tile (06 R144): slot 96 i + j takes row i of A and column j of B. -/
def matSum (st : Stand) (o : MatOp) : List (Nat × Word) :=
  let v := o.operands
  let cols := (List.range 96).map (fun j => v.2.map (fun r => r.getD j (.fin false 0 0)))
  setTile st.tiles o.tile (fun k => matSlot (tileSlot st o.tile k) (v.1.getD (k / 96) []) (cols.getD (k % 96) []))

/-- An operation is complete: its tile is written, it leaves the unit, and its batch may complete (14 R313). -/
def finishOp (st : Stand) (o : MatOp) : Stand :=
  let tiles := if o.kind = 2 then setTile st.tiles o.tile (fun _ => 0) else matSum st o
  let ops := st.seq.ops.filter (fun k => k.id ≠ o.id)
  Stand.settleTlm { st with
    tiles := tiles
    seq := { st.seq with ops := ops }
    mbatches := match o.batch with
      | some n => if ops.any (fun k => k.batch == some n) then st.mbatches else st.mbatches.filter (· ≠ n)
      | none => st.mbatches }

/-- MATRIX_OPERATION_COMPLETE. -/
def execMatrixOperationComplete (core : Nat) (s : State) : Out State Fault Refusal :=
  .next (match (s.d.core core).mxOp with
    | none => s
    | some w =>
      match s.stand? w.uid with
      | none => s
      | some st =>
        match st.seq.ops.find? (fun o => o.id == w.slot) with
        | none => s
        | some o =>
          if !o.started || !o.want.isEmpty then s
          else match o.dataFault with
            | some (d, a) => opFault s w.uid o d a
            | none => (s.modStand w.uid (fun st => finishOp st o)).modCore core (·.leaveUnit (· == w)))

end Sys2Proof.Machine
end

