-- ==== Sys2Proof/Machine/Debug.lean ====
section
/-! DEFINITION. Debug instructions (17 R363 to R368) and `samp` (R371). -/

namespace Sys2Proof.Machine

/-! ## Permission, target and selector (17 R363, R364) -/

/-- Debug instructions need DBGPOL. -/
def debugGate (x : Gx) (k : State) : State :=
  let p := x.s.d.part x.st.part
  if p.dbgEn && (p.dbgcl == 0xFFFF || p.dbgcl == x.st.clnum) then k else x.trapAll cPRIV 2 0

/-- The resident stand that a target names, in a live clearing of a partition. -/
def targetOf (s : State) (part : Nat) (a : Word) : Option Stand :=
  if (clearing? s part (fld a 63 48)).isNone then none
  else s.stands.find? (fun st => st.part == part && st.clnum == fld a 63 48 && st.index == fld a 47 0)

/-- The target of a debug instruction. -/
def debugTarget (x : Gx) (a : Word) : Option Stand := targetOf x.s x.st.part a

structure Sel where
  slot : Nat
  cls : Nat
  n : Nat
  idx : Nat
deriving DecidableEq, Repr

def selOf (b : Word) : Sel := ⟨fld b 63 60, fld b 59 56, fld b 55 48, fld b 47 0⟩

/-- The stand is halted (16 R344). -/
def standHalted (st : Stand) : Bool := st.dbgHalt || st.halt.isSome

/-- The grove is halted: by a debug halt of its own, or with its stand and past its skid instructions; a handler runs on in
the halt of its trap (16 R344; 17 R358). -/
def groveHalted (st : Stand) (g : Grove) : Bool :=
  g.dbgHalt ||
    ((st.dbgHalt || (st.halt.isSome && !g.trap.hnd)) && (g.skidLeft == 0 || (g.wait != .none && !g.wait.own)))

/-! ## Items (17 R365) -/

/-- N and INDEX lie in the class. -/
def itemExists (st : Stand) (g : Grove) (q : Sel) : Bool :=
  match q.cls with
  | 0 => decide (q.n < 56 ∧ q.idx < g.lam)
  | 1 => decide (q.n < 32 ∧ q.idx = 0)
  | 2 => decide (q.n ≤ 10 ∧ q.idx < 32)
  | 3 =>
    if q.n = 10 then decide (q.idx < 16)
    else if q.n = 11 then
      q.idx == 127 || (decide (q.idx / 128 < g.div.length) && (decide (q.idx % 128 < 3) || decide (32 ≤ q.idx % 128 ∧ q.idx % 128 < 96)))
    else decide (q.n < 10 ∧ q.idx = 0)
  | 4 => decide (q.n = 0 ∧ q.idx < g.lam)
  | 5 => decide (q.n < 64 ∧ q.idx = 0)
  | 6 => decide (q.n < 16 ∧ q.idx = 0)
  | 7 => decide ((q.n ≤ 3 ∨ (8 ≤ q.n ∧ q.n < 80)) ∧ q.idx = 0)
  | 8 => decide (q.n < st.shape.tiles ∧ q.idx < 12288)
  | 9 => decide (q.n ≤ 5 ∧ q.idx = 0)
  | 10 => decide (q.n < 64 ∧ q.idx = 0)
  | _ => false

/-- The item may be written. -/
def itemRw (q : Sel) : Bool :=
  match q.cls with
  | 0 | 1 | 2 | 4 | 7 | 8 => true
  | 3 => q.n == 0 || q.n == 1 || q.n == 4 || q.n == 6
  | _ => false

/-- The halt that the item requires is there; classes 0 and 4 of a parked lane need none (17 R359). -/
def itemHalt (st : Stand) (g : Grove) (q : Sel) : Bool :=
  match q.cls with
  | 0 | 4 => groveHalted st g || g.parked.getLsbD q.idx
  | 1 | 2 | 3 => groveHalted st g
  | 7 | 8 => standHalted st
  | _ => true

/-- The BOUNDS detail of an access to an item (17 R364), by a grove of stand `self` or another agent. -/
def itemStop (self : Option Nat) (st : Stand) (q : Sel) (write : Bool) : Option Nat :=
  if (st.grove? q.slot).isNone then some 12
  else
    let g := (st.grove? q.slot).getD (default : Grove)
    if self = some st.uid ∨ !itemExists st g q ∨ (write ∧ !itemRw q) then some 13
    else if !itemHalt st g q then some 11
    else none

/-- Word `w` of a mask. -/
def maskWord (m : LaneMask) (w : Nat) : Word := (m.extractLsb' (32 * w) 32).setWidth 64

/-- Word `w` of a mask written where the mask `may` allows it. -/
def putWord (m may : LaneMask) (w : Nat) (v : Word) : LaneMask :=
  let win := may &&& ((0xFFFFFFFF#1024) <<< (32 * w))
  (m &&& ~~~win) ||| (((v.setWidth 1024) <<< (32 * w)) &&& win)

/-- The masks of class 2. -/
def classMask (g : Grove) (n : Nat) : LaneMask :=
  match n with
  | 8 => g.active
  | 9 => g.parked
  | 10 => g.supp
  | _ => vget g.k n 0

/-- An entry of the divergence stack, the oldest being entry 0; INDEX 127 gives the depth, and the base pass count in bits
63 to 32. -/
def divItem (g : Grove) (idx : Nat) : Word :=
  if idx = 127 then BitVec.ofNat 64 (g.basePasses * 2 ^ 32 + g.div.length)
  else
    match g.div.reverse[idx / 128]? with
    | none => 0
    | some e =>
      match idx % 128 with
      | 0 => e.join
      | 1 => e.deferPc
      | 2 => BitVec.ofNat 64 e.passes
      | p => if p < 64 then maskWord e.rest (p - 32) else maskWord e.defer (p - 64)

/-- Words 1 and 3 of a record (14 R302). -/
def recordCtl (valid : Bool) (type : Nat) (src : Bool) (pitch : Nat) : Word :=
  BitVec.ofNat 64 ((if valid then 2 ^ 63 else 0) + type * 2 ^ 59 + (if src then 2 ^ 58 else 0) + pitch)

def Record.word (r : Record) (k : Nat) : Word :=
  match k with
  | 0 => r.base
  | 1 => recordCtl r.valid r.type r.src r.pitch
  | 2 => r.sbase
  | _ => recordCtl r.svalid 0 r.ssrc r.spitch

/-- A poke keeps all 64 bits of BASE and SBASE, of a floe record too, of which the floe's number is bits 5 to 0 (log entry 135,
DESIGN CHOICE: 14 R302 says only that the others are 0). -/
def Record.setWord (r : Record) (k : Nat) (v : Word) : Record :=
  match k with
  | 0 => { r with base := v }
  | 1 => { r with valid := v.getLsbD 63, type := fld v 62 59, src := v.getLsbD 58, pitch := fld v 31 0 }
  | 2 => { r with sbase := v }
  | _ => { r with svalid := v.getLsbD 63, ssrc := v.getLsbD 58, spitch := fld v 31 0 }

/-- Class 6 (08 R178). -/
def barrierItem (b : Barrier) : Word :=
  BitVec.ofNat 64 (b.phase + (b.arrived.eraseDups.map (fun i => 2 ^ (32 + i))).sum + (if b.seqArrived then 2 ^ 48 else 0) +
    (if b.seqJoined then 2 ^ 49 else 0))

/-- Class 7. -/
def seqItem (q : Seqr) (n : Nat) : Word :=
  match n with
  | 0 => q.mpc
  | 1 => BitVec.ofNat 64 q.mtype
  | 2 => BitVec.ofNat 64 q.openOps
  | 3 => BitVec.ofNat 64 q.run
  | _ => if n < 16 then xGet q (n - 8) else (vget q.q ((n - 16) / 4) Record.zero).word ((n - 16) % 4)

/-- Class 9. -/
def ctxItem (st : Stand) (n : Nat) : Word :=
  match n with
  | 0 => BitVec.ofNat 64 st.tlc.counter
  | 1 => BitVec.ofNat 64 st.tlc.last
  | 2 => BitVec.ofNat 64 st.tlm.counter
  | 3 => BitVec.ofNat 64 st.tlm.last
  | 4 => BitVec.ofNat 64 st.copy.queue.length
  | _ => BitVec.ofNat 64 ((if st.copy.paused then 1 else 0) + (if st.copy.queue.any (·.faulted) then 2 else 0))

/-- Class 3 but for the divergence stack. -/
def groveItem (st : Stand) (g : Grove) (n idx : Nat) : Word :=
  match n with
  | 0 => g.pc
  | 1 => g.mode.setWidth 64
  | 2 => BitVec.ofNat 64 g.boundary
  | 3 => BitVec.ofNat 64 g.phase
  | 4 => g.fpflags.setWidth 64
  | 5 => g.causeReg st.preq
  | 6 => g.trap.faultPc
  | 7 => g.trap.faultAddr
  | 8 => g.skidReg
  | 9 => BitVec.ofNat 64 g.stepst
  | _ => (vget g.ac idx 0).setWidth 64

/-- The value of an item. -/
def itemValue (s : State) (st : Stand) (q : Sel) : Word :=
  let g := (st.grove? q.slot).getD (default : Grove)
  match q.cls with
  | 0 => (g.lane q.idx).reg q.n
  | 1 => sGet g q.n
  | 2 => maskWord (classMask g q.n) q.idx
  | 3 => if q.n = 11 then divItem g q.idx else groveItem st g q.n q.idx
  | 4 =>
    let l := g.lane q.idx
    BitVec.ofNat 64 (l.p.toNat + 256 * l.flags.toNat + (if g.live.getLsbD q.idx then 2 ^ 16 else 0))
  | 5 => (st.floes.getD q.n Floe.empty).word
  | 6 => barrierItem (st.barriers.getD q.n Barrier.zero)
  | 7 => seqItem st.seq q.n
  | 8 => tileSlot st q.n q.idx
  | 9 => ctxItem st q.n
  | _ => BitVec.ofNat 64 (rimeVal ((s.d.core st.core).rime.getD (q.n / 4) Rime.reset) (q.n % 4))

/-! ## Writing an item -/

/-- Lanes are unparked: they rejoin the active mask at the next instruction boundary (17 R359), at once when the grove stands at
one, else with the mask that follows the instruction. -/
def Grove.unpark (g : Grove) (back : LaneMask) : Grove :=
  match g.redo with
  | some r => { g with redo := some { r with resume := r.resume ||| back } }
  | none =>
    if g.begun ∧ back ≠ 0#1024 then { g with redo := some ⟨g.active ||| back, false, false⟩ }
    else { g with active := g.active ||| back }

/-- Class 2. Lanes whose PARKED bit is cleared rejoin the active mask. -/
def pokeMask (g : Grove) (n w : Nat) (v : Word) : Grove :=
  let new := putWord (classMask g n) (g.live &&& g.allLanes) w v
  match n with
  | 8 => { g with active := new &&& ~~~g.parked }
  | 9 => { g with parked := new, active := g.active &&& ~~~new }.unpark (g.parked &&& ~~~new)
  | 10 => { g with supp := new }
  | _ => { g with k := g.k.setIfInBounds n new }

/-- Another PC ends what the grove was in the middle of. -/
def pokePc (g : Grove) (v : Word) : Grove :=
  if g.pc = v then g
  else { g with pc := v, pfx := none, held := none, prog := Prog.none, wait := .none }

/-- Class 3; none for a value that the register does not take (10 R225). -/
def pokeGrove (g : Grove) (n : Nat) (v : Word) : Option Grove :=
  match n with
  | 0 => if v.extractLsb' 0 2 = 0#2 then some (pokePc g v) else none
  | 1 => if modeOk v then some { g with mode := v.setWidth 13 } else none
  | 4 =>
    let f := v.setWidth 5
    some { g with fpflags := f, lanes := g.lanes.map (fun l => { l with flags := l.flags &&& f }) }
  | _ => if v.extractLsb' 0 2 = 0#2 then some { g with trap := { g.trap with faultPc := v } } else none

/-- A value written stands also where a fault in an operation's reads would take the sequencer back (14 R302, R319). -/
def MatOp.poke (o : MatOp) (n : Nat) (v : Word) : MatOp :=
  match n with
  | 0 | 3 => o
  | 1 => { o with undoType := fld v 3 0 }
  | 2 => { o with undoOpen := fld v 15 0 }
  | _ =>
    if n < 16 then { o with undoX := o.undoX.setIfInBounds (n - 8) v }
    else
      let k := (n - 16) / 4
      { o with undoQ := o.undoQ.setIfInBounds k ((vget o.undoQ k Record.zero).setWord ((n - 16) % 4) v) }

/-- Class 7. Another MPC ends a wait that has begun. Bits 1 and 0 of an MPC and a RUN of 3 are kept as they come (log entry 134,
DESIGN CHOICE: 14 R297 names no such value). -/
def pokeSeq (q : Seqr) (n : Nat) (v : Word) : Seqr :=
  let q := { q with ops := q.ops.map (fun (o : MatOp) => o.poke n v) }
  match n with
  | 0 => { q with mpc := v, wait := if q.mpc = v then q.wait else none }
  | 1 => { q with mtype := fld v 3 0 }
  | 2 => { q with openOps := fld v 15 0 }
  | 3 => { q with run := fld v 1 0 }
  | _ => if n < 16 then q.setX (n - 8) v else q.setRecord ((n - 16) / 4) (·.setWord ((n - 16) % 4) v)

/-- The stand with an item written; none for a value that is not taken. Registers at and above BOUNDARY keep 0, and so do
the Reserved bits of a slot (06 R142). -/
def pokeItem (st : Stand) (q : Sel) (v : Word) : Option Stand :=
  let g := (st.grove? q.slot).getD (default : Grove)
  match q.cls with
  | 0 => some (if g.boundary ≤ q.n then st
      else st.setGrove (g.mapLanes (1#1024 <<< q.idx) (fun _ l => l.setRegs q.n [v] false)))
  | 1 => some (st.setGrove (g.setS q.n v))
  | 2 => some (st.setGrove (pokeMask g q.n q.idx v))
  | 3 => (pokeGrove g q.n v).map st.setGrove
  | 4 => some (st.setGrove (g.mapLanes (1#1024 <<< q.idx) (fun _ l => { l with p := v.setWidth 8, flags := v.extractLsb' 8 5 })))
  | 7 => some { st with seq := pokeSeq st.seq q.n v }
  | _ => some { st with tiles := spSet 0 st.tiles (tileKey q.n q.idx) (v &&& 0xE0FFFFFFFFFFFFFF#64) }

/-! ## `peek` and `poke` (17 R366) -/

/-- An `ldx` reply is still to write the register named. -/
def itemPending (st : Stand) (q : Sel) : Bool :=
  q.cls == 0 && ((st.grove? q.slot).map (fun g => g.ldx.any (fun e => !e.scratch &&
    decide (opNum e.dst ≤ q.n ∧ q.n < opNum e.dst + opW e.dst) && e.lanes.any (fun l => l.lane == q.idx)))).getD false

/-- The checks of an access, then the access. -/
def itemAccess (x : Gx) (a b : Word) (write : Bool) (k : Stand → Sel → State) : State :=
  debugGate x (match debugTarget x a with
    | none => x.trapAll cBOUNDS 12 0
    | some st =>
      match itemStop (some x.st.uid) st (selOf b) write with
      | some d => x.trapAll cBOUNDS d 0
      | none => if itemPending st (selOf b) then x.hold .queue x.g else k st (selOf b))

def execPeek (d a b : BitVec 8) (s : State) : Out State Fault Refusal :=
  groveInstr (.peek d a b) s (fun x => itemAccess x (uVal x.g a) (uVal x.g b) false (fun st q =>
    x.done (x.g.setS (opNum d) (itemValue x.s st q))))

def execPoke (d a b : BitVec 8) (s : State) : Out State Fault Refusal :=
  groveInstr (.poke d a b) s (fun x => itemAccess x (uVal x.g a) (uVal x.g b) true (fun st q =>
    match pokeItem st q (uVal x.g d) with
    | none => x.trapAll cILLEGAL 7 0
    | some st' => x.fin.modStand st.uid (fun _ => st')))

/-! ## `step` (17 R367) -/

/-- The mask that follows the instruction at the grove's PC. -/
def Grove.afterMask (g : Grove) : LaneMask := match g.redo with | some r => r.resume | none => g.active

/-- A single step begins: the lane alone is active; what the grove was in the middle of is kept. -/
def beginStep (g : Grove) (lane : Nat) : Grove :=
  { g with
    single := some ⟨lane, g.active, g.redo, g.pc⟩
    singleDone := false
    stepst := 0
    kept := match g.held with
      | some i => some ⟨g.pc, g.pfx, i, g.prog, g.wait⟩
      | none => g.kept
    held := none
    pfx := none
    prog := Prog.none
    wait := .none
    skidLeft := 0
    active := 1#1024 <<< lane
    redo := some ⟨g.afterMask, false, false⟩ }

/-- What a step kept comes back when the grove is still at its PC. -/
def backFromStep (g : Grove) (pc : Word) : Grove :=
  match g.kept with
  | some k => if k.pc = pc then g.resumeKept else g
  | none => g

/-- A single step is over. One that faulted, would wait or was cut short has no effect; while SUPP is not empty, PC moves
on only with its last lane. -/
def endStep (g : Grove) (w : Single) : Grove :=
  let g1 := { g with single := none, singleDone := false }
  if g.stepst ≠ 0 ∨ !g.singleDone then
    backFromStep { g1 with active := w.active, redo := w.redo, pc := w.pc } w.pc
  else
    let supp := g.supp &&& ~~~(1#1024 <<< w.lane)
    backFromStep (if supp = 0#1024 then { g1 with supp := supp } else { g1 with supp := supp, pc := w.pc }) w.pc

/-- A step's own checks: the slot, the lane, the halt. -/
def stepStop (self : Option Nat) (st : Stand) (slot lane : Nat) : Option Nat :=
  match st.grove? slot with
  | none => some 12
  | some g =>
    if self = some st.uid ∨ !g.live.getLsbD lane ∨ (g.supp ≠ 0#1024 ∧ !g.supp.getLsbD lane) then some 13
    else if !groveHalted st g then some 11
    else none

/-- `step`: the target's turns execute the instruction; the debugging grove waits for it. -/
def stepOp (x : Gx) (a m : Word) : State :=
  debugGate x (match debugTarget x a with
    | none => if x.g.prog.phase = 1 then x.fin else x.trapAll cBOUNDS 12 0
    | some st =>
      let slot := fld m 19 16
      if x.g.prog.phase = 1 then
        (match st.grove? slot with
         | none => x.fin
         | some g =>
           match g.single with
           | none => x.fin
           | some w => if g.singleDone then x.fin.setGrove st.uid (endStep g w) else x.hold .queue x.g)
      else
        match stepStop (some x.st.uid) st slot (fld m 9 0) with
        | some d => x.trapAll cBOUNDS d 0
        | none =>
          match st.grove? slot with
          | none => x.s
          | some g =>
            if g.single.isSome then x.hold .queue x.g
            else (x.hold .queue { x.g with prog := { x.g.prog with phase := 1 } }).setGrove st.uid
              (beginStep g (fld m 9 0)))

def execStepLane (t m : BitVec 5) (s : State) : Out State Fault Refusal :=
  groveInstr (.stepLane t m) s (fun x => stepOp x (sGet x.g t.toNat) (sGet x.g m.toNat))

/-- A grove leaves its debug halt; one with SUPP executes its instruction again for those lanes, unwatched, and SUPP is
cleared after that (17 R360). -/
def resumeGrove (g : Grove) : Grove :=
  let g := match g.single with
    | some w => endStep g w
    | none => g
  let g := { g with dbgHalt := false }
  if g.supp = 0#1024 then g
  else { g with redo := some ⟨g.afterMask, true, true⟩, active := g.supp }

/-- Every debug halt of a stand ends; a halt for a trap not yet ended stays, else the copy context goes on as after any halt
(15 R337). No grove that goes on counts what it executes as skid (16 R345). -/
def runStand (st : Stand) : Stand :=
  let trapping := st.holdsTrap
  { st with
    dbgHalt := false
    halt := if trapping then st.halt else none
    copy := if trapping then st.copy else st.copy.goOn
    groves := st.groves.map (fun g =>
      let g := resumeGrove g
      { g with skidLeft := if trapping && !g.trap.hnd then g.skidLeft else 0 }) }

/-- The target is halted, or one of its groves is. -/
def anyHalt (st : Stand) : Bool := standHalted st || st.groves.any (fun g => g.dbgHalt)

def stepRunOp (x : Gx) (a : Word) : State :=
  debugGate x (match debugTarget x a with
    | none => x.trapAll cBOUNDS 12 0
    | some st =>
      if st.uid = x.st.uid then x.trapAll cBOUNDS 13 0
      else if !anyHalt st then x.trapAll cBOUNDS 11 0
      else x.fin.modStand st.uid runStand)

def execStepRun (t m : BitVec 5) (s : State) : Out State Fault Refusal :=
  groveInstr (.stepRun t m) s (fun x => stepRunOp x (sGet x.g t.toNat))

/-- `step.halt`: a stand halt with OKIND 3 and ORIGIN 0, and its records (17 R370); it names no instruction, so they carry the
PC of slot 0 (log entry 107, DESIGN CHOICE: 17 R370 says only `the instruction concerned`). -/
def haltTarget (s : State) (st : Stand) : State :=
  if st.dbgHalt then s
  else haltRecords (s.modStand st.uid (fun st => { haltStand st 0 3 0 with dbgHalt := true })) st.uid 0 0x10 true
    (((st.grove? 0).map (·.pc)).getD 0)

def stepHaltOp (x : Gx) (a : Word) : State :=
  debugGate x (match debugTarget x a with
    | none => x.trapAll cBOUNDS 12 0
    | some st =>
      if st.uid = x.st.uid then x.trapAll cBOUNDS 13 0
      else if swapping x.s st.core then x.hold .queue x.g
      else haltTarget x.fin st)

def execStepHalt (t m : BitVec 5) (s : State) : Out State Fault Refusal :=
  groveInstr (.stepHalt t m) s (fun x => stepHaltOp x (sGet x.g t.toNat))

/-! ## `rimew` and `samp` (17 R368, R371) -/

def rimewOp (x : Gx) (r n : Nat) (v a : Word) : State :=
  debugGate x (match debugTarget x a with
    | none => x.trapAll cBOUNDS 12 0
    | some st => if st.uid = x.st.uid then x.trapAll cBOUNDS 13 0 else rimeWrite x.fin st.core n r v)

def execRimew (r : BitVec 2) (n : BitVec 4) (a b : BitVec 8) (s : State) : Out State Fault Refusal :=
  groveInstr (.rimew r n a b) s (fun x => rimewOp x r.toNat n.toNat (uVal x.g a) (uVal x.g b))

def execSamp (k : BitVec 5) (s : State) : Out State Fault Refusal :=
  groveInstr (.samp k) s (fun x => x.fin.modStand x.st.uid (fun st => { st with sampK := k.toNat }))

end Sys2Proof.Machine
end

