-- ==== Sys2Proof/Machine/Preempt.lean ====
section
/-! DEFINITION. Trap entry as an event (16 R342), pre-emption, the save and the restore of a stand (16 R346 to R353), and
drift (08 R192 to R194; 03 R82; 04 R98). -/

namespace Sys2Proof.Machine

/-! ## Trap entry of an engine trap (16 R342, R344) -/

/-- A grove with an engine trap pending takes it at a boundary, or inside a wait that is not for its own data. -/
def execTrapEntry (uid slot : Nat) (s : State) : Out State Fault Refusal :=
  .next (match s.stand? uid with
    | none => s
    | some st =>
      match st.grove? slot with
      | none => s
      | some g =>
        match g.single, g.pend with
        | none, some p =>
          if runnable s st g && (g.held.isNone || !g.wait.own) then engineTrap s st g p else s
        | _, _ => s)

/-! ## Deadline and save (16 R348 to R351) -/

/-- The count has reached DEADLINE, or a write asked for the save at once: a forced save starts. -/
def execPreemptDeadline (uid : Nat) (s : State) : Out State Fault Refusal :=
  .next (s.modStand uid (fun st =>
    if st.preq && !st.dbgHalt && !swapping s st.core && (st.preqForce || decide (st.shape.deadline ≤ st.preqCount)) then
      { st with saving := true }
    else st))

/-- The grove is at an instruction boundary, or inside a wait at which it may stop (16 R344, R349). -/
def Grove.atRest (g : Grove) : Bool := g.held.isNone || !g.wait.own

/-- Everything the save or the swap of a stand waits for: its groves stopped, with no instruction on a port, no `ldx` reply outstanding, its stores and
atomics performed, its copies at a chunk boundary (05 R128; 04 R98; 16 R349). -/
def standDrained (s : State) (st : Stand) : Bool :=
  st.groves.all (fun g => g.atRest && !onPort s st g && g.single.isNone && g.ldx.isEmpty && g.outStores == 0 && g.outWbs == 0) &&
    st.copy.queue.all (fun c => !c.landing) && standQuiet s st.uid

/-- The save area has room for one more record (16 R350). -/
def saveRoom (s : State) (st : Stand) : Bool :=
  decide (((s.d.saved.filter (fun x => x.part == st.part)).map recordBytes).sum + recordBytes st ≤
    (s.d.part st.part).saveLen * 2097152)

/-- A grove as its record holds it: no taint, and nothing at and above BOUNDARY (16 R351, R352). Its age stays (log entry 108,
DEDUCED from 09 R211: only the start of an instruction resets it). -/
def Grove.record (g : Grove) : Grove :=
  { g with
    skidLeft := 0
    lanes := g.lanes.map (fun x => { x with
      taint := 0
      v := x.v.mapIdx (fun i w => if i < g.boundary then w else 0) }) }

/-- SAVE: the record is written, the count with it (16 R348, R351), or refused for want of room. -/
def execSaveStand (uid : Nat) (s : State) : Out State Fault Refusal :=
  .next (match s.stand? uid with
    | none => s
    | some st =>
      if !st.saving || st.dbgHalt || swapping s st.core || !standDrained s st || !st.seq.ops.isEmpty then s
      else if saveRoom s st then
        let st' : Stand := { st with
          preq := false
          preqForce := false
          saving := false
          groves := st.groves.map Grove.record }
        (releaseStand s st).modD (fun d => { d with saved := d.saved ++ [st'] })
      else s.modStand uid (fun st => { st with saving := false, preqCount := 0, preqForce := false }))

/-! ## Restore (16 R352) -/

/-- RESTORE: a saved stand of the candidate whose turn it is takes its place on the core of its logical number. -/
def execRestoreStand (uid : Nat) (s : State) : Out State Fault Refusal :=
  .next (match s.d.saved.find? (fun st => st.uid == uid) with
    | none => s
    | some st =>
      match restoreCore? s st with
      | none => s
      | some (c, core) =>
        if (nextCandidate s).all (fun k => k.id != c.id) then s else
        let st' : Stand := { st with
          core := core
          sslot := freeSlot s core
          order := s.nextId
          scratchBase := (scratchBase? s core st.shape.scratchBytes (standsOn s core)).getD 0 }
        let s := s.modD (fun d => { d with saved := d.saved.filter (fun x => x.uid ≠ uid) })
        acquireAt { s with nextId := s.nextId + 1, stands := s.stands ++ [st'] } core 6)

/-! ## The global dispatcher's pre-emption requests (16 R346) -/

/-- Inserts a stand into a list, most recently placed first. -/
def insertRecent (st : Stand) : List Stand → List Stand
  | [] => [st]
  | y :: rest => if y.order ≤ st.order then st :: y :: rest else y :: insertRecent st rest

/-- A core's stands of strictly lower PRIO, lowest first, and most recently placed first among equals. -/
def lowerStands (s : State) (core prio : Nat) : List Stand :=
  (List.range prio).flatMap (fun p => ((standsOn s core).filter (fun st => st.shape.prio == p)).foldr insertRecent [])

/-- The stands to request on a core so that it admits a shape once they are saved: none when it never would. -/
def requestOn (s : State) (core : Nat) (sh : Shape) : Option (List Nat) :=
  let low := (lowerStands s core sh.prio).map (·.uid)
  ((List.range (low.length + 1)).find? (fun n =>
    admits s core sh ((standsOn s core).filter (fun st => !(low.take n).contains st.uid)))).map (low.take ·)

/-- The qualifying core with the fewest stands to request, the lowest among equals. -/
def chooseRequest (s : State) (part : Nat) (sh : Shape) : Option (List Nat) :=
  (coresOf s part).foldl (fun best core =>
    match requestOn s core sh, best with
    | some r, some b => if r.length < b.length then some r else some b
    | some r, none => some r
    | none, b => b) none

/-- DISPATCHER_PREEMPT: a clearing skipped for room for 65,536 clk requests the stands of one core. -/
def execDispatcherPreempt (part clnum : Nat) (s : State) : Out State Fault Refusal :=
  .next (match clearing? s part clnum with
    | none => s
    | some c =>
      if c.skipped ≤ 65536 then s
      else
        let s := setClearing s { c with skipped := 1 }
        match chooseRequest s part c.shape with
        | none => s
        | some ids => { s with stands := s.stands.map (fun st => if ids.contains st.uid then { st with preq := true } else st) })

/-! ## Drift (08 R192 to R194; 17 R362) -/

/-- 2^INTV, a value outside 16 to 30 acting as 21 (08 R192). -/
def Cluster.interval (c : Cluster) : Nat := 2 ^ (if 16 ≤ c.intv ∧ c.intv ≤ 30 then c.intv else 21)

/-- A core that may be swapped (08 R193; 17 R362). -/
def driftEligible (s : State) (core : Nat) : Bool :=
  decide (partOfCore s core < 20) && (s.d.core core).conv.isNone && !(s.d.core core).retired &&
    !(s.d.core core).quarantined && !inRetirement s core &&
    (s.d.core core).rime.all (fun r => !(r.en && r.act != 0)) &&
    (standsOn s core).all (fun st => st.shape.drift && st.halt.isNone && !st.dbgHalt && !st.saving)

/-- The scratch bases of a set of stands packed from 0 (03 R82). -/
def packScratch : Nat → List Stand → List Stand
  | _, [] => []
  | base, st :: rest => { st with scratchBase := base } :: packScratch (base + st.scratchSize) rest

/-- A core, emptied, can hold a set of stands by 08 R177 and 03 R58. -/
def holdsAll (s : State) (core : Nat) (sts : List Stand) : Bool :=
  let f := freeOf []
  decide (sts.length ≤ 8 ∧ (sts.map (fun st => st.shape.groves * st.shape.lanes)).sum ≤ f.1 ∧
    (sts.map (fun st => st.shape.groves)).sum ≤ f.2.1 ∧ (sts.map (fun st => st.shape.pool_)).sum ≤ f.2.2.1 ∧
    (sts.map (fun st => st.shape.floes.length)).sum ≤ f.2.2.2 ∧
    (sts.map (fun st => st.scratchSize)).sum ≤ scratchTop s core)

/-- The hottest and the coolest eligible core, the lowest among equals. -/
def extremes (temps : List Nat) (base : Nat) (cores : List Nat) : Option (Nat × Nat) :=
  let temp (c : Nat) : Nat := temps.getD (c - base) 0
  match cores with
  | [] => none
  | c :: cs => some (cs.foldl (fun h x => if temp h < temp x then x else h) c,
      cs.foldl (fun l x => if temp x < temp l then x else l) c)

/-- DRIFT_INTERVAL: an interval of the cluster ends; `temps` are its cores' temperatures in units of 0.5 °C (log entry
13). -/
def execDriftInterval (cluster : Nat) (temps : List Nat) (s : State) : Out State Fault Refusal :=
  let c := s.d.clusters.getD cluster (Cluster.reset cluster)
  let setC (s : State) (f : Cluster → Cluster) : State := s.modD (fun d => { d with clusters := d.clusters.modify cluster f })
  .next (if s.d.clkCount < c.last + c.interval then s
    else
      let s := setC s (fun k => { k with last := s.d.clkCount })
      if !c.en || c.pair.isSome then s
      else
        match extremes temps (12 * cluster) (((List.range 12).map (12 * cluster + ·)).filter (driftEligible s)) with
        | none => s
        | some (a, b) =>
          if a ≠ b ∧ partOfCore s a = partOfCore s b ∧
              temps.getD (b - 12 * cluster) 0 + c.delta ≤ temps.getD (a - 12 * cluster) 0 ∧
              holdsAll s a (standsOn s b) ∧ holdsAll s b (standsOn s a) then
            setC s (fun k => { k with pair := some (a, b) })
          else s)

/-- A multicast chunk is landing on a core (08 R194). -/
def landingOn (s : State) (core : Nat) : Bool :=
  (s.stands ++ s.d.saved).any (fun st => st.copy.queue.any (fun c => c.landing && c.recvs.any (fun r => r.pending &&
    (standsOn s core).any (fun y => y.uid == r.uid))))

/-- Everything a swap waits for on one of its cores (08 R193; 04 R98). -/
def coreDrained (s : State) (core : Nat) : Bool :=
  (standsOn s core).all (fun st => standDrained s st && st.seq.ops.all (fun o => !o.started)) &&
    (s.d.core core).mxOp.isNone && (s.d.core core).mxNext.isNone && (s.d.core core).conv.isNone && !landingOn s core

/-- The stands of two cores, each moved to the other. -/
def swapStands (s : State) (a b : Nat) : List Stand :=
  let toB := packScratch 0 ((standsOn s a).map (fun st => { st with core := b }))
  let toA := packScratch 0 ((standsOn s b).map (fun st => { st with core := a }))
  s.stands.map (fun st => ((toA ++ toB).find? (fun y => y.uid == st.uid)).getD st)

/-- What the groves of either core have acquired holds on the core that they go on at (05 R114). -/
def shareFences (s : State) (a b : Nat) : State :=
  let f := max (s.d.core a).visFence (s.d.core b).visFence
  let h := max (s.d.core a).hostFence (s.d.core b).hostFence
  [a, b].foldl (fun s c => s.modCore c (fun k => { k with visFence := f, hostFence := h })) s

/-- DRIFT_SWAP: the resident sets and the map entries are exchanged in one step; the cores' read copies are dropped. -/
def execDriftSwap (cluster : Nat) (s : State) : Out State Fault Refusal :=
  let setC (s : State) (f : Cluster → Cluster) : State := s.modD (fun d => { d with clusters := d.clusters.modify cluster f })
  .next (match (s.d.clusters.getD cluster (Cluster.reset cluster)).pair with
    | none => s
    | some (a, b) =>
      if coreDrained s a && coreDrained s b then
        let s := exchangeMap { s with stands := swapStands s a b } a b
        let s := setC s (fun k => { k with pair := none, swaps := min 0xFFFF (k.swaps + 1) })
        shareFences (acquireAt (acquireAt s a 2) b 2) a b
      else s)

end Sys2Proof.Machine
end

