-- ==== Sys2Proof/Machine/Clock.lean ====
section
/-! DEFINITION. Issue: what a free port takes (09 R211). One arithmetic clk: occupancy counters, ages and ports, bin timers,
pre-emption counts, TIME, and host launches in progress (09 R200, R207, R211 to R214; 16 R346, R348; 17 R372). -/

namespace Sys2Proof.Machine

/-! ## Issue (09 R211) -/

/-- Level of a grove; 8 is urgent. -/
def levelOf (st : Stand) (g : Grove) : Nat := if g.age < 768 then min 7 (st.shape.prio + g.age / 256) else 8

/-- The first of two candidates by level, age, stand slot and grove slot. -/
def betterOf (a b : Stand × Grove) : Stand × Grove :=
  let ka := (levelOf a.1 a.2, a.2.age)
  let kb := (levelOf b.1 b.2, b.2.age)
  if kb.1 < ka.1 ∨ (kb.1 = ka.1 ∧ kb.2 < ka.2) then a
  else if ka.1 < kb.1 ∨ (ka.1 = kb.1 ∧ ka.2 < kb.2) then b
  else if a.1.sslot < b.1.sslot ∨ (a.1.sslot = b.1.sslot ∧ a.2.slot ≤ b.2.slot) then a else b

/-- The lowest free port of a core and the grove that it takes. -/
def pickGrove (s : State) (core : Nat) : Option (Nat × Stand × Grove) :=
  match (List.range 4).find? (fun p => (s.d.core core).ports.getD p 0 == 0) with
  | none => none
  | some port =>
    match (standsOn s core).flatMap (fun st => (st.groves.filter (readyGrove s st)).map (fun g => (st, g))) with
    | [] => none
    | c :: cs => some (port, cs.foldl betterOf c)

/-- A free port has a ready grove to take, so the clk is not over (09 R211, R212; log entry 115). -/
def portsChoose (s : State) : Bool := s.stands.any (fun st => (pickGrove s st.core).isSome)

/-! ## The occupancy table (09 R213, R214) -/

/-- The older of two groves: the greatest age, the lowest grove slot of the lowest stand slot among equals. -/
def olderOf (a b : Stand × Grove) : Stand × Grove :=
  if b.2.age < a.2.age then a
  else if a.2.age < b.2.age then b
  else if a.1.sslot < b.1.sslot ∨ (a.1.sslot = b.1.sslot ∧ a.2.slot ≤ b.2.slot) then a else b

/-- Phase number of the oldest of some groves, 0 when there is none. -/
def oldestPhase (gs : List (Stand × Grove)) : Nat :=
  match gs with
  | [] => 0
  | g :: rest => (rest.foldl olderOf g).2.phase

/-- The phase of the grove on the lowest port that started or continued a pass in this clk. -/
def busyPhase (s : State) (core : Nat) : Option Nat :=
  ((s.d.core core).ports.zip (s.d.core core).portGroves).findSome? (fun p =>
    match p.2 with
    | some u => if p.1 ≠ 0 ∧ u.pass then some u.phase else none
    | none => none)

/-- The wait counts as memory-stalled (09 R213; 15 R320, R331): for load data, an arrival counter, a timeline, a floe, a copy
entry or a bank; tokens and budgets of the accesses are among them. -/
def Wait.onMemory (w : Wait) : Bool :=
  match w with
  | .data | .score | .memory | .copy => true
  | .none | .barrier | .deposit | .queue | .walk | .inside => false

/-- Class and phase of the counter a core adds to. -/
def occClass (s : State) (core : Nat) : Nat × Nat :=
  let gs := (standsOn s core).flatMap (fun st => st.groves.map (fun g => (st, g)))
  let mem := gs.filter (fun p => p.2.wait.onMemory)
  let bar := gs.filter (fun p => p.2.wait == .barrier || p.2.wait == .deposit)
  match busyPhase s core with
  | some ph => (0, ph)
  | none => if !mem.isEmpty then (1, oldestPhase mem) else if !bar.isEmpty then (2, oldestPhase bar) else (3, oldestPhase gs)

/-- A core's clk: one counter, unless its partition freezes them, and its ports (09 R211). From the next clk on, an instruction
still on a port counts under the phase that its grove then has (11 R245; log entry 126). -/
def coreTick (s : State) (core : Nat) (c : Core) : Core :=
  let o := occClass s core
  let i := 4 * o.2 + o.1
  let ports := c.ports.map (· - 1)
  { c with
    occ := if (s.d.part (partOfCore s core)).occFreeze then c.occ else spSet 0 c.occ i ((spGet 0 c.occ i + 1) % 2 ^ 64)
    ports := ports
    portGroves := c.portGroves.mapIdx (fun p w => if ports.getD p 0 = 0 then none else w.map (fun u =>
      { u with phase := (((s.stand? u.who.uid).bind (fun st => st.grove? u.who.slot)).map (·.phase)).getD u.phase })) }

/-! ## Stands (09 R207, R211; 16 R348) -/

/-- A stand's clk: ages of ready groves, timers of bins that are filling, the bins that are full, and the pre-emption count,
which a debugger's halt alone holds up. -/
def standTick (s : State) (st : Stand) : Stand :=
  fullBins { st with
    groves := st.groves.map (fun g => if readyGrove s st g then { g with age := g.age + 1 } else g)
    bins := if st.halt.isSome || st.dbgHalt || draining s st then st.bins
      else st.bins.map (fun b => if b.key.isSome ∧ b.launching.isNone then { b with timer := b.timer - 1 } else b)
    preqCount := if st.preq && !st.dbgHalt then st.preqCount + 1 else st.preqCount }

/-- What one clk changes in the stands and in the device. -/
def clkOf (s : State) (ns : Nat) : State :=
  let s' : State := { s with stands := s.stands.map (standTick s) }
  s'.modD (fun d => { d with
    time := d.time.map (fun t => (t + ns) % 2 ^ 64)
    clkCount := d.clkCount + 1
    tbDue := d.tbDue || (d.clkCount + 1) % 1024 == 0
    bwDue := d.bwDue || (d.clkCount + 1) % 1024 == 0
    cores := d.cores.mapIdx (fun n c => coreTick s n c)
    clearings := d.clearings.map (fun c => if c.skipped = 0 then c else { c with skipped := c.skipped + 1 }) })

/-- What falls due in a clk and has not been done: the choice of a free port (09 R211), a change of a bin (R208), the refill of
the port buckets (03 R76) and the reset of BWTOK (08 R184). -/
def clkOpen (s : State) : Bool :=
  portsChoose s || s.d.tbDue || s.d.bwDue || s.stands.any (binsBusy s)

/-- CLK: one clk of every core ends, in which TIME advances by `ns` (17 R372; log entry 12); it ends only when all that falls
due in it is done. Stands that only waited for their stores to be performed end at it (log entry 92), and the device's own writes
whose lines have become ready are performed. -/
def execClkTick (ns : Nat) (s : State) : Out State Fault Refusal :=
  .next (if clkOpen s then s
    else
      let s := endQuiet s
      (List.range 20).foldl hostLaunchNow (clkOf (flushWrites s.m.devWrites.length s) ns))

end Sys2Proof.Machine
end

