-- ==== Sys2Proof/Machine/Integer.lean ====
section
/-! DEFINITION. Integer, compare, predicate, mask, immediate, address and uniform-scalar instructions (11 R236 to
R243). -/

namespace Sys2Proof.Machine

/-! ## Element functions (11 R237); x, y, z are element bits, w the element width -/

/-- The sum modulo 2^w. -/
def elAdd (t x y : Nat) : Nat := (x + y) % 2 ^ typeBits t
def elSub (t x y : Nat) : Nat := (x + 2 ^ typeBits t - y) % 2 ^ typeBits t
def elMul (t x y : Nat) : Nat := x * y % 2 ^ typeBits t
/-- Bits 2w−1 to w of the exact product, signed for i types. -/
def elMulh (t x y : Nat) : Nat := wrap (typeBits t) (intVal t x * intVal t y / (2 ^ typeBits t : Nat))
def elMad (t x y z : Nat) : Nat := (x * y + z) % 2 ^ typeBits t
def elShl (t x y : Nat) : Nat := if typeBits t ≤ y then 0 else x * 2 ^ y % 2 ^ typeBits t
def elShr (t x y : Nat) : Nat := if typeBits t ≤ y then 0 else x / 2 ^ y
/-- The shifted value of x read signed, for n types too. -/
def elSra (t x y : Nat) : Nat :=
  let w := typeBits t
  wrap w (sextNat w x / (2 ^ (if w ≤ y then w else y) : Nat))
def elFshl (t x y z : Nat) : Nat :=
  let w := typeBits t
  let c := y % w
  if c = 0 then z else (z * 2 ^ c + x / 2 ^ (w - c)) % 2 ^ w
def elFshr (t x y z : Nat) : Nat :=
  let w := typeBits t
  let c := y % w
  if c = 0 then z else (z / 2 ^ c + x * 2 ^ (w - c)) % 2 ^ w
def elNot (t x : Nat) : Nat := 2 ^ typeBits t - 1 - x
def elPopc (t x : Nat) : Nat := ((List.range (typeBits t)).filter (fun k => x.testBit k)).length
def elClz (t x : Nat) : Nat := typeBits t - bitLen x
def elCtz (t x : Nat) : Nat := ((List.range (typeBits t)).find? (fun k => x.testBit k)).getD (typeBits t)
def elBrev (t x : Nat) : Nat :=
  (List.range (typeBits t)).foldl (fun a k => if x.testBit (typeBits t - 1 - k) then a + 2 ^ k else a) 0
def elBfx (t x y : Nat) : Nat :=
  let w := typeBits t
  let pos := y % 256
  let len := y / 256 % 256
  if w ≤ pos ∨ len = 0 then 0
  else
    let l := min len (w - pos)
    let f := x / 2 ^ pos % 2 ^ l
    if typeSigned t then wrap w (sextNat l f) else f
def elBfi (t x y z : Nat) : Nat :=
  let w := typeBits t
  let pos := y % 256
  let len := y / 256 % 256
  if w ≤ pos ∨ len = 0 then z
  else
    let l := min len (w - pos)
    z % 2 ^ pos + (x % 2 ^ l) * 2 ^ pos + z / 2 ^ (pos + l) * 2 ^ (pos + l)
def elMin (t x y : Nat) : Nat := if intVal t y < intVal t x then y else x
def elMax (t x y : Nat) : Nat := if intVal t x < intVal t y then y else x
def elAbs (t x : Nat) : Nat := wrap (typeBits t) (intVal t x).natAbs
def elNeg (t x : Nat) : Nat := (2 ^ typeBits t - x) % 2 ^ typeBits t

/-! ## The general forms -/

/-- The group of lane `l` that an element-wise form leaves in d (11 R237): every source is read before d is written. -/
def intResult (g : Grove) (d a b : BitVec 8) (f : Nat → Nat → Nat → Nat → Nat) (l : Nat) : List Word :=
  let t := g.type
  let w := opW d
  let xs := elems t (srcRegs g a t w l)
  let ys := elems t (srcRegs g b t w l)
  let zs := elems t (if opNum d < 56 then srcRegs g d t w l else List.replicate w 0)
  packElems t w ((xs.zip (ys.zip zs)).map (fun e => f t e.1 e.2.1 e.2.2))

/-- Taint of the destination: that of the vector sources read (05 R121). -/
def intTaint (g : Grove) (d a b : BitVec 8) (useB useD : Bool) (l : Nat) : Bool :=
  srcTaint g a (opW d) l || (useB && srcTaint g b (opW d) l) || (useD && srcTaint g d (opW d) l)

/-- Three-operand element-wise form (11 R237). `useD` when d is also a source. -/
def intOp (x : Gx) (d a b : BitVec 8) (useB useD : Bool) (f : Nat → Nat → Nat → Nat → Nat) : State :=
  x.lanes (fun l ln => ln.setRegs (opNum d) (intResult x.g d a b f l) (intTaint x.g d a b useB useD l))

def execAdd (d a b : BitVec 8) (s : State) : Out State Fault Refusal :=
  groveInstr (.add d a b) s (fun x => intOp x d a b true false (fun t p q _ => elAdd t p q))
def execSub (d a b : BitVec 8) (s : State) : Out State Fault Refusal :=
  groveInstr (.sub d a b) s (fun x => intOp x d a b true false (fun t p q _ => elSub t p q))
def execMul (d a b : BitVec 8) (s : State) : Out State Fault Refusal :=
  groveInstr (.mul d a b) s (fun x => intOp x d a b true false (fun t p q _ => elMul t p q))
def execMulh (d a b : BitVec 8) (s : State) : Out State Fault Refusal :=
  groveInstr (.mulh d a b) s (fun x => intOp x d a b true false (fun t p q _ => elMulh t p q))
def execMad (d a b : BitVec 8) (s : State) : Out State Fault Refusal :=
  groveInstr (.mad d a b) s (fun x => intOp x d a b true true elMad)
def execShl (d a b : BitVec 8) (s : State) : Out State Fault Refusal :=
  groveInstr (.shl d a b) s (fun x => intOp x d a b true false (fun t p q _ => elShl t p q))
def execShr (d a b : BitVec 8) (s : State) : Out State Fault Refusal :=
  groveInstr (.shr d a b) s (fun x => intOp x d a b true false (fun t p q _ => elShr t p q))
def execSra (d a b : BitVec 8) (s : State) : Out State Fault Refusal :=
  groveInstr (.sra d a b) s (fun x => intOp x d a b true false (fun t p q _ => elSra t p q))
def execFshl (d a b : BitVec 8) (s : State) : Out State Fault Refusal :=
  groveInstr (.fshl d a b) s (fun x => intOp x d a b true true elFshl)
def execFshr (d a b : BitVec 8) (s : State) : Out State Fault Refusal :=
  groveInstr (.fshr d a b) s (fun x => intOp x d a b true true elFshr)
def execAndV (d a b : BitVec 8) (s : State) : Out State Fault Refusal :=
  groveInstr (.andV d a b) s (fun x => intOp x d a b true false (fun _ p q _ => p &&& q))
def execOrV (d a b : BitVec 8) (s : State) : Out State Fault Refusal :=
  groveInstr (.orV d a b) s (fun x => intOp x d a b true false (fun _ p q _ => p ||| q))
def execXorV (d a b : BitVec 8) (s : State) : Out State Fault Refusal :=
  groveInstr (.xorV d a b) s (fun x => intOp x d a b true false (fun _ p q _ => p ^^^ q))
def execAndn (d a b : BitVec 8) (s : State) : Out State Fault Refusal :=
  groveInstr (.andn d a b) s (fun x => intOp x d a b true false (fun t p q _ => p &&& elNot t q))
def execNotV (d a : BitVec 8) (s : State) : Out State Fault Refusal :=
  groveInstr (.notV d a) s (fun x => intOp x d a 56 false false (fun t p _ _ => elNot t p))
def execPopc (d a : BitVec 8) (s : State) : Out State Fault Refusal :=
  groveInstr (.popc d a) s (fun x => intOp x d a 56 false false (fun t p _ _ => elPopc t p))
def execClz (d a : BitVec 8) (s : State) : Out State Fault Refusal :=
  groveInstr (.clz d a) s (fun x => intOp x d a 56 false false (fun t p _ _ => elClz t p))
def execCtz (d a : BitVec 8) (s : State) : Out State Fault Refusal :=
  groveInstr (.ctz d a) s (fun x => intOp x d a 56 false false (fun t p _ _ => elCtz t p))
def execBrev (d a : BitVec 8) (s : State) : Out State Fault Refusal :=
  groveInstr (.brev d a) s (fun x => intOp x d a 56 false false (fun t p _ _ => elBrev t p))
def execBfx (d a b : BitVec 8) (s : State) : Out State Fault Refusal :=
  groveInstr (.bfx d a b) s (fun x => intOp x d a b true false (fun t p q _ => elBfx t p q))
def execBfi (d a b : BitVec 8) (s : State) : Out State Fault Refusal :=
  groveInstr (.bfi d a b) s (fun x => intOp x d a b true true elBfi)
def execMinV (d a b : BitVec 8) (s : State) : Out State Fault Refusal :=
  groveInstr (.minV d a b) s (fun x => intOp x d a b true false (fun t p q _ => elMin t p q))
def execMaxV (d a b : BitVec 8) (s : State) : Out State Fault Refusal :=
  groveInstr (.maxV d a b) s (fun x => intOp x d a b true false (fun t p q _ => elMax t p q))
def execAbsV (d a : BitVec 8) (s : State) : Out State Fault Refusal :=
  groveInstr (.absV d a) s (fun x => intOp x d a 56 false false (fun t p _ _ => elAbs t p))
def execNegV (d a : BitVec 8) (s : State) : Out State Fault Refusal :=
  groveInstr (.negV d a) s (fun x => intOp x d a 56 false false (fun t p _ _ => elNeg t p))
def execMovV (d a : BitVec 8) (s : State) : Out State Fault Refusal :=
  groveInstr (.movV d a) s (fun x => intOp x d a 56 false false (fun _ p _ _ => p))

/-- `sel` (11 R237): a whole group by the lane's p0. -/
def execSel (d a b : BitVec 8) (s : State) : Out State Fault Refusal :=
  groveInstr (.sel d a b) s (fun x => x.lanes (fun l ln =>
    ln.setRegs (opNum d) (srcRegs x.g (if ln.p.getLsbD 0 then a else b) x.g.type (opW d) l)
      (intTaint x.g d a b true false l)))

/-! ## Compares (11 R238) and predicates (R239) -/

/-- The pairs of elements that a compare sees in a lane. -/
def cmpPairs (g : Grove) (a b : BitVec 8) (l : Nat) : List (Nat × Nat) :=
  (elems g.type (srcRegs g a g.type (opW a) l)).zip (elems g.type (srcRegs g b g.type (opW a) l))

/-- p[d] := the relation holds for every element; negated as a whole for `cmp.ne`. -/
def cmpOp (x : Gx) (d a b : BitVec 8) (ne : Bool) (rel : Int → Int → Bool) : State :=
  x.lanes (fun l ln => ln.setP (opNum d)
    ((cmpPairs x.g a b l).all (fun e => rel (intVal x.g.type e.1) (intVal x.g.type e.2)) != ne))

def execCmpEq (d a b : BitVec 8) (s : State) : Out State Fault Refusal :=
  groveInstr (.cmpEq d a b) s (fun x => cmpOp x d a b false (fun p q => p == q))
def execCmpNe (d a b : BitVec 8) (s : State) : Out State Fault Refusal :=
  groveInstr (.cmpNe d a b) s (fun x => cmpOp x d a b true (fun p q => p == q))
def execCmpLt (d a b : BitVec 8) (s : State) : Out State Fault Refusal :=
  groveInstr (.cmpLt d a b) s (fun x => cmpOp x d a b false (fun p q => decide (p < q)))
def execCmpLe (d a b : BitVec 8) (s : State) : Out State Fault Refusal :=
  groveInstr (.cmpLe d a b) s (fun x => cmpOp x d a b false (fun p q => decide (p ≤ q)))
def execCmpGt (d a b : BitVec 8) (s : State) : Out State Fault Refusal :=
  groveInstr (.cmpGt d a b) s (fun x => cmpOp x d a b false (fun p q => decide (q < p)))
def execCmpGe (d a b : BitVec 8) (s : State) : Out State Fault Refusal :=
  groveInstr (.cmpGe d a b) s (fun x => cmpOp x d a b false (fun p q => decide (q ≤ p)))

/-- p[d] := f of two predicates of the lane (11 R239). -/
def predOp (x : Gx) (d a b : BitVec 8) (f : Bool → Bool → Bool) : State :=
  x.lanes (fun _ ln => ln.setP (opNum d) (f (ln.p.getLsbD (opNum a)) (ln.p.getLsbD (opNum b))))

def execPand (d a b : BitVec 8) (s : State) : Out State Fault Refusal :=
  groveInstr (.pand d a b) s (fun x => predOp x d a b (fun p q => p && q))
def execPor (d a b : BitVec 8) (s : State) : Out State Fault Refusal :=
  groveInstr (.por d a b) s (fun x => predOp x d a b (fun p q => p || q))
def execPxor (d a b : BitVec 8) (s : State) : Out State Fault Refusal :=
  groveInstr (.pxor d a b) s (fun x => predOp x d a b (fun p q => p != q))
def execPnot (d a : BitVec 8) (s : State) : Out State Fault Refusal :=
  groveInstr (.pnot d a) s (fun x => predOp x d a a (fun p _ => !p))

/-- `kpop` (11 R240): once, whatever the mask and guard. -/
def execKpop (d a : BitVec 8) (s : State) : Out State Fault Refusal :=
  groveInstr (.kpop d a) s (fun x =>
    x.done (x.g.setS (opNum d) (BitVec.ofNat 64 (laneList x.g.lam (vget x.g.k (opNum a) 0)).length)))

/-! ## Immediates and addresses (11 R241, R242) -/

def execLi (d : BitVec 8) (i : BitVec 16) (s : State) : Out State Fault Refusal :=
  groveInstr (.li d i) s (fun x => x.lanes (fun _ ln =>
    ln.setRegs (opNum d) (List.replicate (opW d) (splat x.g.type (wrap (typeBits x.g.type) i.toInt))) false))

def execLih (d : BitVec 8) (i : BitVec 16) (s : State) : Out State Fault Refusal :=
  groveInstr (.lih d i) s (fun x => x.lanes (fun l ln =>
    ln.setRegs (opNum d) (packElems x.g.type (opW d)
      ((elems x.g.type (srcRegs x.g d x.g.type (opW d) l)).map (fun e =>
        e % 2 ^ 16 + i.toNat * 2 ^ 16 + e / 2 ^ 32 * 2 ^ 32))) false))

/-- vD := (A + B·2^k) mod 2^64 (11 R242). -/
def leaOp (x : Gx) (d a b : BitVec 8) (k : Nat) : State :=
  x.lanes (fun l ln => ln.setRegs (opNum d)
    [(srcRegs x.g a x.g.type 1 l).headD 0 + ((srcRegs x.g b x.g.type 1 l).headD 0 <<< k)]
    (intTaint x.g d a b true false l))

def execLea1 (d a b : BitVec 8) (s : State) : Out State Fault Refusal :=
  groveInstr (.lea1 d a b) s (fun x => leaOp x d a b 1)
def execLea2 (d a b : BitVec 8) (s : State) : Out State Fault Refusal :=
  groveInstr (.lea2 d a b) s (fun x => leaOp x d a b 2)
def execLea3 (d a b : BitVec 8) (s : State) : Out State Fault Refusal :=
  groveInstr (.lea3 d a b) s (fun x => leaOp x d a b 3)

/-! ## Uniform scalars (11 R243) -/

/-- sD := f A B, once for the grove. -/
def scalarOp (x : Gx) (d a b : BitVec 8) (f : Word → Word → Word) : State :=
  x.done (x.g.setS (opNum d) (f (uVal x.g a) (uVal x.g b)))

def execSadd (d a b : BitVec 8) (s : State) : Out State Fault Refusal :=
  groveInstr (.sadd d a b) s (fun x => scalarOp x d a b (fun p q => p + q))
def execSsub (d a b : BitVec 8) (s : State) : Out State Fault Refusal :=
  groveInstr (.ssub d a b) s (fun x => scalarOp x d a b (fun p q => p - q))
def execSmul (d a b : BitVec 8) (s : State) : Out State Fault Refusal :=
  groveInstr (.smul d a b) s (fun x => scalarOp x d a b (fun p q => p * q))
def execSshl (d a b : BitVec 8) (s : State) : Out State Fault Refusal :=
  groveInstr (.sshl d a b) s (fun x => scalarOp x d a b (fun p q => if 64 ≤ q.toNat then 0 else p <<< q.toNat))
def execSshr (d a b : BitVec 8) (s : State) : Out State Fault Refusal :=
  groveInstr (.sshr d a b) s (fun x => scalarOp x d a b (fun p q => if 64 ≤ q.toNat then 0 else p >>> q.toNat))
def execSsra (d a b : BitVec 8) (s : State) : Out State Fault Refusal :=
  groveInstr (.ssra d a b) s (fun x => scalarOp x d a b (fun p q => p.sshiftRight (min q.toNat 64)))
def execSand (d a b : BitVec 8) (s : State) : Out State Fault Refusal :=
  groveInstr (.sand d a b) s (fun x => scalarOp x d a b (fun p q => p &&& q))
def execSor (d a b : BitVec 8) (s : State) : Out State Fault Refusal :=
  groveInstr (.sor d a b) s (fun x => scalarOp x d a b (fun p q => p ||| q))
def execSxor (d a b : BitVec 8) (s : State) : Out State Fault Refusal :=
  groveInstr (.sxor d a b) s (fun x => scalarOp x d a b (fun p q => p ^^^ q))
def execSmov (d a : BitVec 8) (s : State) : Out State Fault Refusal :=
  groveInstr (.smov d a) s (fun x => scalarOp x d a a (fun p _ => p))

end Sys2Proof.Machine
end

