-- ==== Sys2Proof/Machine/CrossLane.lean ====
section
/-! DEFINITION. Cross-lane instructions: shuffles, votes, reductions, scans and rearrangements (12 R269 to R275). -/

namespace Sys2Proof.Machine

/-! ## Shuffles and `bcast` (12 R270) -/

/-- Element `e mod n` of lane `e / n` of source a, for a flat index inside the grove. -/
def flatElem (g : Grove) (a : BitVec 8) (w n e : Nat) : Nat :=
  (elems g.type (srcRegs g a g.type w (e / n))).getD (e % n) 0

/-- A shuffle: `src e0 j l c` gives the flat index of the source, or none where the given own element or 0 stands. -/
def shflOp (x : Gx) (d a b : BitVec 8) (own : Bool) (src : Nat → Nat → Nat → Nat → Option Nat) : State :=
  let g := x.g
  let w := opW d
  let n := w * typeCount g.type
  x.lanes (fun l ln =>
    let c := (srcWhole g b false l).toNat
    ln.setRegs (opNum d) (packElems g.type w ((List.range n).map (fun j =>
      match src (l * n + j) j n c with
      | some e => if e < g.lam * n then flatElem g a w n e
          else if own then flatElem g a w n (l * n + j) else 0
      | none => if own then flatElem g a w n (l * n + j) else 0))) false)

def execShfl (d a b : BitVec 8) (s : State) : Out State Fault Refusal :=
  groveInstr (.shfl d a b) s (fun x => shflOp x d a b false (fun _ j _ c => some (c + j)))
def execShflUp (d a b : BitVec 8) (s : State) : Out State Fault Refusal :=
  groveInstr (.shflUp d a b) s (fun x => shflOp x d a b true (fun e _ _ c => if c ≤ e then some (e - c) else none))
def execShflDn (d a b : BitVec 8) (s : State) : Out State Fault Refusal :=
  groveInstr (.shflDn d a b) s (fun x => shflOp x d a b true (fun e _ _ c => some (e + c)))
def execShflX (d a b : BitVec 8) (s : State) : Out State Fault Refusal :=
  groveInstr (.shflX d a b) s (fun x => shflOp x d a b true (fun e _ _ c => some (e ^^^ c)))
def execBcast (d a b : BitVec 8) (s : State) : Out State Fault Refusal :=
  groveInstr (.bcast d a b) s (fun x => shflOp x d a b false (fun _ j n c => some (c * n + j)))

/-! ## Votes, `ballot`, `match` (12 R271) -/

def enLanes (x : Gx) : List Nat := laneList x.g.lam x.en

def execVoteAny (d a : BitVec 8) (s : State) : Out State Fault Refusal :=
  groveInstr (.voteAny d a) s (fun x => x.lanes (fun _ ln =>
    ln.setP (opNum d) ((enLanes x).any (fun l => (x.g.lane l).p.getLsbD (opNum a)))))
def execVoteAll (d a : BitVec 8) (s : State) : Out State Fault Refusal :=
  groveInstr (.voteAll d a) s (fun x => x.lanes (fun _ ln =>
    ln.setP (opNum d) ((enLanes x).all (fun l => (x.g.lane l).p.getLsbD (opNum a)))))
def execBallot (d a : BitVec 8) (s : State) : Out State Fault Refusal :=
  groveInstr (.ballot d a) s (fun x =>
    x.done (x.g.setK (opNum d) (laneMaskOf x.g.lam (fun l => x.en.getLsbD l && (x.g.lane l).p.getLsbD (opNum a)))))
def execMatchV (d a : BitVec 8) (s : State) : Out State Fault Refusal :=
  groveInstr (.matchV d a) s (fun x =>
    let val (l : Nat) := srcRegs x.g a x.g.type (opW a) l
    x.lanes (fun l ln => ln.setRegs (opNum d)
      [BitVec.ofNat 64 (((enLanes x).find? (fun k => val k == val l)).getD l)] false))

/-! ## Reductions (12 R272) -/

/-- The fixed tree over lane numbers: `depth` levels above leaf `i`. -/
def reduceTree (leaf : Nat → Option Nat) (op : Nat → Nat → Nat × FFlags) : Nat → Nat → Option (Nat × FFlags)
  | 0, i => (leaf i).map (fun v => (v, 0))
  | k + 1, i =>
    match reduceTree leaf op k (2 * i), reduceTree leaf op k (2 * i + 1) with
    | some p, some q => let r := op p.1 q.1; some (r.1, p.2 ||| q.2 ||| r.2)
    | some p, none => some p
    | none, q => q

/-- Element `j` of a lane's a group, when the lane is enabled. -/
def leafOf (x : Gx) (a : BitVec 8) (w j : Nat) (l : Nat) : Option Nat :=
  if l < x.g.lam ∧ x.en.getLsbD l then some ((elems x.g.type (srcRegs x.g a x.g.type w l)).getD j 0) else none

/-- A reduction: `op` under the mode's type; the result and its flags in every enabled lane. Lanes at or above λ are
absent, so the tree over them adds nothing. -/
def redOp (x : Gx) (d a : BitVec 8) (op : Nat → Nat → Nat × FFlags) : State :=
  let w := opW d
  let rs := (List.range (w * typeCount x.g.type)).map (fun j => (reduceTree (leafOf x a w j) op 10 0).getD (0, 0))
  let fl := rs.foldl (fun a r => a ||| r.2) 0
  x.lanesFlags (fun _ ln => ln.setRegs (opNum d) (packElems x.g.type w (rs.map (·.1))) false) (fun _ => fl)

def execRedSum (d a : BitVec 8) (s : State) : Out State Fault Refusal :=
  groveInstr (.redSum d a) s (fun x => redOp x d a (fun p q =>
    if isFloat x.g.type then fAdd (fmtOf x.g.type) x.g.rnd p q else (elAdd x.g.type p q, 0)))
def execRedMin (d a : BitVec 8) (s : State) : Out State Fault Refusal :=
  groveInstr (.redMin d a) s (fun x => redOp x d a (fun p q =>
    if isFloat x.g.type then fMinMax (fmtOf x.g.type) false p q else (elMin x.g.type p q, 0)))
def execRedMax (d a : BitVec 8) (s : State) : Out State Fault Refusal :=
  groveInstr (.redMax d a) s (fun x => redOp x d a (fun p q =>
    if isFloat x.g.type then fMinMax (fmtOf x.g.type) true p q else (elMax x.g.type p q, 0)))
def execRedAnd (d a : BitVec 8) (s : State) : Out State Fault Refusal :=
  groveInstr (.redAnd d a) s (fun x => redOp x d a (fun p q => (p &&& q, 0)))
def execRedOr (d a : BitVec 8) (s : State) : Out State Fault Refusal :=
  groveInstr (.redOr d a) s (fun x => redOp x d a (fun p q => (p ||| q, 0)))
def execRedXor (d a : BitVec 8) (s : State) : Out State Fault Refusal :=
  groveInstr (.redXor d a) s (fun x => redOp x d a (fun p q => (p ^^^ q, 0)))

/-! ## `redmi` and `redma` (12 R273) -/

/-- Whether element `p` ranks strictly before `q`; a NaN ranks last. -/
def ranksBefore (t : Nat) (mx : Bool) (p q : Nat) : Bool :=
  if isFloat t then
    let u := (fmtOf t).decode p
    let v := (fmtOf t).decode q
    if u.isNaN then false else if v.isNaN then true else if mx then fLess v u else fLess u v
  else if mx then decide (intVal t q < intVal t p) else decide (intVal t p < intVal t q)

/-- The identity of an element that does not take part. -/
def redIdentity (t : Nat) (mx : Bool) : Nat :=
  if isFloat t then (fmtOf t).infBits mx else wrap (typeBits t) (if mx then intMin t else intMax t)

def redmOp (x : Gx) (d a : BitVec 8) (mx : Bool) : State :=
  let g := x.g
  let t := g.type
  let n := typeCount t
  let els := (List.range g.lam).flatMap (fun l =>
    if x.en.getLsbD l then elems t (srcRegs g a t 1 l) else List.replicate n (redIdentity t mx))
  let best := els.zipIdx.foldl (fun (b : Nat × Nat) e => if ranksBefore t mx e.1 b.1 then e else b) (els.headD 0, 0)
  let f := fmtOf t
  let v := if isFloat t then
      (match f.decode best.1 with | .nan n _ fr => f.nanFrom f n fr | _ => best.1) else best.1
  let fl : FFlags := if isFloat t && (enLanes x).any (fun l =>
      (elems t (srcRegs g a t 1 l)).any (fun e => (f.decode e).isSNaN)) then fNV else 0
  x.lanesFlags (fun _ ln => ln.setRegs (opNum d) [splat t v, BitVec.ofNat 64 best.2] false) (fun _ => fl)

def execRedmi (d a : BitVec 8) (s : State) : Out State Fault Refusal :=
  groveInstr (.redmi d a) s (fun x => redmOp x d a false)
def execRedma (d a : BitVec 8) (s : State) : Out State Fault Refusal :=
  groveInstr (.redma d a) s (fun x => redmOp x d a true)

/-! ## `scan.add` (12 R274) -/

/-- The prefix sums of one element position over the lanes in order, with the flags of each step. -/
def scanElems (t rnd : Nat) : Option Nat → List Nat → List (Nat × FFlags)
  | _, [] => []
  | none, v :: vs =>
    let r : Nat × FFlags := if isFloat t then
        (match (fmtOf t).decode v with
         | .nan n q fr => ((fmtOf t).nanFrom (fmtOf t) n fr, if q then 0 else fNV)
         | _ => (v, 0)) else (v, 0)
    r :: scanElems t rnd (some r.1) vs
  | some acc, v :: vs =>
    let r := if isFloat t then fAdd (fmtOf t) rnd acc v else (elAdd t acc v, (0 : FFlags))
    r :: scanElems t rnd (some r.1) vs

def execScanAdd (d a : BitVec 8) (s : State) : Out State Fault Refusal :=
  groveInstr (.scanAdd d a) s (fun x =>
    let w := opW d
    let ls := enLanes x
    let cols := (List.range (w * typeCount x.g.type)).map (fun j =>
      scanElems x.g.type x.g.rnd none (ls.map (fun l => (leafOf x a w j l).getD 0)))
    let row (l : Nat) : List (Nat × FFlags) := cols.map (fun c => c.getD (ls.idxOf l) (0, 0))
    x.lanesFlags (fun l ln => ln.setRegs (opNum d) (packElems x.g.type w ((row l).map (·.1))) false)
      (fun l => (row l).foldl (fun a r => a ||| r.2) 0))

/-! ## `perm`, `pack`, `unpack` (12 R275) -/

def execPerm (d a b : BitVec 8) (s : State) : Out State Fault Refusal :=
  groveInstr (.perm d a b) s (fun x =>
    let src (b : BitVec 8) (l : Nat) : List Nat := elems 4
      [if opNum b = 59 then special x.g 7 59 l else srcWhole x.g b false l]
    x.lanes (fun l ln => ln.setRegs (opNum d)
      [packWord 4 ((src b l).map (fun c => if 128 ≤ c then 0 else (src a l).getD (c % 8) 0))] false))

/-- The type of twice the width, same kind; i4x doubles to 8-bit (12 R275). -/
def wideType (t : Nat) : Nat := if t = 14 then 0 else t + 1

/-- A source of `pack` in elements of width 2w; special sources are expanded at that width. -/
def packSrc (g : Grove) (b : BitVec 8) (l : Nat) : List Nat :=
  let t := wideType g.type
  let n := opNum b
  elems t [if n < 56 then (g.lane l).reg n else special g t n l]

def execPack (d a b : BitVec 8) (s : State) : Out State Fault Refusal :=
  groveInstr (.pack d a b) s (fun x => x.lanes (fun l ln =>
    ln.setRegs (opNum d) [packWord x.g.type (packSrc x.g a l ++ packSrc x.g b l)] false))

def execUnpack (d a : BitVec 8) (s : State) : Out State Fault Refusal :=
  groveInstr (.unpack d a) s (fun x =>
    let t := x.g.type
    x.lanes (fun l ln => ln.setRegs (opNum d) (packElems (wideType t) 2
      ((elems t (srcRegs x.g a t 1 l)).map (fun e =>
        if t < 4 ∨ t = 14 then wrap (2 * typeBits t) (sextNat (typeBits t) e) else e))) false))

end Sys2Proof.Machine
end

