-- ==== Sys2Proof/Machine/Dispatch.lean ====
section
/-! DEFINITION. One arm per instruction and step: a direct call of its meaning. -/

namespace Sys2Proof.Machine

def exec (i : Instr) (s : State) : Host.Outcome State Fault Refusal :=
  match i with
  | .nop => Sys2Proof.Machine.execNop s
  | .pfx lit => Sys2Proof.Machine.execPfx lit s
  | .bra o => Sys2Proof.Machine.execBra o s
  | .brcAny n p o => Sys2Proof.Machine.execBrcAny n p o s
  | .brcAll n p o => Sys2Proof.Machine.execBrcAll n p o s
  | .brcNone n p o => Sys2Proof.Machine.execBrcNone n p o s
  | .brd n p o => Sys2Proof.Machine.execBrd n p o s
  | .join imm => Sys2Proof.Machine.execJoin imm s
  | .call imm => Sys2Proof.Machine.execCall imm s
  | .ret => Sys2Proof.Machine.execRet s
  | .jmpi a => Sys2Proof.Machine.execJmpi a s
  | .exitG => Sys2Proof.Machine.execExitG s
  | .yield => Sys2Proof.Machine.execYield s
  | .brk imm => Sys2Proof.Machine.execBrk imm s
  | .trap imm => Sys2Proof.Machine.execTrap imm s
  | .eret => Sys2Proof.Machine.execEret s
  | .eretReplay => Sys2Proof.Machine.execEretReplay s
  | .launch d a => Sys2Proof.Machine.execLaunch d a s
  | .phase n => Sys2Proof.Machine.execPhase n s
  | .mode g h p r t => Sys2Proof.Machine.execMode g h p r t s
  | .csrr x c => Sys2Proof.Machine.execCsrr x c s
  | .csrw x c => Sys2Proof.Machine.execCsrw x c s
  | .bound b => Sys2Proof.Machine.execBound b s
  | .add d a b => Sys2Proof.Machine.execAdd d a b s
  | .sub d a b => Sys2Proof.Machine.execSub d a b s
  | .mul d a b => Sys2Proof.Machine.execMul d a b s
  | .mulh d a b => Sys2Proof.Machine.execMulh d a b s
  | .mad d a b => Sys2Proof.Machine.execMad d a b s
  | .shl d a b => Sys2Proof.Machine.execShl d a b s
  | .shr d a b => Sys2Proof.Machine.execShr d a b s
  | .sra d a b => Sys2Proof.Machine.execSra d a b s
  | .fshl d a b => Sys2Proof.Machine.execFshl d a b s
  | .fshr d a b => Sys2Proof.Machine.execFshr d a b s
  | .andV d a b => Sys2Proof.Machine.execAndV d a b s
  | .orV d a b => Sys2Proof.Machine.execOrV d a b s
  | .xorV d a b => Sys2Proof.Machine.execXorV d a b s
  | .andn d a b => Sys2Proof.Machine.execAndn d a b s
  | .notV d a => Sys2Proof.Machine.execNotV d a s
  | .popc d a => Sys2Proof.Machine.execPopc d a s
  | .clz d a => Sys2Proof.Machine.execClz d a s
  | .ctz d a => Sys2Proof.Machine.execCtz d a s
  | .brev d a => Sys2Proof.Machine.execBrev d a s
  | .bfx d a b => Sys2Proof.Machine.execBfx d a b s
  | .bfi d a b => Sys2Proof.Machine.execBfi d a b s
  | .minV d a b => Sys2Proof.Machine.execMinV d a b s
  | .maxV d a b => Sys2Proof.Machine.execMaxV d a b s
  | .absV d a => Sys2Proof.Machine.execAbsV d a s
  | .negV d a => Sys2Proof.Machine.execNegV d a s
  | .sel d a b => Sys2Proof.Machine.execSel d a b s
  | .cmpEq d a b => Sys2Proof.Machine.execCmpEq d a b s
  | .cmpNe d a b => Sys2Proof.Machine.execCmpNe d a b s
  | .cmpLt d a b => Sys2Proof.Machine.execCmpLt d a b s
  | .cmpLe d a b => Sys2Proof.Machine.execCmpLe d a b s
  | .cmpGt d a b => Sys2Proof.Machine.execCmpGt d a b s
  | .cmpGe d a b => Sys2Proof.Machine.execCmpGe d a b s
  | .li d imm => Sys2Proof.Machine.execLi d imm s
  | .lih d imm => Sys2Proof.Machine.execLih d imm s
  | .movV d a => Sys2Proof.Machine.execMovV d a s
  | .lea1 d a b => Sys2Proof.Machine.execLea1 d a b s
  | .lea2 d a b => Sys2Proof.Machine.execLea2 d a b s
  | .lea3 d a b => Sys2Proof.Machine.execLea3 d a b s
  | .sadd d a b => Sys2Proof.Machine.execSadd d a b s
  | .ssub d a b => Sys2Proof.Machine.execSsub d a b s
  | .smul d a b => Sys2Proof.Machine.execSmul d a b s
  | .sshl d a b => Sys2Proof.Machine.execSshl d a b s
  | .sshr d a b => Sys2Proof.Machine.execSshr d a b s
  | .ssra d a b => Sys2Proof.Machine.execSsra d a b s
  | .sand d a b => Sys2Proof.Machine.execSand d a b s
  | .sor d a b => Sys2Proof.Machine.execSor d a b s
  | .sxor d a b => Sys2Proof.Machine.execSxor d a b s
  | .smov d a => Sys2Proof.Machine.execSmov d a s
  | .fadd d a b => Sys2Proof.Machine.execFadd d a b s
  | .fsub d a b => Sys2Proof.Machine.execFsub d a b s
  | .fmul d a b => Sys2Proof.Machine.execFmul d a b s
  | .fma d a b => Sys2Proof.Machine.execFma d a b s
  | .fnma d a b => Sys2Proof.Machine.execFnma d a b s
  | .fmin d a b => Sys2Proof.Machine.execFmin d a b s
  | .fmax d a b => Sys2Proof.Machine.execFmax d a b s
  | .fabs d a => Sys2Proof.Machine.execFabs d a s
  | .fneg d a => Sys2Proof.Machine.execFneg d a s
  | .fcmpEq d a b => Sys2Proof.Machine.execFcmpEq d a b s
  | .fcmpNe d a b => Sys2Proof.Machine.execFcmpNe d a b s
  | .fcmpLt d a b => Sys2Proof.Machine.execFcmpLt d a b s
  | .fcmpLe d a b => Sys2Proof.Machine.execFcmpLe d a b s
  | .fcmpGt d a b => Sys2Proof.Machine.execFcmpGt d a b s
  | .fcmpGe d a b => Sys2Proof.Machine.execFcmpGe d a b s
  | .fcmpUn d a b => Sys2Proof.Machine.execFcmpUn d a b s
  | .fclass d a => Sys2Proof.Machine.execFclass d a s
  | .fdiv d a b => Sys2Proof.Machine.execFdiv d a b s
  | .fsqrt d a => Sys2Proof.Machine.execFsqrt d a s
  | .frcp d a => Sys2Proof.Machine.execFrcp d a s
  | .frsq d a => Sys2Proof.Machine.execFrsq d a s
  | .exp2 d a => Sys2Proof.Machine.execExp2 d a s
  | .log2 d a => Sys2Proof.Machine.execLog2 d a s
  | .sinpi d a => Sys2Proof.Machine.execSinpi d a s
  | .cospi d a => Sys2Proof.Machine.execCospi d a s
  | .cvtF d a sc => Sys2Proof.Machine.execCvtF d a sc s
  | .cvtI d a sc => Sys2Proof.Machine.execCvtI d a sc s
  | .cvt8Sat d a sc => Sys2Proof.Machine.execCvt8Sat d a sc s
  | .cvt8Inf d a sc => Sys2Proof.Machine.execCvt8Inf d a sc s
  | .cvtq d a b => Sys2Proof.Machine.execCvtq d a b s
  | .cvtaSat d a b => Sys2Proof.Machine.execCvtaSat d a b s
  | .cvtaInf d a b => Sys2Proof.Machine.execCvtaInf d a b s
  | .fdot d a b => Sys2Proof.Machine.execFdot d a b s
  | .fdot8 d a b => Sys2Proof.Machine.execFdot8 d a b s
  | .shfl d a b => Sys2Proof.Machine.execShfl d a b s
  | .shflUp d a b => Sys2Proof.Machine.execShflUp d a b s
  | .shflDn d a b => Sys2Proof.Machine.execShflDn d a b s
  | .shflX d a b => Sys2Proof.Machine.execShflX d a b s
  | .bcast d a b => Sys2Proof.Machine.execBcast d a b s
  | .voteAny d a => Sys2Proof.Machine.execVoteAny d a s
  | .voteAll d a => Sys2Proof.Machine.execVoteAll d a s
  | .ballot d a => Sys2Proof.Machine.execBallot d a s
  | .matchV d a => Sys2Proof.Machine.execMatchV d a s
  | .redSum d a => Sys2Proof.Machine.execRedSum d a s
  | .redMin d a => Sys2Proof.Machine.execRedMin d a s
  | .redMax d a => Sys2Proof.Machine.execRedMax d a s
  | .redAnd d a => Sys2Proof.Machine.execRedAnd d a s
  | .redOr d a => Sys2Proof.Machine.execRedOr d a s
  | .redXor d a => Sys2Proof.Machine.execRedXor d a s
  | .redmi d a => Sys2Proof.Machine.execRedmi d a s
  | .redma d a => Sys2Proof.Machine.execRedma d a s
  | .scanAdd d a => Sys2Proof.Machine.execScanAdd d a s
  | .perm d a b => Sys2Proof.Machine.execPerm d a b s
  | .pack d a b => Sys2Proof.Machine.execPack d a b s
  | .unpack d a => Sys2Proof.Machine.execUnpack d a s
  | .pand d a b => Sys2Proof.Machine.execPand d a b s
  | .por d a b => Sys2Proof.Machine.execPor d a b s
  | .pxor d a b => Sys2Proof.Machine.execPxor d a b s
  | .pnot d a => Sys2Proof.Machine.execPnot d a s
  | .kpop d a => Sys2Proof.Machine.execKpop d a s
  | .ld d b o => Sys2Proof.Machine.execLd d b o s
  | .st d b o => Sys2Proof.Machine.execSt d b o s
  | .ldu d b o => Sys2Proof.Machine.execLdu d b o s
  | .ldx d b f z c => Sys2Proof.Machine.execLdx d b f z c s
  | .waita sc n t => Sys2Proof.Machine.execWaita sc n t s
  | .stm d a b => Sys2Proof.Machine.execStm d a b s
  | .lds d b o => Sys2Proof.Machine.execLds d b o s
  | .sts d b o => Sys2Proof.Machine.execSts d b o s
  | .ldaGrove d b o => Sys2Proof.Machine.execLdaGrove d b o s
  | .ldaStand d b o => Sys2Proof.Machine.execLdaStand d b o s
  | .ldaCluster d b o => Sys2Proof.Machine.execLdaCluster d b o s
  | .ldaDie d b o => Sys2Proof.Machine.execLdaDie d b o s
  | .ldaPartition d b o => Sys2Proof.Machine.execLdaPartition d b o s
  | .ldaDevice d b o => Sys2Proof.Machine.execLdaDevice d b o s
  | .ldaSystem d b o => Sys2Proof.Machine.execLdaSystem d b o s
  | .stlGrove d b o => Sys2Proof.Machine.execStlGrove d b o s
  | .stlStand d b o => Sys2Proof.Machine.execStlStand d b o s
  | .stlCluster d b o => Sys2Proof.Machine.execStlCluster d b o s
  | .stlDie d b o => Sys2Proof.Machine.execStlDie d b o s
  | .stlPartition d b o => Sys2Proof.Machine.execStlPartition d b o s
  | .stlDevice d b o => Sys2Proof.Machine.execStlDevice d b o s
  | .stlSystem d b o => Sys2Proof.Machine.execStlSystem d b o s
  | .ldcGrove d b o => Sys2Proof.Machine.execLdcGrove d b o s
  | .ldcStand d b o => Sys2Proof.Machine.execLdcStand d b o s
  | .ldcCluster d b o => Sys2Proof.Machine.execLdcCluster d b o s
  | .ldcDie d b o => Sys2Proof.Machine.execLdcDie d b o s
  | .ldcPartition d b o => Sys2Proof.Machine.execLdcPartition d b o s
  | .ldcDevice d b o => Sys2Proof.Machine.execLdcDevice d b o s
  | .ldcSystem d b o => Sys2Proof.Machine.execLdcSystem d b o s
  | .atomAdd d a b => Sys2Proof.Machine.execAtomAdd d a b s
  | .atomMin d a b => Sys2Proof.Machine.execAtomMin d a b s
  | .atomMax d a b => Sys2Proof.Machine.execAtomMax d a b s
  | .atomAnd d a b => Sys2Proof.Machine.execAtomAnd d a b s
  | .atomOr d a b => Sys2Proof.Machine.execAtomOr d a b s
  | .atomXor d a b => Sys2Proof.Machine.execAtomXor d a b s
  | .atomXchg d a b => Sys2Proof.Machine.execAtomXchg d a b s
  | .atomCas d a b => Sys2Proof.Machine.execAtomCas d a b s
  | .atomFadd d a b => Sys2Proof.Machine.execAtomFadd d a b s
  | .fence sc => Sys2Proof.Machine.execFence sc s
  | .invRange a b => Sys2Proof.Machine.execInvRange a b s
  | .wbRange a b => Sys2Proof.Machine.execWbRange a b s
  | .sdec d a b => Sys2Proof.Machine.execSdec d a b s
  | .senc d a b => Sys2Proof.Machine.execSenc d a b s
  | .serr d a b => Sys2Proof.Machine.execSerr d a b s
  | .sblk d a b => Sys2Proof.Machine.execSblk d a b s
  | .cpy d a b => Sys2Proof.Machine.execCpy d a b s
  | .cpym d a b => Sys2Proof.Machine.execCpym d a b s
  | .cpyx d a b => Sys2Proof.Machine.execCpyx d a b s
  | .seal => Sys2Proof.Machine.execSeal s
  | .waitb sc n => Sys2Proof.Machine.execWaitb sc n s
  | .dictLd k a => Sys2Proof.Machine.execDictLd k a s
  | .cpyRes => Sys2Proof.Machine.execCpyRes s
  | .cpyResAbandon => Sys2Proof.Machine.execCpyResAbandon s
  | .spawn d a b => Sys2Proof.Machine.execSpawn d a b s
  | .rebin d b => Sys2Proof.Machine.execRebin d b s
  | .floeDef n a b => Sys2Proof.Machine.execFloeDef n a b s
  | .floeRel n => Sys2Proof.Machine.execFloeRel n s
  | .floeSt d n => Sys2Proof.Machine.execFloeSt d n s
  | .barArr n => Sys2Proof.Machine.execBarArr n s
  | .barWait n => Sys2Proof.Machine.execBarWait n s
  | .barSync n => Sys2Proof.Machine.execBarSync n s
  | .tlwait sc t r n => Sys2Proof.Machine.execTlwait sc t r n s
  | .tlrd t d w => Sys2Proof.Machine.execTlrd t d w s
  | .peek d a b => Sys2Proof.Machine.execPeek d a b s
  | .poke d a b => Sys2Proof.Machine.execPoke d a b s
  | .stepLane x m => Sys2Proof.Machine.execStepLane x m s
  | .stepRun x m => Sys2Proof.Machine.execStepRun x m s
  | .stepHalt x m => Sys2Proof.Machine.execStepHalt x m s
  | .rimew r n a b => Sys2Proof.Machine.execRimew r n a b s
  | .samp k => Sys2Proof.Machine.execSamp k s
  | .mnop => Sys2Proof.Machine.execMnop s
  | .mend => Sys2Proof.Machine.execMend s
  | .mendGo => Sys2Proof.Machine.execMendGo s
  | .mjmp o => Sys2Proof.Machine.execMjmp o s
  | .mloop x o => Sys2Proof.Machine.execMloop x o s
  | .mbarArr n => Sys2Proof.Machine.execMbarArr n s
  | .mbarWait n => Sys2Proof.Machine.execMbarWait n s
  | .mfence => Sys2Proof.Machine.execMfence s
  | .mmode t => Sys2Proof.Machine.execMmode t s
  | .mrecLd q sc x n p => Sys2Proof.Machine.execMrecLd q sc x n p s
  | .mrecSc q sc x n p => Sys2Proof.Machine.execMrecSc q sc x n p s
  | .mzero c => Sys2Proof.Machine.execMzero c s
  | .mma c a b => Sys2Proof.Machine.execMma c a b s
  | .mmaSp c a b m => Sys2Proof.Machine.execMmaSp c a b m s
  | .xadd d a sc imm => Sys2Proof.Machine.execXadd d a sc imm s
  | .xsub d a sc imm => Sys2Proof.Machine.execXsub d a sc imm s
  | .xmul d a sc imm => Sys2Proof.Machine.execXmul d a sc imm s
  | .xshl d a sc imm => Sys2Proof.Machine.execXshl d a sc imm s
  | .xshr d a sc imm => Sys2Proof.Machine.execXshr d a sc imm s
  | .xand d a sc imm => Sys2Proof.Machine.execXand d a sc imm s
  | .xior d a sc imm => Sys2Proof.Machine.execXior d a sc imm s
  | .xxor d a sc imm => Sys2Proof.Machine.execXxor d a sc imm s
  | .xli d imm => Sys2Proof.Machine.execXli d imm s
  | .matrixOperationStart core => Sys2Proof.Machine.execMatrixOperationStart core s
  | .matrixOperationComplete core => Sys2Proof.Machine.execMatrixOperationComplete core s
  | .pin line => Sys2Proof.Machine.execPin line s
  | .regTaken core line => Sys2Proof.Machine.execRegTaken core line s
  | .grant core line => Sys2Proof.Machine.execGrant core line s
  | .fwdRead core line => Sys2Proof.Machine.execFwdRead core line s
  | .recall core line => Sys2Proof.Machine.execRecall core line s
  | .dataAnswer core line => Sys2Proof.Machine.execDataAnswer core line s
  | .wbTaken core line => Sys2Proof.Machine.execWbTaken core line s
  | .homeRead core line fails => Sys2Proof.Machine.execHomeRead core line fails s
  | .fillReply core line => Sys2Proof.Machine.execFillReply core line s
  | .atomicAtHome core line => Sys2Proof.Machine.execAtomicAtHome core line s
  | .lostRegistrant core => Sys2Proof.Machine.execLostRegistrant core s
  | .groupFillComplete base => Sys2Proof.Machine.execGroupFillComplete base s
  | .depart base => Sys2Proof.Machine.execDepart base s
  | .hostRead addr len => Sys2Proof.Machine.execHostRead addr len s
  | .hostWrite addr bytes => Sys2Proof.Machine.execHostWrite addr bytes s
  | .hostAtomicop addr size op x y => Sys2Proof.Machine.execHostAtomicop addr size op x y s
  | .hostOwnership half => Sys2Proof.Machine.execHostOwnership half s
  | .hostReadShared half => Sys2Proof.Machine.execHostReadShared half s
  | .probe core line tag => Sys2Proof.Machine.execProbe core line tag s
  | .hostInvalidate line => Sys2Proof.Machine.execHostInvalidate line s
  | .remoteRequest write addr len bytes => Sys2Proof.Machine.execRemoteRequest write addr len bytes s
  | .peerTimeout port lostWrites => Sys2Proof.Machine.execPeerTimeout port lostWrites s
  | .expanderRemoved port => Sys2Proof.Machine.execExpanderRemoved port s
  | .portRequest core line => Sys2Proof.Machine.execPortRequest core line s
  | .tokenRefill => Sys2Proof.Machine.execTokenRefill s
  | .bwtokReset => Sys2Proof.Machine.execBwtokReset s
  | .refresh stack bank => Sys2Proof.Machine.execRefresh stack bank s
  | .conversionComplete core => Sys2Proof.Machine.execConversionComplete core s
  | .ldxReply uid slot id lane send => Sys2Proof.Machine.execLdxReply uid slot id lane send s
  | .deposit uid slot => Sys2Proof.Machine.execDeposit uid slot s
  | .binTimerExpiry uid bin => Sys2Proof.Machine.execBinTimerExpiry uid bin s
  | .binLaunch uid => Sys2Proof.Machine.execBinLaunch uid s
  | .copyChunk uid id => Sys2Proof.Machine.execCopyChunk uid id s
  | .multicastLanding uid id recv => Sys2Proof.Machine.execMulticastLanding uid id recv s
  | .chunkFault uid id => Sys2Proof.Machine.execChunkFault uid id s
  | .dictTableLoaded uid id => Sys2Proof.Machine.execDictTableLoaded uid id s
  | .trapEntry uid slot => Sys2Proof.Machine.execTrapEntry uid slot s
  | .preemptDeadline uid => Sys2Proof.Machine.execPreemptDeadline uid s
  | .saveStand uid => Sys2Proof.Machine.execSaveStand uid s
  | .restoreStand uid => Sys2Proof.Machine.execRestoreStand uid s
  | .dispatcherPreempt part clnum => Sys2Proof.Machine.execDispatcherPreempt part clnum s
  | .driftInterval cluster temps => Sys2Proof.Machine.execDriftInterval cluster temps s
  | .driftSwap cluster => Sys2Proof.Machine.execDriftSwap cluster s
  | .hostLaunch agent part value => Sys2Proof.Machine.execHostLaunch agent part value s
  | .batchSend => Sys2Proof.Machine.execBatchSend s
  | .placement die => Sys2Proof.Machine.execPlacement die s
  | .batchReturn die => Sys2Proof.Machine.execBatchReturn die s
  | .freeSlotReport die => Sys2Proof.Machine.execFreeSlotReport die s
  | .tlbiAll agent part => Sys2Proof.Machine.execTlbiAll agent part s
  | .tlbiAsid agent part => Sys2Proof.Machine.execTlbiAsid agent part s
  | .tlbiPage agent part => Sys2Proof.Machine.execTlbiPage agent part s
  | .tlbiPageAllAsid agent part => Sys2Proof.Machine.execTlbiPageAllAsid agent part s
  | .tlbiComplete part => Sys2Proof.Machine.execTlbiComplete part s
  | .walkPage die => Sys2Proof.Machine.execWalkPage die s
  | .windowEnable agent n value => Sys2Proof.Machine.execWindowEnable agent n value s
  | .windowDisable agent n => Sys2Proof.Machine.execWindowDisable agent n s
  | .windowDisableDone n => Sys2Proof.Machine.execWindowDisableDone n s
  | .preemptSet agent part clnum sub => Sys2Proof.Machine.execPreemptSet agent part clnum sub s
  | .preemptClear agent part clnum sub => Sys2Proof.Machine.execPreemptClear agent part clnum sub s
  | .preemptForce agent part clnum sub => Sys2Proof.Machine.execPreemptForce agent part clnum sub s
  | .occClear agent part => Sys2Proof.Machine.execOccClear agent part s
  | .probemisRead agent part => Sys2Proof.Machine.execProbemisRead agent part s
  | .launchstRead agent part => Sys2Proof.Machine.execLaunchstRead agent part s
  | .errcntRead agent => Sys2Proof.Machine.execErrcntRead agent s
  | .xfercntRead agent => Sys2Proof.Machine.execXfercntRead agent s
  | .mdropRead agent => Sys2Proof.Machine.execMdropRead agent s
  | .traceptrWrite agent part value => Sys2Proof.Machine.execTraceptrWrite agent part value s
  | .ownerClaim ids => Sys2Proof.Machine.execOwnerClaim ids s
  | .ownerNext agent next => Sys2Proof.Machine.execOwnerNext agent next s
  | .ownerTimeout => Sys2Proof.Machine.execOwnerTimeout s
  | .partitionCreate agent part halves => Sys2Proof.Machine.execPartitionCreate agent part halves s
  | .partitionReset agent part => Sys2Proof.Machine.execPartitionReset agent part s
  | .partitionRemove agent part => Sys2Proof.Machine.execPartitionRemove agent part s
  | .partitionOpComplete part => Sys2Proof.Machine.execPartitionOpComplete part s
  | .powerUp => Sys2Proof.Machine.execPowerUp s
  | .firmwareStart value => Sys2Proof.Machine.execFirmwareStart value s
  | .firmwareVerified keyOk sigOk versionOk => Sys2Proof.Machine.execFirmwareVerified keyOk sigOk versionOk s
  | .liveUpdate value => Sys2Proof.Machine.execLiveUpdate value s
  | .recalibrate agent stack => Sys2Proof.Machine.execRecalibrate agent stack s
  | .retireCore agent core => Sys2Proof.Machine.execRetireCore agent core s
  | .retireChannel agent channel => Sys2Proof.Machine.execRetireChannel agent channel s
  | .readCounters agent => Sys2Proof.Machine.execReadCounters agent s
  | .fatalError cause => Sys2Proof.Machine.execFatalError cause s
  | .throttleEvent die kind newState => Sys2Proof.Machine.execThrottleEvent die kind newState s
  | .powerWindowEnd part => Sys2Proof.Machine.execPowerWindowEnd part s
  | .registerWrite agent addr size value => Sys2Proof.Machine.execRegisterWrite agent addr size value s
  | .hostLinkAcknowledge status => Sys2Proof.Machine.execHostLinkAcknowledge status s
  | .hostRecallData half bytes => Sys2Proof.Machine.execHostRecallData half bytes s
  | .serviceOperationComplete => Sys2Proof.Machine.execServiceOperationComplete s
  | .clkTick ns => Sys2Proof.Machine.execClkTick ns s

end Sys2Proof.Machine
end

