-- ==== Sys2Proof/Machine/Inputs.lean ====
section
/-! DEFINITION. Inputs beside the rows of the opcode table: firmware's own accesses of memory (05 R104), the host's stores to
its memory (05 R126), lines that fail their check (03 R81), firmware's key table and MAXOPEN (03 R78, R79), expanders as
they train (18 R374), measurements of SKEW (17 R372), and debug operations of the owner and of firmware (17 R363). -/

namespace Sys2Proof.Machine

/-! ## Firmware as a memory agent (05 R104) -/

/-- A byte that firmware reaches: memory, decoded or not, and the host aperture; no byte of a save area (16 R350). -/
def firmwareByte (s : State) (pa : Nat) : Bool := (outsideByte s pa || regionOf s pa == .host) && !inSaveArea s pa

/-- A load of the management core: memory with the stores performed so far, a register as firmware reads it. -/
def firmwareLoad (s : State) (a n : Nat) : State :=
  if regionOf s a == .device then
    let r := regRead s .firmware a n
    answer r.2 ⟨false, false, toBytes n r.1⟩
  else if !spanAll a n (firmwareByte s) then answer s unsupported
  else if spanReady s a n (partOfPa s a) then outsideRead s a n
  else spanAsk s a n false 40

/-- A store of the management core. Of an i4x alias it stores nothing, as the host's (18 R373; log entry 109). -/
def firmwareStore (s : State) (a : Nat) (bytes : List Byte) : State :=
  let n := bytes.length
  if !spanAll a n (firmwareByte s) then answer s unsupported
  else if spanAny a n (i4xAlias s) then answer s ⟨false, false, []⟩
  else if spanReady s a n (partOfPa s a) then outsideWrite s a bytes
  else spanAsk s a n true 40

/-! ## Reads of registers, and the staging window (02 R55; 18 R373 to R382) -/

/-- A function presents a register: a hypervisor function its partition's block and the window blocks, while the partition
exists (18 R373, R381). -/
def presents (s : State) (ag : Agent) (r : Reg) : Bool :=
  match ag with
  | .hv p => (s.d.part p).alive && (match r with
    | .window _ _ => true
    | .block q _ => q == p
    | .modid | .hostbase | .hostcap | .owner | .errcnt | .xfercnt | .mdrop | .fwstart | .fwstat | .partctl _ | .mailbox
    | .dumpbase | .pwrceil | .routehi _ | .routelo _ | .drift _ | .occ _ _ | .rimeReg _ _ _ | .skew _ | .none => false)
  | .groveOf _ => false
  | .owner => true
  | .firmware => s.d.mgmt.fwRunning
  | .master _ => true

/-- A read of a register by an agent beside the groves: a master, firmware, or a hypervisor function through its BAR 0. -/
def agentRead (s : State) (ag : Agent) (a n : Nat) : State :=
  if (n == 4 || n == 8) && a % n == 0 && presents s ag (regAt (a / 8 * 8)) then
    let r := regRead s ag a n
    answer r.2 ⟨false, false, toBytes n r.1⟩
  else answer s unsupported

/-- A word of the mailbox's data area, read by those who read the management block. -/
def mboxRead (s : State) (ag : Agent) (i : Nat) : State :=
  if mayRead s ag .mailbox then answer s ⟨false, false, toBytes 8 (spGet 0 s.d.mgmt.mboxData i)⟩ else answer s unsupported

/-- The staging window has 64 MiB (18 R377). -/
def stagingSize : Nat := 2 ^ 26

def stagingWrite (s : State) (o : Nat) (bytes : List Byte) : State :=
  if o + bytes.length ≤ stagingSize then
    answer (s.modM (fun m => { m with staging := memSetBytes m.staging o bytes })) ⟨false, false, []⟩
  else answer s unsupported

def stagingRead (s : State) (o n : Nat) : State :=
  if o + n ≤ stagingSize then answer s ⟨false, false, memBytes s.m.staging o n⟩ else answer s unsupported

/-! ## Debug operations of the owner and of firmware (17 R363 to R368) -/

/-- An operation that stops with a BOUNDS or an ILLEGAL detail, as its agent sees it (log entry 110). -/
def dbgStops (s : State) (detail : Nat) : State := answer s ⟨true, false, [BitVec.ofNat 8 detail]⟩
def dbgDone (s : State) : State := answer s ⟨false, false, []⟩

/-- `peek` and `poke` of another agent: the checks of an item, and its value once no `ldx` reply is to write it. -/
def dbgItem (s : State) (st : Stand) (q : Sel) (write : Bool) (k : State) : State :=
  match itemStop none st q write with
  | some d => dbgStops s d
  | none => if itemPending st q then s else k

/-- `step` of another agent: the step begins, and a later turn of the same operation ends it. -/
def dbgStep (s : State) (st : Stand) (slot lane : Nat) : State :=
  match st.grove? slot with
  | none => dbgStops s 12
  | some g =>
    match g.single with
    | some w => if g.singleDone ∧ w.lane = lane then dbgDone (s.setGrove st.uid (endStep g w)) else s
    | none =>
      match stepStop none st slot lane with
      | some d => dbgStops s d
      | none => s.setGrove st.uid (beginStep g lane)

/-- A debug operation on a stand of a partition, the agent of no stand. -/
def dbgOp (s : State) (part : Nat) (op : DbgOp) : State :=
  let on (a : Word) (k : Stand → State) : State :=
    match targetOf s part a with
    | none => dbgStops s 12
    | some st => k st
  match op with
  | .peek a b => on a (fun st => dbgItem s st (selOf b) false
      (answer s ⟨false, false, toBytes 8 (itemValue s st (selOf b)).toNat⟩))
  | .poke a b v => on a (fun st => dbgItem s st (selOf b) true (match pokeItem st (selOf b) v with
      | none => dbgStops s 7
      | some st' => dbgDone (s.modStand st.uid (fun _ => st'))))
  | .step a m => on a (fun st => dbgStep s st (fld m 19 16) (fld m 9 0))
  | .run a => on a (fun st => if anyHalt st then dbgDone (s.modStand st.uid runStand) else dbgStops s 11)
  | .halt a => on a (fun st => if swapping s st.core then s else dbgDone (haltTarget s st))
  | .rimew a n r v => on a (fun st => dbgDone (rimeWrite s st.core (n % 16) (r % 4) v))

/-! ## Inputs -/

/-- An input. After a fatal error, and for firmware's own while none runs, nothing happens but at the host and in a memory
line (18 R377, R383). -/
def inputOf (i : Input) (s : State) : State :=
  let fw := s.d.mgmt.fwRunning && s.d.mgmt.fatal.isNone
  match i with
  | .firmwareLoad a n => if fw then firmwareLoad s a n else s
  | .firmwareStore a bs => if fw then firmwareStore s a bs else s
  | .hostStore a bs => hostStore s a bs
  | .corrupt line => corruptLine s line
  | .granuleKey a n key => if fw && decide (key ≤ 21) then setKeys s a n key else s
  | .maxOpen n =>
    if fw && !s.d.mgmt.heldStacks.isEmpty && decide (1 ≤ n ∧ n ≤ 4) then s.modMgmt (fun m => { m with maxOpen := m.heldStacks.foldl (fun l k => l.set (k / 2) n) m.maxOpen }) else s
  | .power w => s.modMgmt (fun m => { m with power := w })
  | .regRead ag a n => if s.d.mgmt.fatal.isNone then agentRead s ag a n else s
  | .mboxRead ag i => if s.d.mgmt.fatal.isNone then mboxRead s ag i else s
  | .stagingWrite o bs => if s.d.mgmt.fatal.isNone then stagingWrite s o bs else s
  | .stagingRead o n => if s.d.mgmt.fatal.isNone then stagingRead s o n else s
  | .remoteAtomic op a n x y ty r => if s.d.mgmt.fatal.isNone then remoteAtomic s op a n x y ty r else s
  | .expander port bytes =>
    if s.d.mgmt.fwRunning || s.d.mgmt.fatal.isSome then s
    else s.modD (fun d => { d with expanders := d.expanders.set port (min bytes (2 ^ 41)) })
  | .skew pair offset =>
    if s.d.mgmt.fatal.isNone && (decide (pair < 6) || decide (8 ≤ pair ∧ pair < 24)) then
      s.modD (fun d => { d with skew := spSet 0 d.skew (8 * pair) (2 ^ 63 + offset.toNat) })
    else s
  | .debug ag part op =>
    if s.d.mgmt.fatal.isNone && (isOwner s ag || isFirmware s ag) then dbgOp s part op else s

end Sys2Proof.Machine
end

