-- ==== Sys2Proof/Machine/Run.lean ====
section
/-! DEFINITION. Turns: a grove fetches and executes (10 R215, R221 to R223), issue (09 R210, R211), the sequencer
fetches and executes (14 R298), a step of the device or another input comes about. -/

namespace Sys2Proof.Machine

/-- Whether an instruction belongs to the grove stream (0), to the matrix stream (1), or is a step of the device (2). -/
def streamOf (i : Instr) : Nat :=
  match i with
  | .nop => 0
  | .pfx _ => 0
  | .bra _ => 0
  | .brcAny _ _ _ => 0
  | .brcAll _ _ _ => 0
  | .brcNone _ _ _ => 0
  | .brd _ _ _ => 0
  | .join _ => 0
  | .call _ => 0
  | .ret => 0
  | .jmpi _ => 0
  | .exitG => 0
  | .yield => 0
  | .brk _ => 0
  | .trap _ => 0
  | .eret => 0
  | .eretReplay => 0
  | .launch _ _ => 0
  | .phase _ => 0
  | .mode _ _ _ _ _ => 0
  | .csrr _ _ => 0
  | .csrw _ _ => 0
  | .bound _ => 0
  | .add _ _ _ => 0
  | .sub _ _ _ => 0
  | .mul _ _ _ => 0
  | .mulh _ _ _ => 0
  | .mad _ _ _ => 0
  | .shl _ _ _ => 0
  | .shr _ _ _ => 0
  | .sra _ _ _ => 0
  | .fshl _ _ _ => 0
  | .fshr _ _ _ => 0
  | .andV _ _ _ => 0
  | .orV _ _ _ => 0
  | .xorV _ _ _ => 0
  | .andn _ _ _ => 0
  | .notV _ _ => 0
  | .popc _ _ => 0
  | .clz _ _ => 0
  | .ctz _ _ => 0
  | .brev _ _ => 0
  | .bfx _ _ _ => 0
  | .bfi _ _ _ => 0
  | .minV _ _ _ => 0
  | .maxV _ _ _ => 0
  | .absV _ _ => 0
  | .negV _ _ => 0
  | .sel _ _ _ => 0
  | .cmpEq _ _ _ => 0
  | .cmpNe _ _ _ => 0
  | .cmpLt _ _ _ => 0
  | .cmpLe _ _ _ => 0
  | .cmpGt _ _ _ => 0
  | .cmpGe _ _ _ => 0
  | .li _ _ => 0
  | .lih _ _ => 0
  | .movV _ _ => 0
  | .lea1 _ _ _ => 0
  | .lea2 _ _ _ => 0
  | .lea3 _ _ _ => 0
  | .sadd _ _ _ => 0
  | .ssub _ _ _ => 0
  | .smul _ _ _ => 0
  | .sshl _ _ _ => 0
  | .sshr _ _ _ => 0
  | .ssra _ _ _ => 0
  | .sand _ _ _ => 0
  | .sor _ _ _ => 0
  | .sxor _ _ _ => 0
  | .smov _ _ => 0
  | .fadd _ _ _ => 0
  | .fsub _ _ _ => 0
  | .fmul _ _ _ => 0
  | .fma _ _ _ => 0
  | .fnma _ _ _ => 0
  | .fmin _ _ _ => 0
  | .fmax _ _ _ => 0
  | .fabs _ _ => 0
  | .fneg _ _ => 0
  | .fcmpEq _ _ _ => 0
  | .fcmpNe _ _ _ => 0
  | .fcmpLt _ _ _ => 0
  | .fcmpLe _ _ _ => 0
  | .fcmpGt _ _ _ => 0
  | .fcmpGe _ _ _ => 0
  | .fcmpUn _ _ _ => 0
  | .fclass _ _ => 0
  | .fdiv _ _ _ => 0
  | .fsqrt _ _ => 0
  | .frcp _ _ => 0
  | .frsq _ _ => 0
  | .exp2 _ _ => 0
  | .log2 _ _ => 0
  | .sinpi _ _ => 0
  | .cospi _ _ => 0
  | .cvtF _ _ _ => 0
  | .cvtI _ _ _ => 0
  | .cvt8Sat _ _ _ => 0
  | .cvt8Inf _ _ _ => 0
  | .cvtq _ _ _ => 0
  | .cvtaSat _ _ _ => 0
  | .cvtaInf _ _ _ => 0
  | .fdot _ _ _ => 0
  | .fdot8 _ _ _ => 0
  | .shfl _ _ _ => 0
  | .shflUp _ _ _ => 0
  | .shflDn _ _ _ => 0
  | .shflX _ _ _ => 0
  | .bcast _ _ _ => 0
  | .voteAny _ _ => 0
  | .voteAll _ _ => 0
  | .ballot _ _ => 0
  | .matchV _ _ => 0
  | .redSum _ _ => 0
  | .redMin _ _ => 0
  | .redMax _ _ => 0
  | .redAnd _ _ => 0
  | .redOr _ _ => 0
  | .redXor _ _ => 0
  | .redmi _ _ => 0
  | .redma _ _ => 0
  | .scanAdd _ _ => 0
  | .perm _ _ _ => 0
  | .pack _ _ _ => 0
  | .unpack _ _ => 0
  | .pand _ _ _ => 0
  | .por _ _ _ => 0
  | .pxor _ _ _ => 0
  | .pnot _ _ => 0
  | .kpop _ _ => 0
  | .ld _ _ _ => 0
  | .st _ _ _ => 0
  | .ldu _ _ _ => 0
  | .ldx _ _ _ _ _ => 0
  | .waita _ _ _ => 0
  | .stm _ _ _ => 0
  | .lds _ _ _ => 0
  | .sts _ _ _ => 0
  | .ldaGrove _ _ _ => 0
  | .ldaStand _ _ _ => 0
  | .ldaCluster _ _ _ => 0
  | .ldaDie _ _ _ => 0
  | .ldaPartition _ _ _ => 0
  | .ldaDevice _ _ _ => 0
  | .ldaSystem _ _ _ => 0
  | .stlGrove _ _ _ => 0
  | .stlStand _ _ _ => 0
  | .stlCluster _ _ _ => 0
  | .stlDie _ _ _ => 0
  | .stlPartition _ _ _ => 0
  | .stlDevice _ _ _ => 0
  | .stlSystem _ _ _ => 0
  | .ldcGrove _ _ _ => 0
  | .ldcStand _ _ _ => 0
  | .ldcCluster _ _ _ => 0
  | .ldcDie _ _ _ => 0
  | .ldcPartition _ _ _ => 0
  | .ldcDevice _ _ _ => 0
  | .ldcSystem _ _ _ => 0
  | .atomAdd _ _ _ => 0
  | .atomMin _ _ _ => 0
  | .atomMax _ _ _ => 0
  | .atomAnd _ _ _ => 0
  | .atomOr _ _ _ => 0
  | .atomXor _ _ _ => 0
  | .atomXchg _ _ _ => 0
  | .atomCas _ _ _ => 0
  | .atomFadd _ _ _ => 0
  | .fence _ => 0
  | .invRange _ _ => 0
  | .wbRange _ _ => 0
  | .sdec _ _ _ => 0
  | .senc _ _ _ => 0
  | .serr _ _ _ => 0
  | .sblk _ _ _ => 0
  | .cpy _ _ _ => 0
  | .cpym _ _ _ => 0
  | .cpyx _ _ _ => 0
  | .seal => 0
  | .waitb _ _ => 0
  | .dictLd _ _ => 0
  | .cpyRes => 0
  | .cpyResAbandon => 0
  | .spawn _ _ _ => 0
  | .rebin _ _ => 0
  | .floeDef _ _ _ => 0
  | .floeRel _ => 0
  | .floeSt _ _ => 0
  | .barArr _ => 0
  | .barWait _ => 0
  | .barSync _ => 0
  | .tlwait _ _ _ _ => 0
  | .tlrd _ _ _ => 0
  | .peek _ _ _ => 0
  | .poke _ _ _ => 0
  | .stepLane _ _ => 0
  | .stepRun _ _ => 0
  | .stepHalt _ _ => 0
  | .rimew _ _ _ _ => 0
  | .samp _ => 0
  | .mnop => 1
  | .mend => 1
  | .mendGo => 1
  | .mjmp _ => 1
  | .mloop _ _ => 1
  | .mbarArr _ => 1
  | .mbarWait _ => 1
  | .mfence => 1
  | .mmode _ => 1
  | .mrecLd _ _ _ _ _ => 1
  | .mrecSc _ _ _ _ _ => 1
  | .mzero _ => 1
  | .mma _ _ _ => 1
  | .mmaSp _ _ _ _ => 1
  | .xadd _ _ _ _ => 1
  | .xsub _ _ _ _ => 1
  | .xmul _ _ _ _ => 1
  | .xshl _ _ _ _ => 1
  | .xshr _ _ _ _ => 1
  | .xand _ _ _ _ => 1
  | .xior _ _ _ _ => 1
  | .xxor _ _ _ _ => 1
  | .xli _ _ => 1
  | .matrixOperationStart _ => 2
  | .matrixOperationComplete _ => 2
  | .pin _ => 2
  | .regTaken _ _ => 2
  | .grant _ _ => 2
  | .fwdRead _ _ => 2
  | .recall _ _ => 2
  | .dataAnswer _ _ => 2
  | .wbTaken _ _ => 2
  | .homeRead _ _ _ => 2
  | .fillReply _ _ => 2
  | .atomicAtHome _ _ => 2
  | .lostRegistrant _ => 2
  | .groupFillComplete _ => 2
  | .depart _ => 2
  | .hostRead _ _ => 2
  | .hostWrite _ _ => 2
  | .hostAtomicop _ _ _ _ _ => 2
  | .hostOwnership _ => 2
  | .hostReadShared _ => 2
  | .probe _ _ _ => 2
  | .hostInvalidate _ => 2
  | .remoteRequest _ _ _ _ => 2
  | .peerTimeout _ _ => 2
  | .expanderRemoved _ => 2
  | .portRequest _ _ => 2
  | .tokenRefill => 2
  | .bwtokReset => 2
  | .refresh _ _ => 2
  | .conversionComplete _ => 2
  | .ldxReply _ _ _ _ _ => 2
  | .deposit _ _ => 2
  | .binTimerExpiry _ _ => 2
  | .binLaunch _ => 2
  | .copyChunk _ _ => 2
  | .multicastLanding _ _ _ => 2
  | .chunkFault _ _ => 2
  | .dictTableLoaded _ _ => 2
  | .trapEntry _ _ => 2
  | .preemptDeadline _ => 2
  | .saveStand _ => 2
  | .restoreStand _ => 2
  | .dispatcherPreempt _ _ => 2
  | .driftInterval _ _ => 2
  | .driftSwap _ => 2
  | .hostLaunch _ _ _ => 2
  | .batchSend => 2
  | .placement _ => 2
  | .batchReturn _ => 2
  | .freeSlotReport _ => 2
  | .tlbiAll _ _ => 2
  | .tlbiAsid _ _ => 2
  | .tlbiPage _ _ => 2
  | .tlbiPageAllAsid _ _ => 2
  | .tlbiComplete _ => 2
  | .walkPage _ => 2
  | .windowEnable _ _ _ => 2
  | .windowDisable _ _ => 2
  | .windowDisableDone _ => 2
  | .preemptSet _ _ _ _ => 2
  | .preemptClear _ _ _ _ => 2
  | .preemptForce _ _ _ _ => 2
  | .occClear _ _ => 2
  | .probemisRead _ _ => 2
  | .launchstRead _ _ => 2
  | .errcntRead _ => 2
  | .xfercntRead _ => 2
  | .mdropRead _ => 2
  | .traceptrWrite _ _ _ => 2
  | .ownerClaim _ => 2
  | .ownerNext _ _ => 2
  | .ownerTimeout => 2
  | .partitionCreate _ _ _ => 2
  | .partitionReset _ _ => 2
  | .partitionRemove _ _ => 2
  | .partitionOpComplete _ => 2
  | .powerUp => 2
  | .firmwareStart _ => 2
  | .firmwareVerified _ _ _ => 2
  | .liveUpdate _ => 2
  | .recalibrate _ _ => 2
  | .retireCore _ _ => 2
  | .retireChannel _ _ => 2
  | .readCounters _ => 2
  | .fatalError _ => 2
  | .throttleEvent _ _ _ => 2
  | .powerWindowEnd _ => 2
  | .registerWrite _ _ _ _ => 2
  | .hostLinkAcknowledge _ => 2
  | .hostRecallData _ _ => 2
  | .serviceOperationComplete => 2
  | .clkTick _ => 2

/-! ## A grove's turn -/

/-- A word that does not decode (10 R222, R223). -/
def decodeFail (x : Gx) (e : DecErr) : State :=
  let late (d : Nat) : State :=
    if !x.i.always && x.en == 0#1024 then x.done x.g
    else if x.i.namesImm != x.g.pfx.isSome then x.trapAll cILLEGAL 6 0
    else x.trapAll cILLEGAL d 0
  match e with
  | .undefinedOpcode => x.trapAll cILLEGAL 1 0
  | .truncated => x.trapAll cILLEGAL 1 0
  | .reserved _ => late 2
  | .width _ => late (if x.i.illegalDetail = some 2 then 2 else 3)
  | .value _ => late (x.i.illegalDetail.getD 7)

/-- The instruction that a decoding error carries. -/
def errInstr (e : DecErr) : Instr :=
  match e with
  | .reserved i => i
  | .width i => i
  | .value i => i
  | .undefinedOpcode => .nop
  | .truncated => .nop

/-- Executes a fetched word for the current grove. -/
def runWord (s : State) (w : BitVec 32) : Out State Fault Refusal :=
  match decodeGrove w 0 with
  | .ok i => exec i s
  | .error e =>
    match gx? s (errInstr e) with
    | none => .fault .noGrove
    | some x => .next (decodeFail x e)

/-- A triple whose pfx word has a Reserved bit set: one instruction with its third word (10 R221), whose own conditions that
R223 lists before come first. -/
def pfxFail (s : State) (w2 : BitVec 32) : Out State Fault Refusal :=
  let e : DecErr := match decodeGrove w2 0 with
    | .ok i => .reserved i
    | .error .undefinedOpcode => .undefinedOpcode
    | .error .truncated => .truncated
    | .error e => .reserved (errInstr e)
  match gx? s (errInstr e) with
  | none => .fault .noGrove
  | some x => .next (decodeFail x e)

/-- Fetches the grove's next instruction, a pfx word with its literal and the word after it (10 R221), and executes
it. A fetch fault reports the instruction's address, the pfx word's for a triple (02 R43; 01 R21). -/
def fetchRun (s : State) (st : Stand) (g : Grove) : Out State Fault Refusal :=
  let u := st.mmu true g.slot
  let missed (s : State) : State := s.setGrove st.uid { g with wait := .queue }
  let faulted (s : State) (c d : Nat) : State := trapEntry s st.uid g c d g.active g.pc g.pc
  match fetchWord s u g.pc with
  | (.miss, s) => .next (missed s)
  | (.fault c d, s) => .next (faulted s c d)
  | (.word w, s) =>
    if w.extractLsb' 24 8 = 0x01#8 then
      match fetchWord s u (g.pc + 4) with
      | (.miss, s) => .next (missed s)
      | (.fault c d, s) => .next (faulted s c d)
      | (.word lit, s) =>
        match fetchWord s u (g.pc + 8) with
        | (.miss, s) => .next (missed s)
        | (.fault c d, s) => .next (faulted s c d)
        | (.word w2, s) =>
          match decodeGrove w lit with
          | .ok i =>
            (match exec i s with
             | .next s => runWord s w2
             | .fault f => .fault f
             | .refused r => .refused r)
          | .error _ => pfxFail (s.setGrove st.uid { g with pfx := some lit }) w2
    else runWord s w

/-- A stand whose domain was aborted is gone once its groves have ended the atomics they were inside (08 R186). -/
def buryStand (s : State) (uid : Nat) : State :=
  match s.stand? uid with
  | none => s
  | some st =>
    if st.dying then
      let st' : Stand := { st with groves := st.groves.filter Grove.midAtomic }
      if st'.groves.isEmpty then releaseStand s st' else s.modStand uid (fun _ => st')
    else s

/-- An instruction that would trap is not executed: the grove stands before it, and it begins anew when the grove goes on, with
its translation (16 R344; 02 R40). An atomic of which some lanes have been performed waits where it is. -/
def Grove.undone (g : Grove) : Grove := if g.midAtomic then { g with wait := .inside } else g.stopped

/-- A trap of an instruction under way is not taken now, so the instruction is undone: a skid instruction stops the grove before
it (16 R344); one that ends during a swap waits, and the trap recurs after the resume (08 R193). -/
def notTrapped (before : State) (uid slot : Nat) : State :=
  let s : State := { before with cur := none }
  match s.stand? uid with
  | none => s
  | some st =>
    let s := if st.halt.isSome then dropAsks s ⟨uid, slot⟩ else s
    s.modStand uid (fun st => { st with groves := st.groves.map (fun (g : Grove) =>
      if g.slot ≠ slot then g
      else if st.halt.isSome then { g.undone with skidLeft := 0 }
      else { g with wait := .inside }) })

/-- The turn is over: nobody executes any more. A skid instruction that begins to wait stops the grove inside its wait
(16 R344). -/
def afterTurn (before : State) (uid slot : Nat) (r : Out State Fault Refusal) : Out State Fault Refusal :=
  match r with
  | .next s =>
    if s.skidding then
      if s.skidStop then .next (notTrapped before uid slot)
      else .next (({ s with cur := none, skidding := false } : State).modStand uid (fun st => { st with
        groves := st.groves.map (fun g =>
          if g.slot = slot ∧ g.wait ≠ .none ∧ !g.wait.own then { g with skidLeft := 0 } else g) }))
    else .next (buryStand { s with cur := none } uid)
  | .fault f => .fault f
  | .refused r => .refused r

/-- What a grove does in its turn: an engine trap at its boundary or in its wait (before an instruction that would
trap itself, 16 R344), the halt of a grove whose live lanes
are all parked (17 R359), the instruction it holds, or the next one. -/
def groveAct (s : State) (st : Stand) (g : Grove) : Out State Fault Refusal :=
  match g.single, g.pend with
  | none, some p =>
    (match g.held, g.wait.own with
     | some i, true =>
       (match exec i s with
        | .next s' => .next (if s'.skidStop then engineTrap (dropAsks { s with skidding := false } ⟨st.uid, g.slot⟩) st g.undone p else s')
        | .fault f => .fault f
        | .refused r => .refused r)
     | _, _ => .next (engineTrap s st g p))
  | _, _ =>
    if g.single.isNone ∧ g.live &&& ~~~g.parked = 0#1024 ∧ g.held.isNone then
      .next (s.setGrove st.uid { g with dbgHalt := true })
    else
      match g.held with
      | some i => exec i s
      | none => fetchRun s st g

/-- A trap of the grove's instruction would not be taken now: the grove skids, as a handler's does at a debugger's halt, or its
core is stopped for a swap. -/
def trapsLater (s : State) (st : Stand) (g : Grove) : Bool :=
  g.single.isNone && !st.dying && ((st.halt.isSome && (!g.trap.hnd || st.dbgHalt)) || swapping s st.core)

/-- A grove executes: it goes on with its instruction, or fetches the next one. -/
def groveRun (s : State) (st : Stand) (g : Grove) : Out State Fault Refusal :=
  afterTurn s st.uid g.slot
    (groveAct { s with cur := some ⟨st.uid, g.slot⟩, skidding := trapsLater s st g, skidStop := false } st g)

/-! ## Issue (09 R210, R211) -/

/-- Mask words with an active lane: the passes of an instruction (08 R172). -/
def passesOf (g : Grove) : Nat := ((List.range 32).filter (fun w => g.active.extractLsb' (32 * w) 32 != 0#32)).length

/-- The next instruction of a grove did not start: it waits before it has done anything (log entry 114), or its
trap is not taken now. -/
def notStarted (s : State) (st : Stand) (g : Grove) (t : State) : Bool :=
  match (t.stand? st.uid).bind (fun st => st.grove? g.slot) with
  | none => false
  | some h => (h.wait != .none && !h.begun) || (trapsLater s st g && h == { g with skidLeft := 0 })

/-- A port is held for one clk per pass, and for one clk by an instruction without a pass; the grove's age is 0 again. -/
def holdPort (t : State) (st : Stand) (g : Grove) (port : Nat) : State :=
  let t := t.modCore st.core (fun c => { c with
    ports := c.ports.set port (max 1 (passesOf g))
    portGroves := c.portGroves.set port (some ⟨⟨st.uid, g.slot⟩, g.phase, passesOf g != 0⟩) })
  t.modStand st.uid (fun st => { st with groves := st.groves.map (fun h => if h.slot = g.slot then { h with age := 0 } else h) })

/-- A port takes a ready grove, whose next instruction starts; when it has to wait first, the grove was not ready. -/
def startOn (s : State) (port : Nat) (st : Stand) (g : Grove) : Out State Fault Refusal :=
  match groveRun s st g with
  | .next t => .next (if notStarted s st g t then t else holdPort t st g port)
  | .fault f => .fault f
  | .refused r => .refused r

/-- The lowest free port of a core takes the grove whose turn it is. -/
def issueTurn (s : State) (core : Nat) : Out State Fault Refusal :=
  match pickGrove s core with
  | none => .next s
  | some (port, st, g) => startOn s port st g

/-- A grove's turn: one that is inside an instruction, takes a trap of an engine, executes a single step or has all its lanes
parked goes on; another starts its next instruction when a free port takes it. A grove that may not execute, or that does not
exist, does nothing. -/
def groveTurn (s : State) (uid slot : Nat) : Out State Fault Refusal :=
  match s.stand? uid with
  | none => .next s
  | some st =>
    match st.grove? slot with
    | none => .next s
    | some g =>
      if !runnable s st g then .next s
      else if !g.between then groveRun s st g
      else
        match pickGrove s st.core with
        | none => .next s
        | some (port, p, h) => if p.uid = uid ∧ h.slot = slot then startOn s port p h else .next s

/-- Whether a grove that could start an instruction is ready is decided anew: its next one is tried, and has to wait, or not. -/
def settleGrove (s : State) (uid slot : Nat) : State :=
  match s.stand? uid with
  | none => s
  | some st =>
    match st.grove? slot with
    | none => s
    | some g =>
      if runnable s st g && g.between && !onPort s st g then
        match groveRun s st g with
        | .next t => if notStarted s st g t then t else s.setGrove uid { g with wait := .none }
        | .fault _ => s
        | .refused _ => s
      else s

/-- What each grove's next instruction waits for, as it is now (09 R210). -/
def settleReady (s : State) : State :=
  (s.stands.flatMap (fun st => st.groves.map (fun g => (st.uid, g.slot)))).foldl (fun s w => settleGrove s w.1 w.2) s

/-! ## The sequencer's turn (14 R298) -/

/-- The sequencer fetches one word at MPC and executes it. -/
def seqTurn (s : State) (uid : Nat) : Out State Fault Refusal :=
  match s.stand? uid with
  | none => .next s
  | some st =>
    if !seqRuns s st then .next s
    else
      match fetchWord s (st.mmu true seqSlot) st.seq.mpc with
      | (.miss, s) => .next s
      | (.fault c d, s) => .next ((Sx.mk s st).fault (seqDetail c d) st.seq.mpc)
      | (.word w, s) =>
        match decodeMatrix w with
        | .error _ => .next ((Sx.mk s st).fault 0x41 st.seq.mpc)
        | .ok i =>
          match exec i { s with cur := some ⟨uid, seqSlot⟩ } with
          | .next s => .next { s with cur := none }
          | .fault f => .fault f
          | .refused r => .refused r

/-- Once the ports have chosen, a clk ends when it is known which other groves are ready; other steps of the device act as
they are. -/
def beforeEvent (i : Instr) (s : State) : State :=
  match i with
  | .clkTick _ => if portsChoose s then s else settleReady s
  | _ => s

/-- What acts after a fatal error: a new FWSTART, by its step or by a write of its register (18 R383), and a power-up. -/
def afterFatal (i : Instr) : Bool :=
  match i with
  | .powerUp | .firmwareStart _ => true
  | .registerWrite _ a _ _ => regAt (a / 8 * 8) == .fwstart
  | _ => false

/-- One turn. A device step is executed as such only when the turn names one; after a fatal error only a new
FWSTART or a power-up acts (18 R383; log entry 120). -/
def runTurn (t : Turn) (s : State) : Out State Fault Refusal :=
  match t with
  | .grove uid slot => if s.d.mgmt.fatal.isSome then .next s else groveTurn s uid slot
  | .issue core => if s.d.mgmt.fatal.isSome then .next s else issueTurn s core
  | .seq uid => if s.d.mgmt.fatal.isSome then .next s else seqTurn s uid
  | .input i => .next (inputOf i s)
  | .event i =>
    if streamOf i = 2 then
      (if s.d.mgmt.fatal.isNone then exec i (beforeEvent i s) else if afterFatal i then exec i s else .next s)
    else .next s

/-- Who moves next: the head of the agenda, or a free choice (log entry 3). -/
def nextTurn (s : State) : Turn × State :=
  match s.agenda with
  | t :: rest => (t, { s with agenda := rest, stamp := s.stamp + 1 })
  | [] => (Config.turn s.fresh, { s with fresh := s.fresh + 1, stamp := s.stamp + 1 })

end Sys2Proof.Machine
end

