-- ==== Sys2Proof/Machine/Step.lean ====
section
/-! DEFINITION. One step: the next turn is chosen and taken. -/

namespace Sys2Proof.Machine

/-- The step of the machine. -/
def step (s : State) : Host.Outcome State Fault Refusal := runTurn (nextTurn s).1 (nextTurn s).2

/-- The state with an instruction, its bits numbered as the opcode table numbers them, where the next step fetches it;
the words after it hold 0. -/
def State.withFetchWord (s : State) (_nbits w : Nat) : State := stageWord s w

end Sys2Proof.Machine
end

