-- ==== Sys2Proof/Laws/State.lean ====
section
/-! SUPPORT. One lemma for each field of each update of the state (Sys2Proof/Machine/Memory.lean, Ops.lean): what it writes and
what it leaves. -/

namespace Sys2Proof.Machine

@[simp] theorem State.modM_agenda (s : State) (f : MemSys → MemSys) : (s.modM f).agenda = s.agenda := rfl
@[simp] theorem State.modD_agenda (s : State) (f : Dev → Dev) : (s.modD f).agenda = s.agenda := rfl
@[simp] theorem State.modStand_agenda (s : State) (u : Nat) (f : Stand → Stand) : (s.modStand u f).agenda = s.agenda := rfl
@[simp] theorem State.setGrove_agenda (s : State) (u : Nat) (g : Grove) : (s.setGrove u g).agenda = s.agenda := rfl
@[simp] theorem Gx.put_agenda (x : Gx) (g : Grove) : (x.put g).agenda = x.s.agenda := rfl
@[simp] theorem Gx.done_agenda (x : Gx) (g : Grove) : (x.done g).agenda = x.s.agenda := rfl
@[simp] theorem Gx.jump_agenda (x : Gx) (g : Grove) (pc : Word) : (x.jump g pc).agenda = x.s.agenda := rfl
@[simp] theorem Gx.lanes_agenda (x : Gx) (f : Nat → Lane → Lane) : (x.lanes f).agenda = x.s.agenda := rfl
@[simp] theorem State.modCore_agenda (s : State) (c : Nat) (f : Core → Core) : (s.modCore c f).agenda = s.agenda := rfl
@[simp] theorem State.modPart_agenda (s : State) (p : Nat) (f : Partition → Partition) : (s.modPart p f).agenda = s.agenda := rfl
@[simp] theorem State.modMgmt_agenda (s : State) (f : Mgmt → Mgmt) : (s.modMgmt f).agenda = s.agenda := rfl
@[simp] theorem State.freeWord_agenda (s : State) : s.freeWord.2.agenda = s.agenda := rfl
@[simp] theorem State.modM_fresh (s : State) (f : MemSys → MemSys) : (s.modM f).fresh = s.fresh := rfl
@[simp] theorem State.modD_fresh (s : State) (f : Dev → Dev) : (s.modD f).fresh = s.fresh := rfl
@[simp] theorem State.modStand_fresh (s : State) (u : Nat) (f : Stand → Stand) : (s.modStand u f).fresh = s.fresh := rfl
@[simp] theorem State.setGrove_fresh (s : State) (u : Nat) (g : Grove) : (s.setGrove u g).fresh = s.fresh := rfl
@[simp] theorem Gx.put_fresh (x : Gx) (g : Grove) : (x.put g).fresh = x.s.fresh := rfl
@[simp] theorem Gx.done_fresh (x : Gx) (g : Grove) : (x.done g).fresh = x.s.fresh := rfl
@[simp] theorem Gx.jump_fresh (x : Gx) (g : Grove) (pc : Word) : (x.jump g pc).fresh = x.s.fresh := rfl
@[simp] theorem Gx.lanes_fresh (x : Gx) (f : Nat → Lane → Lane) : (x.lanes f).fresh = x.s.fresh := rfl
@[simp] theorem State.modCore_fresh (s : State) (c : Nat) (f : Core → Core) : (s.modCore c f).fresh = s.fresh := rfl
@[simp] theorem State.modPart_fresh (s : State) (p : Nat) (f : Partition → Partition) : (s.modPart p f).fresh = s.fresh := rfl
@[simp] theorem State.modMgmt_fresh (s : State) (f : Mgmt → Mgmt) : (s.modMgmt f).fresh = s.fresh := rfl
@[simp] theorem State.freeWord_fresh (s : State) : s.freeWord.2.fresh = s.fresh + 1 := rfl
@[simp] theorem State.modM_stamp (s : State) (f : MemSys → MemSys) : (s.modM f).stamp = s.stamp := rfl
@[simp] theorem State.modD_stamp (s : State) (f : Dev → Dev) : (s.modD f).stamp = s.stamp := rfl
@[simp] theorem State.modStand_stamp (s : State) (u : Nat) (f : Stand → Stand) : (s.modStand u f).stamp = s.stamp := rfl
@[simp] theorem State.setGrove_stamp (s : State) (u : Nat) (g : Grove) : (s.setGrove u g).stamp = s.stamp := rfl
@[simp] theorem Gx.put_stamp (x : Gx) (g : Grove) : (x.put g).stamp = x.s.stamp := rfl
@[simp] theorem Gx.done_stamp (x : Gx) (g : Grove) : (x.done g).stamp = x.s.stamp := rfl
@[simp] theorem Gx.jump_stamp (x : Gx) (g : Grove) (pc : Word) : (x.jump g pc).stamp = x.s.stamp := rfl
@[simp] theorem Gx.lanes_stamp (x : Gx) (f : Nat → Lane → Lane) : (x.lanes f).stamp = x.s.stamp := rfl
@[simp] theorem State.modCore_stamp (s : State) (c : Nat) (f : Core → Core) : (s.modCore c f).stamp = s.stamp := rfl
@[simp] theorem State.modPart_stamp (s : State) (p : Nat) (f : Partition → Partition) : (s.modPart p f).stamp = s.stamp := rfl
@[simp] theorem State.modMgmt_stamp (s : State) (f : Mgmt → Mgmt) : (s.modMgmt f).stamp = s.stamp := rfl
@[simp] theorem State.freeWord_stamp (s : State) : s.freeWord.2.stamp = s.stamp := rfl
@[simp] theorem State.modM_nextId (s : State) (f : MemSys → MemSys) : (s.modM f).nextId = s.nextId := rfl
@[simp] theorem State.modD_nextId (s : State) (f : Dev → Dev) : (s.modD f).nextId = s.nextId := rfl
@[simp] theorem State.modStand_nextId (s : State) (u : Nat) (f : Stand → Stand) : (s.modStand u f).nextId = s.nextId := rfl
@[simp] theorem State.setGrove_nextId (s : State) (u : Nat) (g : Grove) : (s.setGrove u g).nextId = s.nextId := rfl
@[simp] theorem Gx.put_nextId (x : Gx) (g : Grove) : (x.put g).nextId = x.s.nextId := rfl
@[simp] theorem Gx.done_nextId (x : Gx) (g : Grove) : (x.done g).nextId = x.s.nextId := rfl
@[simp] theorem Gx.jump_nextId (x : Gx) (g : Grove) (pc : Word) : (x.jump g pc).nextId = x.s.nextId := rfl
@[simp] theorem Gx.lanes_nextId (x : Gx) (f : Nat → Lane → Lane) : (x.lanes f).nextId = x.s.nextId := rfl
@[simp] theorem State.modCore_nextId (s : State) (c : Nat) (f : Core → Core) : (s.modCore c f).nextId = s.nextId := rfl
@[simp] theorem State.modPart_nextId (s : State) (p : Nat) (f : Partition → Partition) : (s.modPart p f).nextId = s.nextId := rfl
@[simp] theorem State.modMgmt_nextId (s : State) (f : Mgmt → Mgmt) : (s.modMgmt f).nextId = s.nextId := rfl
@[simp] theorem State.freeWord_nextId (s : State) : s.freeWord.2.nextId = s.nextId := rfl
@[simp] theorem State.modM_cur (s : State) (f : MemSys → MemSys) : (s.modM f).cur = s.cur := rfl
@[simp] theorem State.modD_cur (s : State) (f : Dev → Dev) : (s.modD f).cur = s.cur := rfl
@[simp] theorem State.modStand_cur (s : State) (u : Nat) (f : Stand → Stand) : (s.modStand u f).cur = s.cur := rfl
@[simp] theorem State.setGrove_cur (s : State) (u : Nat) (g : Grove) : (s.setGrove u g).cur = s.cur := rfl
@[simp] theorem Gx.put_cur (x : Gx) (g : Grove) : (x.put g).cur = x.s.cur := rfl
@[simp] theorem Gx.done_cur (x : Gx) (g : Grove) : (x.done g).cur = x.s.cur := rfl
@[simp] theorem Gx.jump_cur (x : Gx) (g : Grove) (pc : Word) : (x.jump g pc).cur = x.s.cur := rfl
@[simp] theorem Gx.lanes_cur (x : Gx) (f : Nat → Lane → Lane) : (x.lanes f).cur = x.s.cur := rfl
@[simp] theorem State.modCore_cur (s : State) (c : Nat) (f : Core → Core) : (s.modCore c f).cur = s.cur := rfl
@[simp] theorem State.modPart_cur (s : State) (p : Nat) (f : Partition → Partition) : (s.modPart p f).cur = s.cur := rfl
@[simp] theorem State.modMgmt_cur (s : State) (f : Mgmt → Mgmt) : (s.modMgmt f).cur = s.cur := rfl
@[simp] theorem State.freeWord_cur (s : State) : s.freeWord.2.cur = s.cur := rfl
@[simp] theorem State.modM_skidding (s : State) (f : MemSys → MemSys) : (s.modM f).skidding = s.skidding := rfl
@[simp] theorem State.modD_skidding (s : State) (f : Dev → Dev) : (s.modD f).skidding = s.skidding := rfl
@[simp] theorem State.modStand_skidding (s : State) (u : Nat) (f : Stand → Stand) : (s.modStand u f).skidding = s.skidding := rfl
@[simp] theorem State.setGrove_skidding (s : State) (u : Nat) (g : Grove) : (s.setGrove u g).skidding = s.skidding := rfl
@[simp] theorem Gx.put_skidding (x : Gx) (g : Grove) : (x.put g).skidding = x.s.skidding := rfl
@[simp] theorem Gx.done_skidding (x : Gx) (g : Grove) : (x.done g).skidding = x.s.skidding := rfl
@[simp] theorem Gx.jump_skidding (x : Gx) (g : Grove) (pc : Word) : (x.jump g pc).skidding = x.s.skidding := rfl
@[simp] theorem Gx.lanes_skidding (x : Gx) (f : Nat → Lane → Lane) : (x.lanes f).skidding = x.s.skidding := rfl
@[simp] theorem State.modCore_skidding (s : State) (c : Nat) (f : Core → Core) : (s.modCore c f).skidding = s.skidding := rfl
@[simp] theorem State.modPart_skidding (s : State) (p : Nat) (f : Partition → Partition) : (s.modPart p f).skidding = s.skidding := rfl
@[simp] theorem State.modMgmt_skidding (s : State) (f : Mgmt → Mgmt) : (s.modMgmt f).skidding = s.skidding := rfl
@[simp] theorem State.freeWord_skidding (s : State) : s.freeWord.2.skidding = s.skidding := rfl
@[simp] theorem State.modM_skidStop (s : State) (f : MemSys → MemSys) : (s.modM f).skidStop = s.skidStop := rfl
@[simp] theorem State.modD_skidStop (s : State) (f : Dev → Dev) : (s.modD f).skidStop = s.skidStop := rfl
@[simp] theorem State.modStand_skidStop (s : State) (u : Nat) (f : Stand → Stand) : (s.modStand u f).skidStop = s.skidStop := rfl
@[simp] theorem State.setGrove_skidStop (s : State) (u : Nat) (g : Grove) : (s.setGrove u g).skidStop = s.skidStop := rfl
@[simp] theorem Gx.put_skidStop (x : Gx) (g : Grove) : (x.put g).skidStop = x.s.skidStop := rfl
@[simp] theorem Gx.done_skidStop (x : Gx) (g : Grove) : (x.done g).skidStop = x.s.skidStop := rfl
@[simp] theorem Gx.jump_skidStop (x : Gx) (g : Grove) (pc : Word) : (x.jump g pc).skidStop = x.s.skidStop := rfl
@[simp] theorem Gx.lanes_skidStop (x : Gx) (f : Nat → Lane → Lane) : (x.lanes f).skidStop = x.s.skidStop := rfl
@[simp] theorem State.modCore_skidStop (s : State) (c : Nat) (f : Core → Core) : (s.modCore c f).skidStop = s.skidStop := rfl
@[simp] theorem State.modPart_skidStop (s : State) (p : Nat) (f : Partition → Partition) : (s.modPart p f).skidStop = s.skidStop := rfl
@[simp] theorem State.modMgmt_skidStop (s : State) (f : Mgmt → Mgmt) : (s.modMgmt f).skidStop = s.skidStop := rfl
@[simp] theorem State.freeWord_skidStop (s : State) : s.freeWord.2.skidStop = s.skidStop := rfl
@[simp] theorem State.modM_stands (s : State) (f : MemSys → MemSys) : (s.modM f).stands = s.stands := rfl
@[simp] theorem State.modD_stands (s : State) (f : Dev → Dev) : (s.modD f).stands = s.stands := rfl
@[simp] theorem State.modCore_stands (s : State) (c : Nat) (f : Core → Core) : (s.modCore c f).stands = s.stands := rfl
@[simp] theorem State.modPart_stands (s : State) (p : Nat) (f : Partition → Partition) : (s.modPart p f).stands = s.stands := rfl
@[simp] theorem State.modMgmt_stands (s : State) (f : Mgmt → Mgmt) : (s.modMgmt f).stands = s.stands := rfl
@[simp] theorem State.freeWord_stands (s : State) : s.freeWord.2.stands = s.stands := rfl
@[simp] theorem State.modM_m (s : State) (f : MemSys → MemSys) : (s.modM f).m = f s.m := rfl
@[simp] theorem State.modD_m (s : State) (f : Dev → Dev) : (s.modD f).m = s.m := rfl
@[simp] theorem State.modStand_m (s : State) (u : Nat) (f : Stand → Stand) : (s.modStand u f).m = s.m := rfl
@[simp] theorem State.setGrove_m (s : State) (u : Nat) (g : Grove) : (s.setGrove u g).m = s.m := rfl
@[simp] theorem Gx.put_m (x : Gx) (g : Grove) : (x.put g).m = x.s.m := rfl
@[simp] theorem Gx.done_m (x : Gx) (g : Grove) : (x.done g).m = x.s.m := rfl
@[simp] theorem Gx.jump_m (x : Gx) (g : Grove) (pc : Word) : (x.jump g pc).m = x.s.m := rfl
@[simp] theorem Gx.lanes_m (x : Gx) (f : Nat → Lane → Lane) : (x.lanes f).m = x.s.m := rfl
@[simp] theorem State.modCore_m (s : State) (c : Nat) (f : Core → Core) : (s.modCore c f).m = s.m := rfl
@[simp] theorem State.modPart_m (s : State) (p : Nat) (f : Partition → Partition) : (s.modPart p f).m = s.m := rfl
@[simp] theorem State.modMgmt_m (s : State) (f : Mgmt → Mgmt) : (s.modMgmt f).m = s.m := rfl
@[simp] theorem State.freeWord_m (s : State) : s.freeWord.2.m = s.m := rfl
@[simp] theorem State.modM_d (s : State) (f : MemSys → MemSys) : (s.modM f).d = s.d := rfl
@[simp] theorem State.modD_d (s : State) (f : Dev → Dev) : (s.modD f).d = f s.d := rfl
@[simp] theorem State.modStand_d (s : State) (u : Nat) (f : Stand → Stand) : (s.modStand u f).d = s.d := rfl
@[simp] theorem State.setGrove_d (s : State) (u : Nat) (g : Grove) : (s.setGrove u g).d = s.d := rfl
@[simp] theorem Gx.put_d (x : Gx) (g : Grove) : (x.put g).d = x.s.d := rfl
@[simp] theorem Gx.done_d (x : Gx) (g : Grove) : (x.done g).d = x.s.d := rfl
@[simp] theorem Gx.jump_d (x : Gx) (g : Grove) (pc : Word) : (x.jump g pc).d = x.s.d := rfl
@[simp] theorem Gx.lanes_d (x : Gx) (f : Nat → Lane → Lane) : (x.lanes f).d = x.s.d := rfl
@[simp] theorem State.freeWord_d (s : State) : s.freeWord.2.d = s.d := rfl

@[simp] theorem Grove.retireTo_slot (g : Grove) (pc : Word) : (g.retireTo pc).slot = g.slot := rfl
@[simp] theorem Grove.mapLanes_slot (g : Grove) (m : LaneMask) (f : Nat → Lane → Lane) :
    (g.mapLanes m f).slot = g.slot := rfl
@[simp] theorem Grove.setS_slot (g : Grove) (n : Nat) (v : Word) : (g.setS n v).slot = g.slot := rfl
@[simp] theorem Grove.setK_slot (g : Grove) (n : Nat) (m : LaneMask) :
    (g.setK n m).slot = g.slot := rfl
@[simp] theorem Grove.mapLanes_pc (g : Grove) (m : LaneMask) (f : Nat → Lane → Lane) :
    (g.mapLanes m f).pc = g.pc := rfl
@[simp] theorem Grove.setS_pc (g : Grove) (n : Nat) (v : Word) : (g.setS n v).pc = g.pc := rfl
@[simp] theorem Grove.setK_pc (g : Grove) (n : Nat) (m : LaneMask) :
    (g.setK n m).pc = g.pc := rfl
@[simp] theorem Grove.mapLanes_active (g : Grove) (m : LaneMask) (f : Nat → Lane → Lane) :
    (g.mapLanes m f).active = g.active := rfl
@[simp] theorem Grove.setS_active (g : Grove) (n : Nat) (v : Word) : (g.setS n v).active = g.active := rfl
@[simp] theorem Grove.setK_active (g : Grove) (n : Nat) (m : LaneMask) :
    (g.setK n m).active = g.active := rfl
@[simp] theorem Grove.retireTo_live (g : Grove) (pc : Word) : (g.retireTo pc).live = g.live := rfl
@[simp] theorem Grove.mapLanes_live (g : Grove) (m : LaneMask) (f : Nat → Lane → Lane) :
    (g.mapLanes m f).live = g.live := rfl
@[simp] theorem Grove.setS_live (g : Grove) (n : Nat) (v : Word) : (g.setS n v).live = g.live := rfl
@[simp] theorem Grove.setK_live (g : Grove) (n : Nat) (m : LaneMask) :
    (g.setK n m).live = g.live := rfl
@[simp] theorem Grove.retireTo_s (g : Grove) (pc : Word) : (g.retireTo pc).s = g.s := rfl
@[simp] theorem Grove.mapLanes_s (g : Grove) (m : LaneMask) (f : Nat → Lane → Lane) :
    (g.mapLanes m f).s = g.s := rfl
@[simp] theorem Grove.setS_s (g : Grove) (n : Nat) (v : Word) : (g.setS n v).s = g.s.setIfInBounds n v := rfl
@[simp] theorem Grove.setK_s (g : Grove) (n : Nat) (m : LaneMask) :
    (g.setK n m).s = g.s := rfl
@[simp] theorem Grove.retireTo_k (g : Grove) (pc : Word) : (g.retireTo pc).k = g.k := rfl
@[simp] theorem Grove.mapLanes_k (g : Grove) (m : LaneMask) (f : Nat → Lane → Lane) :
    (g.mapLanes m f).k = g.k := rfl
@[simp] theorem Grove.setS_k (g : Grove) (n : Nat) (v : Word) : (g.setS n v).k = g.k := rfl
@[simp] theorem Grove.setK_k (g : Grove) (n : Nat) (m : LaneMask) :
    (g.setK n m).k = g.k.setIfInBounds n (m &&& g.allLanes) := rfl
@[simp] theorem Grove.retireTo_ac (g : Grove) (pc : Word) : (g.retireTo pc).ac = g.ac := rfl
@[simp] theorem Grove.mapLanes_ac (g : Grove) (m : LaneMask) (f : Nat → Lane → Lane) :
    (g.mapLanes m f).ac = g.ac := rfl
@[simp] theorem Grove.setS_ac (g : Grove) (n : Nat) (v : Word) : (g.setS n v).ac = g.ac := rfl
@[simp] theorem Grove.setK_ac (g : Grove) (n : Nat) (m : LaneMask) :
    (g.setK n m).ac = g.ac := rfl
@[simp] theorem Grove.retireTo_mode (g : Grove) (pc : Word) : (g.retireTo pc).mode = g.mode := rfl
@[simp] theorem Grove.mapLanes_mode (g : Grove) (m : LaneMask) (f : Nat → Lane → Lane) :
    (g.mapLanes m f).mode = g.mode := rfl
@[simp] theorem Grove.setS_mode (g : Grove) (n : Nat) (v : Word) : (g.setS n v).mode = g.mode := rfl
@[simp] theorem Grove.setK_mode (g : Grove) (n : Nat) (m : LaneMask) :
    (g.setK n m).mode = g.mode := rfl
@[simp] theorem Grove.retireTo_boundary (g : Grove) (pc : Word) : (g.retireTo pc).boundary = g.boundary := rfl
@[simp] theorem Grove.mapLanes_boundary (g : Grove) (m : LaneMask) (f : Nat → Lane → Lane) :
    (g.mapLanes m f).boundary = g.boundary := rfl
@[simp] theorem Grove.setS_boundary (g : Grove) (n : Nat) (v : Word) : (g.setS n v).boundary = g.boundary := rfl
@[simp] theorem Grove.setK_boundary (g : Grove) (n : Nat) (m : LaneMask) :
    (g.setK n m).boundary = g.boundary := rfl
@[simp] theorem Grove.mapLanes_div (g : Grove) (m : LaneMask) (f : Nat → Lane → Lane) :
    (g.mapLanes m f).div = g.div := rfl
@[simp] theorem Grove.setS_div (g : Grove) (n : Nat) (v : Word) : (g.setS n v).div = g.div := rfl
@[simp] theorem Grove.setK_div (g : Grove) (n : Nat) (m : LaneMask) :
    (g.setK n m).div = g.div := rfl
@[simp] theorem Grove.retireTo_basePasses (g : Grove) (pc : Word) : (g.retireTo pc).basePasses = g.basePasses := rfl
@[simp] theorem Grove.mapLanes_basePasses (g : Grove) (m : LaneMask) (f : Nat → Lane → Lane) :
    (g.mapLanes m f).basePasses = g.basePasses := rfl
@[simp] theorem Grove.setS_basePasses (g : Grove) (n : Nat) (v : Word) : (g.setS n v).basePasses = g.basePasses := rfl
@[simp] theorem Grove.setK_basePasses (g : Grove) (n : Nat) (m : LaneMask) :
    (g.setK n m).basePasses = g.basePasses := rfl
@[simp] theorem Grove.retireTo_fpflags (g : Grove) (pc : Word) : (g.retireTo pc).fpflags = g.fpflags := rfl
@[simp] theorem Grove.mapLanes_fpflags (g : Grove) (m : LaneMask) (f : Nat → Lane → Lane) :
    (g.mapLanes m f).fpflags = g.fpflags := rfl
@[simp] theorem Grove.setS_fpflags (g : Grove) (n : Nat) (v : Word) : (g.setS n v).fpflags = g.fpflags := rfl
@[simp] theorem Grove.setK_fpflags (g : Grove) (n : Nat) (m : LaneMask) :
    (g.setK n m).fpflags = g.fpflags := rfl
@[simp] theorem Grove.retireTo_phase (g : Grove) (pc : Word) : (g.retireTo pc).phase = g.phase := rfl
@[simp] theorem Grove.mapLanes_phase (g : Grove) (m : LaneMask) (f : Nat → Lane → Lane) :
    (g.mapLanes m f).phase = g.phase := rfl
@[simp] theorem Grove.setS_phase (g : Grove) (n : Nat) (v : Word) : (g.setS n v).phase = g.phase := rfl
@[simp] theorem Grove.setK_phase (g : Grove) (n : Nat) (m : LaneMask) :
    (g.setK n m).phase = g.phase := rfl
@[simp] theorem Grove.retireTo_pfx (g : Grove) (pc : Word) : (g.retireTo pc).pfx = none := rfl
@[simp] theorem Grove.mapLanes_pfx (g : Grove) (m : LaneMask) (f : Nat → Lane → Lane) :
    (g.mapLanes m f).pfx = g.pfx := rfl
@[simp] theorem Grove.setS_pfx (g : Grove) (n : Nat) (v : Word) : (g.setS n v).pfx = g.pfx := rfl
@[simp] theorem Grove.setK_pfx (g : Grove) (n : Nat) (m : LaneMask) :
    (g.setK n m).pfx = g.pfx := rfl
@[simp] theorem Grove.retireTo_held (g : Grove) (pc : Word) : (g.retireTo pc).held = none := rfl
@[simp] theorem Grove.mapLanes_held (g : Grove) (m : LaneMask) (f : Nat → Lane → Lane) :
    (g.mapLanes m f).held = g.held := rfl
@[simp] theorem Grove.setS_held (g : Grove) (n : Nat) (v : Word) : (g.setS n v).held = g.held := rfl
@[simp] theorem Grove.setK_held (g : Grove) (n : Nat) (m : LaneMask) :
    (g.setK n m).held = g.held := rfl
@[simp] theorem Grove.mapLanes_trap (g : Grove) (m : LaneMask) (f : Nat → Lane → Lane) :
    (g.mapLanes m f).trap = g.trap := rfl
@[simp] theorem Grove.setS_trap (g : Grove) (n : Nat) (v : Word) : (g.setS n v).trap = g.trap := rfl
@[simp] theorem Grove.setK_trap (g : Grove) (n : Nat) (m : LaneMask) :
    (g.setK n m).trap = g.trap := rfl
@[simp] theorem Grove.retireTo_parked (g : Grove) (pc : Word) : (g.retireTo pc).parked = g.parked := rfl
@[simp] theorem Grove.mapLanes_parked (g : Grove) (m : LaneMask) (f : Nat → Lane → Lane) :
    (g.mapLanes m f).parked = g.parked := rfl
@[simp] theorem Grove.setS_parked (g : Grove) (n : Nat) (v : Word) : (g.setS n v).parked = g.parked := rfl
@[simp] theorem Grove.setK_parked (g : Grove) (n : Nat) (m : LaneMask) :
    (g.setK n m).parked = g.parked := rfl
@[simp] theorem Grove.mapLanes_supp (g : Grove) (m : LaneMask) (f : Nat → Lane → Lane) :
    (g.mapLanes m f).supp = g.supp := rfl
@[simp] theorem Grove.setS_supp (g : Grove) (n : Nat) (v : Word) : (g.setS n v).supp = g.supp := rfl
@[simp] theorem Grove.setK_supp (g : Grove) (n : Nat) (m : LaneMask) :
    (g.setK n m).supp = g.supp := rfl
@[simp] theorem Grove.retireTo_stepst (g : Grove) (pc : Word) : (g.retireTo pc).stepst = g.stepst := rfl
@[simp] theorem Grove.mapLanes_stepst (g : Grove) (m : LaneMask) (f : Nat → Lane → Lane) :
    (g.mapLanes m f).stepst = g.stepst := rfl
@[simp] theorem Grove.setS_stepst (g : Grove) (n : Nat) (v : Word) : (g.setS n v).stepst = g.stepst := rfl
@[simp] theorem Grove.setK_stepst (g : Grove) (n : Nat) (m : LaneMask) :
    (g.setK n m).stepst = g.stepst := rfl
@[simp] theorem Grove.retireTo_dbgHalt (g : Grove) (pc : Word) : (g.retireTo pc).dbgHalt = g.dbgHalt := rfl
@[simp] theorem Grove.mapLanes_dbgHalt (g : Grove) (m : LaneMask) (f : Nat → Lane → Lane) :
    (g.mapLanes m f).dbgHalt = g.dbgHalt := rfl
@[simp] theorem Grove.setS_dbgHalt (g : Grove) (n : Nat) (v : Word) : (g.setS n v).dbgHalt = g.dbgHalt := rfl
@[simp] theorem Grove.setK_dbgHalt (g : Grove) (n : Nat) (m : LaneMask) :
    (g.setK n m).dbgHalt = g.dbgHalt := rfl
@[simp] theorem Grove.retireTo_single (g : Grove) (pc : Word) : (g.retireTo pc).single = g.single := rfl
@[simp] theorem Grove.mapLanes_single (g : Grove) (m : LaneMask) (f : Nat → Lane → Lane) :
    (g.mapLanes m f).single = g.single := rfl
@[simp] theorem Grove.setS_single (g : Grove) (n : Nat) (v : Word) : (g.setS n v).single = g.single := rfl
@[simp] theorem Grove.setK_single (g : Grove) (n : Nat) (m : LaneMask) :
    (g.setK n m).single = g.single := rfl
@[simp] theorem Grove.retireTo_singleDone (g : Grove) (pc : Word) : (g.retireTo pc).singleDone = g.single.isSome := rfl
@[simp] theorem Grove.mapLanes_singleDone (g : Grove) (m : LaneMask) (f : Nat → Lane → Lane) :
    (g.mapLanes m f).singleDone = g.singleDone := rfl
@[simp] theorem Grove.setS_singleDone (g : Grove) (n : Nat) (v : Word) : (g.setS n v).singleDone = g.singleDone := rfl
@[simp] theorem Grove.setK_singleDone (g : Grove) (n : Nat) (m : LaneMask) :
    (g.setK n m).singleDone = g.singleDone := rfl
@[simp] theorem Grove.retireTo_redo (g : Grove) (pc : Word) : (g.retireTo pc).redo = none := rfl
@[simp] theorem Grove.mapLanes_redo (g : Grove) (m : LaneMask) (f : Nat → Lane → Lane) :
    (g.mapLanes m f).redo = g.redo := rfl
@[simp] theorem Grove.setS_redo (g : Grove) (n : Nat) (v : Word) : (g.setS n v).redo = g.redo := rfl
@[simp] theorem Grove.setK_redo (g : Grove) (n : Nat) (m : LaneMask) :
    (g.setK n m).redo = g.redo := rfl
@[simp] theorem Grove.retireTo_divShape (g : Grove) (pc : Word) : (g.retireTo pc).divShape = g.divShape := rfl
@[simp] theorem Grove.mapLanes_divShape (g : Grove) (m : LaneMask) (f : Nat → Lane → Lane) :
    (g.mapLanes m f).divShape = g.divShape := rfl
@[simp] theorem Grove.setS_divShape (g : Grove) (n : Nat) (v : Word) : (g.setS n v).divShape = g.divShape := rfl
@[simp] theorem Grove.setK_divShape (g : Grove) (n : Nat) (m : LaneMask) :
    (g.setK n m).divShape = g.divShape := rfl
@[simp] theorem Grove.retireTo_barLast (g : Grove) (pc : Word) : (g.retireTo pc).barLast = g.barLast := rfl
@[simp] theorem Grove.mapLanes_barLast (g : Grove) (m : LaneMask) (f : Nat → Lane → Lane) :
    (g.mapLanes m f).barLast = g.barLast := rfl
@[simp] theorem Grove.setS_barLast (g : Grove) (n : Nat) (v : Word) : (g.setS n v).barLast = g.barLast := rfl
@[simp] theorem Grove.setK_barLast (g : Grove) (n : Nat) (m : LaneMask) :
    (g.setK n m).barLast = g.barLast := rfl
@[simp] theorem Grove.retireTo_ldx (g : Grove) (pc : Word) : (g.retireTo pc).ldx = g.ldx := rfl
@[simp] theorem Grove.mapLanes_ldx (g : Grove) (m : LaneMask) (f : Nat → Lane → Lane) :
    (g.mapLanes m f).ldx = g.ldx := rfl
@[simp] theorem Grove.setS_ldx (g : Grove) (n : Nat) (v : Word) : (g.setS n v).ldx = g.ldx := rfl
@[simp] theorem Grove.setK_ldx (g : Grove) (n : Nat) (m : LaneMask) :
    (g.setK n m).ldx = g.ldx := rfl
@[simp] theorem Grove.retireTo_ldxErrs (g : Grove) (pc : Word) : (g.retireTo pc).ldxErrs = g.ldxErrs := rfl
@[simp] theorem Grove.mapLanes_ldxErrs (g : Grove) (m : LaneMask) (f : Nat → Lane → Lane) :
    (g.mapLanes m f).ldxErrs = g.ldxErrs := rfl
@[simp] theorem Grove.setS_ldxErrs (g : Grove) (n : Nat) (v : Word) : (g.setS n v).ldxErrs = g.ldxErrs := rfl
@[simp] theorem Grove.setK_ldxErrs (g : Grove) (n : Nat) (m : LaneMask) :
    (g.setK n m).ldxErrs = g.ldxErrs := rfl
@[simp] theorem Grove.retireTo_prog (g : Grove) (pc : Word) : (g.retireTo pc).prog = Prog.none := rfl
@[simp] theorem Grove.mapLanes_prog (g : Grove) (m : LaneMask) (f : Nat → Lane → Lane) :
    (g.mapLanes m f).prog = g.prog := rfl
@[simp] theorem Grove.setS_prog (g : Grove) (n : Nat) (v : Word) : (g.setS n v).prog = g.prog := rfl
@[simp] theorem Grove.setK_prog (g : Grove) (n : Nat) (m : LaneMask) :
    (g.setK n m).prog = g.prog := rfl
@[simp] theorem Grove.retireTo_wait (g : Grove) (pc : Word) : (g.retireTo pc).wait = .none := rfl
@[simp] theorem Grove.mapLanes_wait (g : Grove) (m : LaneMask) (f : Nat → Lane → Lane) :
    (g.mapLanes m f).wait = g.wait := rfl
@[simp] theorem Grove.setS_wait (g : Grove) (n : Nat) (v : Word) : (g.setS n v).wait = g.wait := rfl
@[simp] theorem Grove.setK_wait (g : Grove) (n : Nat) (m : LaneMask) :
    (g.setK n m).wait = g.wait := rfl
@[simp] theorem Grove.retireTo_age (g : Grove) (pc : Word) : (g.retireTo pc).age = g.age := rfl
@[simp] theorem Grove.mapLanes_age (g : Grove) (m : LaneMask) (f : Nat → Lane → Lane) :
    (g.mapLanes m f).age = g.age := rfl
@[simp] theorem Grove.setS_age (g : Grove) (n : Nat) (v : Word) : (g.setS n v).age = g.age := rfl
@[simp] theorem Grove.setK_age (g : Grove) (n : Nat) (m : LaneMask) :
    (g.setK n m).age = g.age := rfl
@[simp] theorem Grove.retireTo_outStores (g : Grove) (pc : Word) : (g.retireTo pc).outStores = g.outStores := rfl
@[simp] theorem Grove.mapLanes_outStores (g : Grove) (m : LaneMask) (f : Nat → Lane → Lane) :
    (g.mapLanes m f).outStores = g.outStores := rfl
@[simp] theorem Grove.setS_outStores (g : Grove) (n : Nat) (v : Word) : (g.setS n v).outStores = g.outStores := rfl
@[simp] theorem Grove.setK_outStores (g : Grove) (n : Nat) (m : LaneMask) :
    (g.setK n m).outStores = g.outStores := rfl
@[simp] theorem Grove.retireTo_outWbs (g : Grove) (pc : Word) : (g.retireTo pc).outWbs = g.outWbs := rfl
@[simp] theorem Grove.mapLanes_outWbs (g : Grove) (m : LaneMask) (f : Nat → Lane → Lane) :
    (g.mapLanes m f).outWbs = g.outWbs := rfl
@[simp] theorem Grove.setS_outWbs (g : Grove) (n : Nat) (v : Word) : (g.setS n v).outWbs = g.outWbs := rfl
@[simp] theorem Grove.setK_outWbs (g : Grove) (n : Nat) (m : LaneMask) :
    (g.setK n m).outWbs = g.outWbs := rfl
@[simp] theorem Grove.retireTo_openCopies (g : Grove) (pc : Word) : (g.retireTo pc).openCopies = g.openCopies := rfl
@[simp] theorem Grove.mapLanes_openCopies (g : Grove) (m : LaneMask) (f : Nat → Lane → Lane) :
    (g.mapLanes m f).openCopies = g.openCopies := rfl
@[simp] theorem Grove.setS_openCopies (g : Grove) (n : Nat) (v : Word) : (g.setS n v).openCopies = g.openCopies := rfl
@[simp] theorem Grove.setK_openCopies (g : Grove) (n : Nat) (m : LaneMask) :
    (g.setK n m).openCopies = g.openCopies := rfl
@[simp] theorem Grove.retireTo_batches (g : Grove) (pc : Word) : (g.retireTo pc).batches = g.batches := rfl
@[simp] theorem Grove.mapLanes_batches (g : Grove) (m : LaneMask) (f : Nat → Lane → Lane) :
    (g.mapLanes m f).batches = g.batches := rfl
@[simp] theorem Grove.setS_batches (g : Grove) (n : Nat) (v : Word) : (g.setS n v).batches = g.batches := rfl
@[simp] theorem Grove.setK_batches (g : Grove) (n : Nat) (m : LaneMask) :
    (g.setK n m).batches = g.batches := rfl
@[simp] theorem Grove.retireTo_pend (g : Grove) (pc : Word) : (g.retireTo pc).pend = g.pend := rfl
@[simp] theorem Grove.mapLanes_pend (g : Grove) (m : LaneMask) (f : Nat → Lane → Lane) :
    (g.mapLanes m f).pend = g.pend := rfl
@[simp] theorem Grove.setS_pend (g : Grove) (n : Nat) (v : Word) : (g.setS n v).pend = g.pend := rfl
@[simp] theorem Grove.setK_pend (g : Grove) (n : Nat) (m : LaneMask) :
    (g.setK n m).pend = g.pend := rfl
@[simp] theorem Grove.retireTo_kept (g : Grove) (pc : Word) : (g.retireTo pc).kept = g.kept := rfl
@[simp] theorem Grove.mapLanes_kept (g : Grove) (m : LaneMask) (f : Nat → Lane → Lane) :
    (g.mapLanes m f).kept = g.kept := rfl
@[simp] theorem Grove.setS_kept (g : Grove) (n : Nat) (v : Word) : (g.setS n v).kept = g.kept := rfl
@[simp] theorem Grove.setK_kept (g : Grove) (n : Nat) (m : LaneMask) :
    (g.setK n m).kept = g.kept := rfl
@[simp] theorem Grove.retireTo_skidLeft (g : Grove) (pc : Word) : (g.retireTo pc).skidLeft = g.skidLeft - 1 := rfl
@[simp] theorem Grove.mapLanes_skidLeft (g : Grove) (m : LaneMask) (f : Nat → Lane → Lane) :
    (g.mapLanes m f).skidLeft = g.skidLeft := rfl
@[simp] theorem Grove.setS_skidLeft (g : Grove) (n : Nat) (v : Word) : (g.setS n v).skidLeft = g.skidLeft := rfl
@[simp] theorem Grove.setK_skidLeft (g : Grove) (n : Nat) (m : LaneMask) :
    (g.setK n m).skidLeft = g.skidLeft := rfl
@[simp] theorem Grove.retireTo_lanes (g : Grove) (pc : Word) : (g.retireTo pc).lanes = g.lanes := rfl
@[simp] theorem Grove.mapLanes_lanes (g : Grove) (m : LaneMask) (f : Nat → Lane → Lane) :
    (g.mapLanes m f).lanes = g.lanes.mapIdx (fun l x => if m.getLsbD l then f l x else x) := rfl
@[simp] theorem Grove.setS_lanes (g : Grove) (n : Nat) (v : Word) : (g.setS n v).lanes = g.lanes := rfl
@[simp] theorem Grove.setK_lanes (g : Grove) (n : Nat) (m : LaneMask) :
    (g.setK n m).lanes = g.lanes := rfl

@[simp] theorem Grove.retireTo_taintFence (g : Grove) (pc : Word) : (g.retireTo pc).taintFence = g.taintFence := rfl
@[simp] theorem Grove.mapLanes_taintFence (g : Grove) (m : LaneMask) (f : Nat → Lane → Lane) :
    (g.mapLanes m f).taintFence = g.taintFence := rfl
@[simp] theorem Grove.setS_taintFence (g : Grove) (n : Nat) (v : Word) : (g.setS n v).taintFence = g.taintFence := rfl
@[simp] theorem Grove.setK_taintFence (g : Grove) (n : Nat) (m : LaneMask) :
    (g.setK n m).taintFence = g.taintFence := rfl
@[simp] theorem Grove.retireTo_watchTrap (g : Grove) (pc : Word) : (g.retireTo pc).watchTrap = g.watchTrap := rfl
@[simp] theorem Grove.mapLanes_watchTrap (g : Grove) (m : LaneMask) (f : Nat → Lane → Lane) :
    (g.mapLanes m f).watchTrap = g.watchTrap := rfl
@[simp] theorem Grove.setS_watchTrap (g : Grove) (n : Nat) (v : Word) : (g.setS n v).watchTrap = g.watchTrap := rfl
@[simp] theorem Grove.setK_watchTrap (g : Grove) (n : Nat) (m : LaneMask) :
    (g.setK n m).watchTrap = g.watchTrap := rfl

/-! Without an execution for some lanes only, retiring moves PC and leaves the paths as they are. -/

theorem Grove.resumed_none {g : Grove} (h : g.redo = none) : g.resumed = g := by simp [Grove.resumed, h]

theorem Grove.retireTo_pc {g : Grove} {pc : Word} (h : g.redo = none) : (g.retireTo pc).pc = pc := by
  simp [Grove.retireTo, Grove.resumed, h]
theorem Grove.retireTo_active {g : Grove} {pc : Word} (h : g.redo = none) : (g.retireTo pc).active = g.active := by
  simp [Grove.retireTo, Grove.resumed, h]
theorem Grove.retireTo_div {g : Grove} {pc : Word} (h : g.redo = none) : (g.retireTo pc).div = g.div := by
  simp [Grove.retireTo, Grove.resumed, h]
theorem Grove.retireTo_supp {g : Grove} {pc : Word} (h : g.redo = none) : (g.retireTo pc).supp = g.supp := by
  simp [Grove.retireTo, Grove.resumed, h]

/-- Outside a halt the exception registers stay when an instruction retires. -/
theorem Grove.retireTo_trap {g : Grove} {pc : Word} (h : g.skidLeft = 0) : (g.retireTo pc).trap = g.trap := by
  simp [Grove.retireTo, h]

/-! ## Looking up what was stored -/

theorem State.stand?_uid {s : State} {u : Nat} {st : Stand} (h : s.stand? u = some st) : st.uid = u := by
  have := List.find?_some h
  simpa using this

theorem Stand.grove?_slot {st : Stand} {n : Nat} {g : Grove} (h : st.grove? n = some g) : g.slot = n := by
  have := List.find?_some h
  simpa using this

/-- A stand changed by a function that keeps its identity is found changed. -/
theorem State.stand?_modStand {s : State} {u : Nat} {f : Stand → Stand} (hf : ∀ st, (f st).uid = st.uid) (v : Nat) :
    (s.modStand u f).stand? v = (s.stand? v).map (fun st => if st.uid = u then f st else st) := by
  simp only [State.stand?, State.modStand, List.find?_map]
  congr 1
  apply List.find?_congr
  intro st _
  simp only [Function.comp_apply]
  split <;> simp [hf]

/-- A grove stored in its stand is found there. -/
theorem Stand.grove?_setGrove {st : Stand} {g : Grove} (n : Nat) :
    (st.setGrove g).grove? n = (st.grove? n).map (fun h => if h.slot = g.slot then g else h) := by
  simp only [Stand.grove?, Stand.setGrove, List.find?_map]
  congr 1
  apply List.find?_congr
  intro h _
  simp only [Function.comp_apply]
  split <;> simp_all

@[simp] theorem Stand.setGrove_uid (st : Stand) (g : Grove) : (st.setGrove g).uid = st.uid := rfl

theorem State.stand?_setGrove {s : State} {u : Nat} {g : Grove} (v : Nat) :
    (s.setGrove u g).stand? v = (s.stand? v).map (fun st => if st.uid = u then st.setGrove g else st) :=
  State.stand?_modStand (f := fun st => st.setGrove g) (fun _ => rfl) v

/-- The grove that a grove instruction stores is the one found afterwards. -/
theorem State.grove?_setGrove {s : State} {st : Stand} {g h : Grove} (hs : s.stand? st.uid = some st)
    (hg : st.grove? g.slot = some g) (hh : h.slot = g.slot) :
    ((s.setGrove st.uid h).stand? st.uid).bind (fun y => y.grove? g.slot) = some h := by
  rw [State.stand?_setGrove, hs]
  simp [Stand.grove?_setGrove, hg, hh]

end Sys2Proof.Machine
end

