-- ==== Sys2Proof/Safety.lean ====
section
/-! DEFINITION. The terms that claims are stated in: a step that goes on, an instruction that passes the checks of
10 R223 and acts, and the canonical form of every byte memory. -/

namespace Sys2Proof

open Machine

/-- A step that goes on. -/
def Goes (s : State) : Prop := ∃ t, step s = .next t

/-- Every byte memory of the state in canonical form (device memory, host memory, the staging window and each stand's
scratch), and the table of the halves that the host caches too. -/
def MemoryForm (s : State) : Prop :=
  Memory.wf s.m.mem = true ∧ Memory.wf s.m.hostMem = true ∧ Memory.wf s.m.staging = true ∧ spWf 0 s.m.halves = true ∧
    ∀ st ∈ s.stands ++ s.d.saved, Memory.wf st.scratch = true

/-- Grove `g` of stand `st` has the turn in state `s`. -/
structure Acts (s : State) (st : Stand) (g : Grove) : Prop where
  cur : s.cur = some ⟨st.uid, g.slot⟩
  stand : s.stand? st.uid = some st
  grove : st.grove? g.slot = some g

/-- No check of 10 R223 keeps the instruction from acting, and some lane is enabled unless it acts whatever the mask. -/
structure Passes (i : Instr) (st : Stand) (g : Grove) : Prop where
  /-- R230: with no enabled lane an instruction of another kind only moves the pc. -/
  enabled : (i.always || g.enabled != 0#1024) = true
  /-- detail 0x06 -/
  literal : i.namesImm = g.pfx.isSome
  /-- details 0x02, 0x03, 0x04, 0x05 and 0x07 -/
  wellFormed : i.wellFormed = true
  /-- detail 0x03 of a conversion -/
  counts : cvtCountBad g.type i = false
  /-- detail 0x21 -/
  type : (match i.types with | some ts => ts.contains g.type | none => true) = true
  /-- detail 0x20 -/
  geometry : geomBad g i = false
  /-- BOUNDS, detail 1 -/
  boundary : (i.operands.any (fun o => opdBoundBad o g.boundary (stTiles st))) = false
  /-- 10 R227: no reply of an `ldx` is still due in a register that it touches -/
  arrived : pendingIn g (touchedRegs st i) = false
  /-- 13 R284: none of the registers it reads holds a reply with an error -/
  intact : errorsIn g (readRegs st i) = []

/-- Grove `g` of stand `st` has the turn and instruction `i` acts. -/
structure Runs (i : Instr) (s : State) (st : Stand) (g : Grove) : Prop extends Acts s st g, Passes i st g

/-- The matrix sequencer of stand `st` has the turn. -/
structure SeqActs (s : State) (st : Stand) : Prop where
  cur : s.cur = some ⟨st.uid, seqSlot⟩
  stand : s.stand? st.uid = some st

/-- No rime predicate of the stand's core watches the stand (17 R355). -/
def Unwatched (s : State) (st : Stand) : Prop := ((s.d.core st.core).rime.any (fun r => r.watches st)) = false

/-! ## Elements and results -/

/-- Elt(v, j, t) of 10 R230: sub-element `j` of a group of registers, lowest register first. -/
def elt (t : Nat) (ws : List Word) (j : Nat) : BitVec (typeBits t) :=
  (ws.getD (j / typeCount t) 0).extractLsb' (j % typeCount t * typeBits t) (typeBits t)

/-- The `w` registers of a lane from `r` up. -/
def group (x : Lane) (r w : Nat) : List Word := (List.range w).map (fun i => x.reg (r + i))

/-- The instruction retires, and lane `l` of every enabled lane holds `val l` in the `w` registers from `r` up. -/
def GroupResult (i : Instr) (s : State) (st : Stand) (g : Grove) (r w : Nat) (val : Nat → List Word) : Prop :=
  ∃ h : Grove, exec i s = .next (s.setGrove st.uid h.retire) ∧
    ∀ l, l < g.lam → g.enabled.getLsbD l = true → group (h.lane l) r w = val l

/-- As `GroupResult`, element by element: `n` elements of the group under the type of MODE. -/
def EltResult (i : Instr) (s : State) (st : Stand) (g : Grove) (r w : Nat)
    (val : Nat → Nat → BitVec (typeBits g.type)) : Prop :=
  ∃ h : Grove, exec i s = .next (s.setGrove st.uid h.retire) ∧
    ∀ l j, l < g.lam → g.enabled.getLsbD l = true → j < w * typeCount g.type →
      elt g.type (group (h.lane l) r w) j = val l j

/-- The instruction retires, and predicate `n` of every enabled lane holds `val l`. -/
def PredResult (i : Instr) (s : State) (st : Stand) (g : Grove) (n : Nat) (val : Nat → Bool) : Prop :=
  ∃ h : Grove, exec i s = .next (s.setGrove st.uid h.retire) ∧
    ∀ l, l < g.lam → g.enabled.getLsbD l = true → (h.lane l).p.getLsbD n = val l

/-- The lanes below λ of a mask, rising. -/
def lanesOf (g : Grove) (m : LaneMask) : List Nat := (List.range g.lam).filter (fun l => m.getLsbD l)

end Sys2Proof
end

