-- ==== Sys2Proof/Laws/Ops.lean ====
section
/-! SUPPORT. What the shared operations of grove instructions do. -/

namespace Sys2Proof

open Machine

/-- The grove whose turn it is. -/
theorem Acts.gx {s : State} {st : Stand} {g : Grove} (h : Acts s st g) (i : Instr) :
    gx? s i = some ⟨s, st, g, g.enabled, i⟩ := by
  simp [gx?, h.cur, h.stand, h.grove]

theorem Passes.illegal {i : Instr} {s : State} {st : Stand} {g : Grove} (h : Passes i st g) :
    (Gx.mk s st g g.enabled i).illegal = none := by
  have hw : i.illegalDetail = none := by simpa [Instr.wellFormed] using h.wellFormed
  simp [Gx.illegal, hw, h.counts]

/-- An instruction that passes the checks is let through by them. -/
theorem Passes.check {i : Instr} {s : State} {st : Stand} {g : Grove} (h : Passes i st g) :
    (Gx.mk s st g g.enabled i).check = .go := by
  have he := h.enabled
  have ht := h.type
  rw [Gx.check, h.illegal, if_neg (by revert he; cases i.always <;> simp)]
  cases hi : i.types <;> simp_all [h.literal, h.geometry, h.boundary, h.arrived, h.intact]

/-- An instruction that passes the checks has its own effect. -/
theorem Runs.groveInstr {i : Instr} {s : State} {st : Stand} {g : Grove} (h : Runs i s st g) (body : Gx → State) :
    groveInstr i s body = .next (body ⟨s, st, g, g.enabled, i⟩) := by
  simp only [Machine.groveInstr, h.toActs.gx, h.toPasses.check]

theorem watchCount_unwatched {s : State} {st : Stand} {g : Grove} {ls : List Nat} {hit : Rime → Nat → Bool}
    (h : Unwatched s st) : watchCount s st g ls hit = (s, none) := by
  have h' : ((s.d.core st.core).rime.any (fun r => r.watches st)) = false := h
  simp [watchCount, h']

end Sys2Proof
end

