-- ==== Sys2Proof/Laws/Lanes.lean ====
section
/-! SUPPORT. Lanes, register groups and elements: what a write of a group leaves, and what an element of a packed group
is. -/

namespace Sys2Proof

open Machine

/-! ## Lanes -/

theorem Machine.Grove.lane_mapLanes (g : Grove) (m : LaneMask) (f : Nat → Lane → Lane) (l : Nat) :
    (g.mapLanes m f).lane l = if l < g.lanes.length ∧ m.getLsbD l = true then f l (g.lane l) else g.lane l := by
  simp only [Grove.lane, Grove.mapLanes, List.getD_eq_getElem?_getD, List.getElem?_mapIdx]
  by_cases h : l < g.lanes.length <;> simp [h]

@[simp] theorem Machine.Grove.lam_mapLanes (g : Grove) (m : LaneMask) (f : Nat → Lane → Lane) :
    (g.mapLanes m f).lam = g.lam := by simp [Grove.lam]

/-! ## Register groups -/

theorem vget_setIfInBounds {α : Type} {n : Nat} (v : Vector α n) (i j : Nat) (x d : α) :
    vget (v.setIfInBounds i x) j d = if i = j ∧ i < n then x else vget v j d := by
  simp only [vget, Vector.getElem?_setIfInBounds]
  by_cases h : i = j
  · subst h
    by_cases hi : i < n <;> simp [hi]
  · simp [h]

/-- The registers that a fold of writes changes. -/
theorem foldl_setRegs (ws : List Word) (n k : Nat) (v : Vector Word 56) (r : Nat) :
    vget ((ws.zipIdx k).foldl (fun v (w, i) => v.setIfInBounds (n + i) w) v) r 0 =
      if n + k ≤ r ∧ r < n + k + ws.length ∧ r < 56 then ws.getD (r - (n + k)) 0 else vget v r 0 := by
  induction ws generalizing k v with
  | nil => simp; omega
  | cons w ws ih =>
    simp only [List.zipIdx_cons, List.foldl_cons, ih, vget_setIfInBounds, List.length_cons]
    by_cases h1 : r = n + k
    · subst h1
      by_cases h56 : n + k < 56 <;> simp [h56]
    · by_cases h2 : n + k ≤ r ∧ r < n + k + (ws.length + 1) ∧ r < 56
      · have e : r - (n + k) = (r - (n + (k + 1))) + 1 := by omega
        rw [if_pos (by omega), if_pos h2, e, List.getD_cons_succ]
      · rw [if_neg (by omega), if_neg h2, if_neg (by omega)]

/-- What a lane's registers hold after a write of a group; register 56 and above discard. -/
theorem Machine.Lane.reg_setRegs (x : Lane) (n : Nat) (ws : List Word) (tn : Bool) (r : Nat) :
    (x.setRegs n ws tn).reg r = if n ≤ r ∧ r < n + ws.length ∧ r < 56 then ws.getD (r - n) 0 else x.reg r := by
  unfold Lane.setRegs
  split
  · rw [if_neg (by omega)]
  · exact foldl_setRegs ws n 0 x.v r

theorem foldl_taint (ls : List Nat) (n : Nat) (tn : Bool) (t : BitVec 56) (r : Nat) (h : ∀ i ∈ ls, n + i ≠ r) :
    (ls.foldl (fun t i => if tn then t ||| (1#56 <<< (n + i)) else t &&& ~~~(1#56 <<< (n + i))) t).getLsbD r = t.getLsbD r := by
  induction ls generalizing t with
  | nil => rfl
  | cons a ls ih =>
    simp only [List.foldl_cons]
    rw [ih _ (fun i hi => h i (by simp [hi]))]
    have ha := h a (by simp)
    by_cases hr : r < 56
    · cases tn <;> simp [hr] <;> intros <;> omega
    · rw [BitVec.getLsbD_of_ge _ _ (by omega), BitVec.getLsbD_of_ge _ _ (by omega)]

@[simp] theorem Machine.Lane.setRegs_p (x : Lane) (n : Nat) (ws : List Word) (tn : Bool) : (x.setRegs n ws tn).p = x.p := by
  unfold Lane.setRegs; split <;> rfl

@[simp] theorem Machine.Lane.setRegs_flags (x : Lane) (n : Nat) (ws : List Word) (tn : Bool) :
    (x.setRegs n ws tn).flags = x.flags := by
  unfold Lane.setRegs; split <;> rfl

/-- The predicates after a write of one. -/
theorem Machine.Lane.p_setP (x : Lane) (n : Nat) (b : Bool) (m : Nat) (hm : m < 8) :
    (x.setP n b).p.getLsbD m = if m = n then b else x.p.getLsbD m := by
  unfold Lane.setP
  by_cases h : m = n
  · subst h; cases b <;> simp [hm]
  · cases b <;> simp [h, hm] <;> intros <;> omega

/-! ## Elements -/

theorem packElems_length (t n : Nat) (es : List Nat) : (packElems t n es).length = n := by
  induction n generalizing es with
  | zero => rfl
  | succ n ih => simp [packElems, ih]

theorem srcRegs_length (g : Grove) (b : BitVec 8) (t w l : Nat) : (srcRegs g b t w l).length = w := by
  unfold srcRegs; simp only; split <;> simp

theorem typeBits_mul_typeCount (t : Nat) : typeBits t * typeCount t = 64 := by
  unfold typeCount typeBits; split <;> rfl

theorem typeCount_pos (t : Nat) : 0 < typeCount t := by
  unfold typeCount typeBits; split <;> decide

theorem typeBits_pos (t : Nat) : 0 < typeBits t := by
  unfold typeBits; split <;> decide

/-- Digit `j` of the number whose digits are `es`. -/
theorem foldr_digit (b : Nat) (es : List Nat) (j : Nat) :
    es.foldr (fun e acc => e % 2 ^ b + 2 ^ b * acc) 0 / 2 ^ (j * b) % 2 ^ b = es.getD j 0 % 2 ^ b := by
  induction es generalizing j with
  | nil => simp
  | cons e es ih =>
    simp only [List.foldr_cons]
    cases j with
    | zero => simp [Nat.add_mul_mod_self_left]
    | succ j =>
      rw [List.getD_cons_succ, ← ih j, Nat.succ_mul, Nat.add_comm (j * b) b, Nat.pow_add, ← Nat.div_div_eq_div_mul]
      congr 2
      rw [Nat.add_mul_div_left _ _ (Nat.two_pow_pos b), Nat.div_eq_of_lt (Nat.mod_lt _ (Nat.two_pow_pos b)), Nat.zero_add]

/-- An element of one packed register. -/
theorem packWord_digit (t : Nat) (es : List Nat) (j : Nat) (hj : j < typeCount t) :
    (packWord t es).toNat / 2 ^ (j * typeBits t) % 2 ^ typeBits t = es.getD j 0 % 2 ^ typeBits t := by
  rw [packWord, BitVec.toNat_ofNat, ← foldr_digit (typeBits t) es j]
  have h64 : (j + 1) * typeBits t ≤ 64 := by
    calc (j + 1) * typeBits t ≤ typeCount t * typeBits t := Nat.mul_le_mul_right _ hj
      _ = 64 := by rw [Nat.mul_comm, typeBits_mul_typeCount]
  generalize List.foldr _ _ es = v
  rw [Nat.succ_mul] at h64
  have e : (2 : Nat) ^ 64 = 2 ^ (j * typeBits t) * (2 ^ typeBits t * 2 ^ (64 - (j * typeBits t + typeBits t))) := by
    rw [← Nat.pow_add, ← Nat.pow_add]; congr 1; omega
  rw [e, Nat.mod_mul_right_div_self, Nat.mod_mul_right_mod]

theorem packElems_getD (t n : Nat) (es : List Nat) (i : Nat) (hi : i < n) :
    (packElems t n es).getD i 0 = packWord t ((es.drop (i * typeCount t)).take (typeCount t)) := by
  induction n generalizing es i with
  | zero => omega
  | succ n ih =>
    cases i with
    | zero => simp [packElems]
    | succ i =>
      simp only [packElems, List.getD_cons_succ]
      rw [ih _ _ (by omega), List.drop_drop, Nat.succ_mul, Nat.add_comm]

/-- Element `j` of a group packed from elements. -/
theorem packElems_digit (t n : Nat) (es : List Nat) (j : Nat) (hj : j < n * typeCount t) :
    ((packElems t n es).getD (j / typeCount t) 0).toNat / 2 ^ (j % typeCount t * typeBits t) % 2 ^ typeBits t =
      es.getD j 0 % 2 ^ typeBits t := by
  have hp := typeCount_pos t
  have hm := Nat.mod_lt j hp
  have hq : j / typeCount t < n := Nat.div_lt_of_lt_mul (by rw [Nat.mul_comm]; exact hj)
  rw [packElems_getD t n es _ hq, packWord_digit t _ _ hm]
  congr 1
  have e : j / typeCount t * typeCount t + j % typeCount t = j := by rw [Nat.mul_comm]; exact Nat.div_add_mod j _
  simp only [List.getD_eq_getElem?_getD, List.getElem?_take, List.getElem?_drop, hm, if_true, e]

theorem elems_length (t : Nat) (ws : List Word) : (elems t ws).length = ws.length * typeCount t := by
  induction ws with
  | nil => simp [elems]
  | cons w ws ih =>
    simp only [elems, List.flatMap_cons, List.length_append, List.length_map, List.length_range, List.length_cons,
      Nat.succ_mul] at *
    omega

/-- Element `j` of a group of registers, lowest register first. -/
theorem elems_getD (t : Nat) (ws : List Word) (j : Nat) :
    (elems t ws).getD j 0 =
      (ws.getD (j / typeCount t) 0).toNat / 2 ^ (j % typeCount t * typeBits t) % 2 ^ typeBits t := by
  induction ws generalizing j with
  | nil => simp [elems]
  | cons w ws ih =>
    have hp := typeCount_pos t
    rw [show elems t (w :: ws) =
      ((List.range (typeCount t)).map (fun j => w.toNat / 2 ^ (j * typeBits t) % 2 ^ typeBits t)) ++ elems t ws from rfl]
    by_cases h : j < typeCount t
    · rw [List.getD_append _ _ _ _ (by simpa using h), Nat.div_eq_of_lt h, Nat.mod_eq_of_lt h]
      simp [List.getD_eq_getElem?_getD, h]
    · rw [List.getD_append_right _ _ _ _ (by simpa using h)]
      simp only [List.length_map, List.length_range]
      rw [ih]
      obtain ⟨k, rfl⟩ : ∃ k, j = k + typeCount t := ⟨j - typeCount t, by omega⟩
      rw [Nat.add_sub_cancel, Nat.add_div_right _ hp, Nat.add_mod_right, List.getD_cons_succ]

theorem elt_eq (t : Nat) (ws : List Word) (j : Nat) : elt t ws j = BitVec.ofNat (typeBits t) ((elems t ws).getD j 0) := by
  apply BitVec.eq_of_toNat_eq
  rw [elems_getD]
  simp [elt, Nat.shiftRight_eq_div_pow]

/-- Element `j` of a group packed from elements. -/
theorem elt_packElems (t n : Nat) (es : List Nat) (j : Nat) (hj : j < n * typeCount t) :
    elt t (packElems t n es) j = BitVec.ofNat (typeBits t) (es.getD j 0) := by
  apply BitVec.eq_of_toNat_eq
  simp only [elt, BitVec.extractLsb'_toNat, Nat.shiftRight_eq_div_pow, BitVec.toNat_ofNat]
  exact packElems_digit t n es j hj

/-- A V source below 56 is the group of registers it names. -/
theorem srcRegs_group (g : Grove) (b : BitVec 8) (t w l : Nat) (h : opNum b < 56) :
    srcRegs g b t w l = group (g.lane l) (opNum b) w := by
  simp [srcRegs, group, h]

/-- A written group reads back. -/
theorem group_setRegs (x : Lane) (n w : Nat) (ws : List Word) (tn : Bool) (hw : ws.length = w) (h : n + w ≤ 56) :
    group (x.setRegs n ws tn) n w = ws := by
  subst hw
  apply List.ext_getElem (by simp [group])
  intro i h1 h2
  simp only [group, List.getElem_map, List.getElem_range, Lane.reg_setRegs]
  rw [if_pos (by omega)]
  simp [h2]

/-- A destination of a well-formed instruction ends at v55 at most. -/
theorem wellFormed_dst {i : Instr} (hi : i.wellFormed = true) {o : Opd} (ho : o ∈ i.operands)
    (hc : o.cls.isVec = true) (h : opNum o.byte < 56) : opNum o.byte + opW o.byte ≤ 56 := by
  have h0 : i.illegalDetail = none := by simpa [Instr.wellFormed] using hi
  unfold Instr.illegalDetail at h0
  split at h0; · cases h0
  split at h0; · cases h0
  split at h0; · cases h0
  next h4 =>
  have := (by simpa using h4 : ∀ x ∈ i.operands, x.groupOk = true) _ ho
  simp [Opd.groupOk, hc] at this
  omega

/-! ## Instructions that change lanes -/

/-- A lane instruction's next state. -/
theorem Runs.lanes {i : Instr} {s : State} {st : Stand} {g : Grove} (h : Runs i s st g) (f : Nat → Lane → Lane) :
    Machine.groveInstr i s (fun x => x.lanes f) = .next (s.setGrove st.uid (g.mapLanes g.enabled f).retire) :=
  h.groveInstr _

/-- An instruction with flags, where no predicate watches: FPFLAGS takes the flags of every enabled lane. -/
theorem lanesFlags_unwatched {i : Instr} {s : State} {st : Stand} {g : Grove} (hu : Unwatched s st)
    (f : Nat → Lane → Lane) (fl : Nat → FFlags) :
    (Gx.mk s st g g.enabled i).lanesFlags f fl = s.setGrove st.uid
      ({ g.mapLanes g.enabled (fun l ln => (f l ln).addFlags (fl l)) with
          fpflags := (laneList g.lam g.enabled).foldl (fun a l => a ||| fl l) g.fpflags } : Grove).retire := by
  unfold Gx.lanesFlags Gx.finishFlags Gx.flagWatch
  simp only [watchCount_unwatched hu, Grove.lam_mapLanes]
  rw [← Grove.lam_mapLanes g g.enabled (fun l ln => (f l ln).addFlags (fl l))]
  rfl

end Sys2Proof
end

