-- ==== Sys2Proof/Laws/Memory.lean ====
section
/-! SUPPORT. The laws of sparse memories: reading what was written, and the canonical form that every memory operation
keeps. -/

namespace Sys2Proof.Machine

/-! ## Reading after writing -/

theorem spGet_of_lt {α : Type} [DecidableEq α] {d : α} {m : List (Nat × α)} {lo a : Nat} (h : spWfFrom d lo m = true)
    (ha : a < lo) : spGet d m a = d := by
  induction m generalizing lo with
  | nil => rfl
  | cons e r ih =>
    simp only [spWfFrom, Bool.and_eq_true, decide_eq_true_eq] at h
    rw [spGet, if_neg (by omega), ih h.2 (by omega)]

/-- A key reads as written; every other key reads as before. -/
theorem spGet_spSet {α : Type} [DecidableEq α] {d : α} {m : List (Nat × α)} {lo : Nat} (h : spWfFrom d lo m = true)
    (a : Nat) (v : α) (b : Nat) : spGet d (spSet d m a v) b = if b = a then v else spGet d m b := by
  induction m generalizing lo with
  | nil =>
    by_cases hv : v = d
    · by_cases hb : b = a <;> simp [spSet, spGet, hv]
    · by_cases hb : b = a
      · simp [spSet, spGet, hv, hb]
      · simp [spSet, spGet, hv, hb, Ne.symm hb]
  | cons e r ih =>
    obtain ⟨k, w⟩ := e
    simp only [spWfFrom, Bool.and_eq_true, decide_eq_true_eq] at h
    have hk : ∀ x, x ≤ k → spGet d r x = d := fun x hx => spGet_of_lt h.2 (by omega)
    rw [spSet]
    split
    · split
      · by_cases hb : b = a
        · subst hb; simp_all [spGet, hk b (by omega)]; intro; omega
        · simp [hb]
      · by_cases hb : b = a
        · simp [spGet, hb]
        · simp [spGet, hb, Ne.symm hb]
    · split
      · subst_vars
        split
        · subst_vars
          by_cases hb : b = k
          · subst hb; simp [hk b (by omega)]
          · simp [spGet, hb, Ne.symm hb]
        · by_cases hb : b = k
          · simp [spGet, hb]
          · simp [spGet, hb, Ne.symm hb]
      · by_cases hb : b = k
        · subst hb; simp_all [spGet]; intro h; omega
        · simp only [spGet, if_neg (Ne.symm hb), ih h.2]

theorem spSet_wfFrom {α : Type} [DecidableEq α] {d : α} {m : List (Nat × α)} {lo a : Nat} (h : spWfFrom d lo m = true)
    (ha : lo ≤ a) (v : α) : spWfFrom d lo (spSet d m a v) = true := by
  induction m generalizing lo with
  | nil => by_cases hv : v = d <;> simp_all [spSet, spWfFrom]
  | cons e r ih =>
    obtain ⟨k, w⟩ := e
    simp only [spWfFrom, Bool.and_eq_true, decide_eq_true_eq] at h
    rw [spSet]
    split
    · split
      · simp_all [spWfFrom]
      · simp only [spWfFrom, Bool.and_eq_true, decide_eq_true_eq]
        exact ⟨⟨ha, ‹_›⟩, ⟨by omega, h.1.2⟩, h.2⟩
    · split
      · split
        · have : ∀ (r : List (Nat × α)) (p q : Nat), p ≤ q → spWfFrom d q r = true → spWfFrom d p r = true := by
            intro r p q hpq hr
            cases r with
            | nil => rfl
            | cons e r =>
              simp only [spWfFrom, Bool.and_eq_true, decide_eq_true_eq] at hr ⊢
              exact ⟨⟨by omega, hr.1.2⟩, hr.2⟩
          exact this r lo (k + 1) (by omega) h.2
        · subst_vars
          simp only [spWfFrom, Bool.and_eq_true, decide_eq_true_eq]
          exact ⟨⟨h.1.1, ‹_›⟩, h.2⟩
      · simp only [spWfFrom, Bool.and_eq_true, decide_eq_true_eq]
        exact ⟨h.1, ih h.2 (by omega)⟩

/-! ## Memory -/

theorem memByte_memSet {m : List Cell} (h : Memory.wf m = true) (a : Nat) (v : Byte) (b : Nat) :
    memByte (memSet m a v) b = if b = a then v else memByte m b := spGet_spSet h a v b

theorem memSet_wf {m : List Cell} (h : Memory.wf m = true) (a : Nat) (v : Byte) : Memory.wf (memSet m a v) = true :=
  spSet_wfFrom h (Nat.zero_le a) v

theorem memSetBytes_wf {m : List Cell} (h : Memory.wf m = true) (a : Nat) (bs : List Byte) :
    Memory.wf (memSetBytes m a bs) = true := by
  induction bs generalizing m a with
  | nil => exact h
  | cons b bs ih => exact ih (memSet_wf h a b) (a + 1)

/-- The bytes written read as written, every other byte as before. -/
theorem memByte_memSetBytes {m : List Cell} (h : Memory.wf m = true) (a : Nat) (bs : List Byte) (x : Nat) :
    memByte (memSetBytes m a bs) x = if a ≤ x ∧ x < a + bs.length then bs.getD (x - a) 0 else memByte m x := by
  induction bs generalizing m a with
  | nil => rw [memSetBytes, if_neg (by simp)]
  | cons b bs ih =>
    rw [memSetBytes, ih (memSet_wf h a b), memByte_memSet h]
    simp only [List.length_cons]
    by_cases h1 : x = a
    · subst h1; rw [if_neg (by omega), if_pos rfl, if_pos (by omega)]; simp
    · by_cases h2 : a + 1 ≤ x ∧ x < a + 1 + bs.length
      · rw [if_pos h2, if_pos (by omega)]
        obtain ⟨n, hn⟩ : ∃ n, x - a = n + 1 := ⟨x - a - 1, by omega⟩
        rw [hn, show x - (a + 1) = n by omega]; simp
      · rw [if_neg h2, if_neg h1, if_neg (by omega)]

/-- A list of writes, each of which keeps the canonical form, keeps it. -/
theorem foldl_wf {α : Type} (f : List Cell → α → List Cell) (hf : ∀ m x, Memory.wf m = true → Memory.wf (f m x) = true)
    (l : List α) {m : List Cell} (h : Memory.wf m = true) : Memory.wf (l.foldl f m) = true := by
  induction l generalizing m with
  | nil => exact h
  | cons x l ih => exact ih (hf m x h)

theorem memMerge_wf {m : List Cell} (h : Memory.wf m = true) (pa : Nat) (mask : ByteMask) (d : LineBits) :
    Memory.wf (memMerge m pa mask d) = true :=
  foldl_wf _ (fun m i h => by split; exacts [memSet_wf h _ _, h]) _ h

theorem length_memBytes (m : List Cell) (a n : Nat) : (memBytes m a n).length = n := by simp [memBytes]

theorem length_toBytes (n v : Nat) : (toBytes n v).length = n := by
  induction n generalizing v with
  | zero => rfl
  | succ n ih => simp [toBytes, ih]

theorem ofBytes_lt (bs : List Byte) : ofBytes bs < 256 ^ bs.length := by
  induction bs with
  | nil => simp [ofBytes]
  | cons b bs ih => rw [ofBytes, List.length_cons, Nat.pow_succ]; have := b.isLt; omega

/-- Bytes and numbers agree (00 R7). -/
theorem ofBytes_toBytes (n v : Nat) : ofBytes (toBytes n v) = v % 256 ^ n := by
  induction n generalizing v with
  | zero => simp [toBytes, ofBytes, Nat.mod_one]
  | succ n ih =>
    rw [toBytes, ofBytes, ih, BitVec.toNat_ofNat, show (256 : Nat) ^ (n + 1) = 256 * 256 ^ n by ring, Nat.mod_mul]

/-! ## Bytes laid over a memory -/

/-- The canonical form says that keys rise and that no entry holds the default. -/
theorem spWfFrom_iff {α : Type} [DecidableEq α] {d : α} {lo : Nat} {m : List (Nat × α)} :
    spWfFrom d lo m = true ↔ (∀ e ∈ m, lo ≤ e.1 ∧ e.2 ≠ d) ∧ m.Pairwise (fun x y => x.1 < y.1) := by
  induction m generalizing lo with
  | nil => simp [spWfFrom]
  | cons e r ih =>
    obtain ⟨k, v⟩ := e
    simp only [spWfFrom, Bool.and_eq_true, decide_eq_true_eq, ih, List.forall_mem_cons, List.pairwise_cons]
    constructor
    · rintro ⟨⟨h1, h2⟩, h3, h4⟩
      exact ⟨⟨⟨h1, h2⟩, fun e he => ⟨by have := (h3 e he).1; omega, (h3 e he).2⟩⟩, fun e he => by have := (h3 e he).1; omega, h4⟩
    · rintro ⟨⟨⟨h1, h2⟩, h3⟩, h4, h5⟩
      exact ⟨⟨h1, h2⟩, fun e he => ⟨by have := h4 e he; omega, (h3 e he).2⟩, h5⟩

theorem memLay_wf {m : List Cell} (h : Memory.wf m = true) (a : Nat) (bs : List Byte) : Memory.wf (memLay m a bs) = true := by
  obtain ⟨h1, h2⟩ := spWfFrom_iff.1 (show spWfFrom memDefault 0 m = true from h)
  have hb : (bs.zipIdx.map (fun x => ((a + x.2, x.1) : Nat × Byte))).Pairwise (fun x y => x.1 < y.1) := by
    rw [List.pairwise_iff_getElem]
    intro i j hi hj hij
    simp only [List.getElem_map, List.getElem_zipIdx]
    omega
  have hm : ∀ e ∈ bs.zipIdx.map (fun x => ((a + x.2, x.1) : Nat × Byte)), a ≤ e.1 ∧ e.1 < a + bs.length := by
    intro e he
    obtain ⟨⟨b, i⟩, hx, rfl⟩ := List.mem_map.1 he
    have := List.snd_lt_of_mem_zipIdx hx
    simp at this ⊢
    omega
  refine spWfFrom_iff.2 ⟨fun e he => ?_, ?_⟩
  · simp only [memLay, List.mem_append, List.mem_filter, decide_eq_true_eq] at he
    obtain (⟨he, -⟩ | ⟨-, he⟩) | ⟨he, -⟩ := he
    exacts [h1 e he, ⟨Nat.zero_le _, he⟩, h1 e he]
  · refine List.pairwise_append.2 ⟨List.pairwise_append.2 ⟨h2.filter _, hb.filter _, ?_⟩, h2.filter _, ?_⟩
    · intro x hx y hy
      have hx := (List.mem_filter.1 hx).2
      have hy := (hm y (List.mem_filter.1 hy).1).1
      simp at hx
      omega
    · intro x hx y hy
      have hy := (List.mem_filter.1 hy).2
      simp at hy
      rcases List.mem_append.1 hx with hx | hx
      · have hx := (List.mem_filter.1 hx).2
        simp at hx
        omega
      · have := (hm x (List.mem_filter.1 hx).1).2
        omega

/-- The dump keeps host memory's canonical form (18 R383). -/
theorem writeDump_wf {s : State} (h : Memory.wf s.m.hostMem = true) (cause : Nat) :
    Memory.wf (writeDump s cause).m.hostMem = true := memLay_wf (memLay_wf h _ _) _ _

/-- Memory after reset lists nothing. -/
theorem reset_memory_wf : Memory.wf MemSys.reset.mem = true ∧ Memory.wf MemSys.reset.hostMem = true ∧
    Memory.wf MemSys.reset.staging = true := ⟨rfl, rfl, rfl⟩

end Sys2Proof.Machine
end

