-- ==== Sys2Proof/Certificates/Slice0/Obligations.lean ====
section
/-! DEFINITION. The statements: the vocabulary they share (in the namespace of the model) and one obligation each. `Runs i s st g`
says that grove `g` of stand `st` has the turn in state `s` and that no check of 10 R223 keeps `i` from acting. A rule is cited
by its number and, where it is not clear, by its file. -/

/-! ## Instructions that write lanes only -/

namespace Sys2Proof

open Machine

/-- What an instruction may write in an enabled lane: `count` registers from `reg` up (none from register 56), a
predicate, the floating-point flags. -/
structure LaneWrites where
  reg : Nat
  count : Nat
  pred : Option Nat
  flags : Bool

def LaneWrites.regs (d : BitVec 8) : LaneWrites := ⟨opNum d, opW d, none, false⟩

def LaneWrites.floats (d : BitVec 8) : LaneWrites := ⟨opNum d, opW d, none, true⟩

def LaneWrites.predOnly (d : BitVec 8) : LaneWrites := ⟨56, 0, some (opNum d), false⟩

def LaneWrites.predFlags (d : BitVec 8) : LaneWrites := ⟨56, 0, some (opNum d), true⟩

/-- The register is one of the destination group. -/
def LaneWrites.has (w : LaneWrites) (r : Nat) : Prop := w.reg < 56 ∧ w.reg ≤ r ∧ r < w.reg + w.count

/-- The instructions that only write lanes, with what they write (07 R165 to R167; 11 R237 to R242; 12 R258 to R275). -/
def laneWrites (i : Instr) : Option LaneWrites :=
  match i with
  | .add d _ _ => some (.regs d)
  | .sub d _ _ => some (.regs d)
  | .mul d _ _ => some (.regs d)
  | .mulh d _ _ => some (.regs d)
  | .mad d _ _ => some (.regs d)
  | .shl d _ _ => some (.regs d)
  | .shr d _ _ => some (.regs d)
  | .sra d _ _ => some (.regs d)
  | .fshl d _ _ => some (.regs d)
  | .fshr d _ _ => some (.regs d)
  | .andV d _ _ => some (.regs d)
  | .orV d _ _ => some (.regs d)
  | .xorV d _ _ => some (.regs d)
  | .andn d _ _ => some (.regs d)
  | .bfx d _ _ => some (.regs d)
  | .bfi d _ _ => some (.regs d)
  | .minV d _ _ => some (.regs d)
  | .maxV d _ _ => some (.regs d)
  | .sel d _ _ => some (.regs d)
  | .shfl d _ _ => some (.regs d)
  | .shflUp d _ _ => some (.regs d)
  | .shflDn d _ _ => some (.regs d)
  | .shflX d _ _ => some (.regs d)
  | .bcast d _ _ => some (.regs d)
  | .notV d _ => some (.regs d)
  | .popc d _ => some (.regs d)
  | .clz d _ => some (.regs d)
  | .ctz d _ => some (.regs d)
  | .brev d _ => some (.regs d)
  | .absV d _ => some (.regs d)
  | .negV d _ => some (.regs d)
  | .movV d _ => some (.regs d)
  | .unpack d _ => some ⟨opNum d, 2, none, false⟩
  | .lea1 d _ _ => some ⟨opNum d, 1, none, false⟩
  | .lea2 d _ _ => some ⟨opNum d, 1, none, false⟩
  | .lea3 d _ _ => some ⟨opNum d, 1, none, false⟩
  | .perm d _ _ => some ⟨opNum d, 1, none, false⟩
  | .pack d _ _ => some ⟨opNum d, 1, none, false⟩
  | .matchV d _ => some ⟨opNum d, 1, none, false⟩
  | .li d _ => some (.regs d)
  | .lih d _ => some (.regs d)
  | .fadd d _ _ => some (.floats d)
  | .fsub d _ _ => some (.floats d)
  | .fmul d _ _ => some (.floats d)
  | .fma d _ _ => some (.floats d)
  | .fnma d _ _ => some (.floats d)
  | .fmin d _ _ => some (.floats d)
  | .fmax d _ _ => some (.floats d)
  | .fdiv d _ _ => some (.floats d)
  | .cvtq d _ _ => some ⟨opNum d, 2, none, true⟩
  | .fdot d _ _ => some (.floats d)
  | .fdot8 d _ _ => some (.floats d)
  | .fabs d _ => some (.floats d)
  | .fneg d _ => some (.floats d)
  | .fclass d _ => some (.floats d)
  | .fsqrt d _ => some (.floats d)
  | .frcp d _ => some (.floats d)
  | .frsq d _ => some (.floats d)
  | .exp2 d _ => some (.floats d)
  | .log2 d _ => some (.floats d)
  | .sinpi d _ => some (.floats d)
  | .cospi d _ => some (.floats d)
  | .redSum d _ => some (.floats d)
  | .redMin d _ => some (.floats d)
  | .redMax d _ => some (.floats d)
  | .redAnd d _ => some (.floats d)
  | .redOr d _ => some (.floats d)
  | .redXor d _ => some (.floats d)
  | .redmi d _ => some ⟨opNum d, 2, none, true⟩
  | .redma d _ => some ⟨opNum d, 2, none, true⟩
  | .scanAdd d _ => some (.floats d)
  | .cvtF d _ _ => some (.floats d)
  | .cvtI d _ _ => some (.floats d)
  | .cvt8Sat d _ _ => some (.floats d)
  | .cvt8Inf d _ _ => some (.floats d)
  | .cmpEq d _ _ => some (.predOnly d)
  | .cmpNe d _ _ => some (.predOnly d)
  | .cmpLt d _ _ => some (.predOnly d)
  | .cmpLe d _ _ => some (.predOnly d)
  | .cmpGt d _ _ => some (.predOnly d)
  | .cmpGe d _ _ => some (.predOnly d)
  | .pand d _ _ => some (.predOnly d)
  | .por d _ _ => some (.predOnly d)
  | .pxor d _ _ => some (.predOnly d)
  | .pnot d _ => some (.predOnly d)
  | .voteAny d _ => some (.predOnly d)
  | .voteAll d _ => some (.predOnly d)
  | .fcmpEq d _ _ => some (.predFlags d)
  | .fcmpNe d _ _ => some (.predFlags d)
  | .fcmpLt d _ _ => some (.predFlags d)
  | .fcmpLe d _ _ => some (.predFlags d)
  | .fcmpGt d _ _ => some (.predFlags d)
  | .fcmpGe d _ _ => some (.predFlags d)
  | .fcmpUn d _ _ => some (.predFlags d)
  | .sdec d _ _ => some ⟨d.toNat, 1, none, false⟩
  | .senc d _ _ => some ⟨d.toNat, 1, none, true⟩
  | .serr d _ _ => some ⟨d.toNat, 1, none, false⟩
  | .sblk d _ _ => some ⟨d.toNat, 1, none, false⟩
  | _ => none

/-- Everything of the grove but the enabled lanes' destinations and flags is as it was; flags are only added. -/
structure LaneFrame (w : LaneWrites) (en : LaneMask) (g h : Grove) : Prop where
  grove : h = { g with lanes := h.lanes, fpflags := h.fpflags }
  count : h.lanes.length = g.lanes.length
  disabled : ∀ l, en.getLsbD l = false → h.lanes[l]? = g.lanes[l]?
  registers : ∀ l r, ¬ w.has r → (h.lane l).reg r = (g.lane l).reg r ∧
    (h.lane l).taint.getLsbD r = (g.lane l).taint.getLsbD r
  predicates : ∀ l n, w.pred ≠ some n → (h.lane l).p.getLsbD n = (g.lane l).p.getLsbD n
  flagsKept : ∀ l n, ((g.lane l).flags.getLsbD n → (h.lane l).flags.getLsbD n) ∧ (g.fpflags.getLsbD n → h.fpflags.getLsbD n)
  noFlags : w.flags = false → h.fpflags = g.fpflags ∧ ∀ l, (h.lane l).flags = (g.lane l).flags

end Sys2Proof

section

open Sys2Proof Sys2Proof.Machine

/-- R230, R237 and the rules of the named instructions: such an instruction runs in every enabled lane and retires to the
next word; the state changes in its grove only, there in what `laneWrites` names. The form that writes register 56
writes nothing. Memory, scalars, masks, MODE and the trap registers are untouched, since `h` differs from `g` in its lanes
and FPFLAGS only. -/
def Obligations.LaneInstructionsKeepTheRest : Prop :=
  ∀ (i : Instr) (w : LaneWrites) (s : State) (st : Stand) (g : Grove),
    laneWrites i = some w → Runs i s st g → (w.flags = true → Unwatched s st) →
      ∃ h : Grove, exec i s = .next (s.setGrove st.uid h.retire) ∧ LaneFrame w g.enabled g h

end

namespace Sys2Proof

open Machine

/-- Bits pos + len′ − 1 to pos of `x` as the low bits of a value, `keep` of them, extended by `signed` (11 R237). -/
def bitField {w : Nat} (signed : Bool) (x : BitVec w) (pos keep : Nat) : BitVec w :=
  if signed then ((x >>> pos) <<< (w - keep)).sshiftRight (w - keep) else ((x >>> pos) <<< (w - keep)) >>> (w - keep)

/-- pos and len of a field element `y` (11 R237). -/
def fieldPos {w : Nat} (y : BitVec w) : Nat := (y.extractLsb' 0 8).toNat

def fieldLen {w : Nat} (y : BitVec w) : Nat := (y.extractLsb' 8 8).toNat

/-- The function of an element-wise integer instruction (the table of 11 R237) with its operands: x, y and z are the
elements of A, B and old D, `sg` says that the type is signed. -/
def intFunction (i : Instr) (w : Nat) (sg : Bool) :
    Option (BitVec 8 × BitVec 8 × BitVec 8 × (BitVec w → BitVec w → BitVec w → BitVec w)) :=
  match i with
  | .add d a b => some (d, a, b, fun x y _ => x + y)
  | .sub d a b => some (d, a, b, fun x y _ => x - y)
  | .mul d a b => some (d, a, b, fun x y _ => x * y)
  | .mulh d a b => some (d, a, b, fun x y _ =>
      if sg then (x.signExtend (2 * w) * y.signExtend (2 * w)).extractLsb' w w
      else (x.setWidth (2 * w) * y.setWidth (2 * w)).extractLsb' w w)
  | .mad d a b => some (d, a, b, fun x y z => x * y + z)
  | .shl d a b => some (d, a, b, fun x y _ => x <<< y.toNat)
  | .shr d a b => some (d, a, b, fun x y _ => x >>> y.toNat)
  | .sra d a b => some (d, a, b, fun x y _ => x.sshiftRight y.toNat)
  | .fshl d a b => some (d, a, b, fun x y z => (z ++ x).extractLsb' (w - y.toNat % w) w)
  | .fshr d a b => some (d, a, b, fun x y z => (x ++ z).extractLsb' (y.toNat % w) w)
  | .andV d a b => some (d, a, b, fun x y _ => x &&& y)
  | .orV d a b => some (d, a, b, fun x y _ => x ||| y)
  | .xorV d a b => some (d, a, b, fun x y _ => x ^^^ y)
  | .andn d a b => some (d, a, b, fun x y _ => x &&& ~~~y)
  | .notV d a => some (d, a, 56, fun x _ _ => ~~~x)
  | .popc d a => some (d, a, 56, fun x _ _ => BitVec.ofNat w ((List.range w).countP (fun k => x.getLsbD k)))
  | .clz d a => some (d, a, 56, fun x _ _ => x.clz)
  | .ctz d a => some (d, a, 56, fun x _ _ => x.ctz)
  | .brev d a => some (d, a, 56, fun x _ _ => x.reverse)
  | .bfx d a b => some (d, a, b, fun x y _ =>
      if w ≤ fieldPos y ∨ fieldLen y = 0 then 0#w
      else bitField sg x (fieldPos y) (min (fieldLen y) (w - fieldPos y)))
  | .bfi d a b => some (d, a, b, fun x y z =>
      if w ≤ fieldPos y ∨ fieldLen y = 0 then z
      else
        let m : BitVec w := bitField false (BitVec.allOnes w) 0 (min (fieldLen y) (w - fieldPos y)) <<< fieldPos y
        (z &&& ~~~m) ||| ((x <<< fieldPos y) &&& m))
  | .minV d a b => some (d, a, b, fun x y _ => if (if sg then y.slt x else y.ult x) then y else x)
  | .maxV d a b => some (d, a, b, fun x y _ => if (if sg then x.slt y else x.ult y) then y else x)
  | .absV d a => some (d, a, 56, fun x _ _ => if x.msb then -x else x)
  | .negV d a => some (d, a, 56, fun x _ _ => -x)
  | .movV d a => some (d, a, 56, fun x _ _ => x)
  | _ => none

end Sys2Proof

section

open Sys2Proof Sys2Proof.Machine

/-- R237: each of these instructions leaves in element j of d, in every enabled lane, its function of element j of the
sources as they were before, modulo 2^w. (A destination register 56 discards: `LaneInstructionsKeepTheRest`.) -/
def Obligations.IntegerResultsElementByElement : Prop :=
  ∀ (i : Instr) (s : State) (st : Stand) (g : Grove) (d a b : BitVec 8)
    (f : BitVec (typeBits g.type) → BitVec (typeBits g.type) → BitVec (typeBits g.type) → BitVec (typeBits g.type)),
    intFunction i (typeBits g.type) (typeSigned g.type) = some (d, a, b, f) → Runs i s st g → opNum d < 56 →
      EltResult i s st g (opNum d) (opW d) (fun l j =>
        f (elt g.type (srcRegs g a g.type (opW d) l) j) (elt g.type (srcRegs g b g.type (opW d) l) j)
          (elt g.type (group (g.lane l) (opNum d) (opW d)) j))

end

/-! ## Other lane results -/

namespace Sys2Proof

open Machine

/-- The relation of an integer compare on two elements, by the type's signedness (11 R238); `negated` is the form whose
answer is the negation of "equal in every pair". -/
def compareRelation (i : Instr) (w : Nat) (sg : Bool) :
    Option (BitVec 8 × BitVec 8 × BitVec 8 × Bool × (BitVec w → BitVec w → Bool)) :=
  let lt (x y : BitVec w) : Bool := if sg then x.slt y else x.ult y
  let le (x y : BitVec w) : Bool := if sg then x.sle y else x.ule y
  match i with
  | .cmpEq d a b => some (d, a, b, false, fun x y => x == y)
  | .cmpNe d a b => some (d, a, b, true, fun x y => x == y)
  | .cmpLt d a b => some (d, a, b, false, lt)
  | .cmpLe d a b => some (d, a, b, false, le)
  | .cmpGt d a b => some (d, a, b, false, fun x y => lt y x)
  | .cmpGe d a b => some (d, a, b, false, fun x y => le y x)
  | _ => none

/-- The flat index of the source of element `j` of lane `l` of a shuffle, exactly (the table of 12 R270): `n` elements a
lane, `c` the lane's B; `own` says that the lane's own element stands where there is no such index. -/
def shuffleIndex (i : Instr) : Option (BitVec 8 × BitVec 8 × BitVec 8 × Bool × (Nat → Nat → Nat → Nat → Int)) :=
  match i with
  | .shfl d a b => some (d, a, b, false, fun _ j _ c => (c : Int) + j)
  | .shflUp d a b => some (d, a, b, true, fun l j n c => (l * n + j : Int) - c)
  | .shflDn d a b => some (d, a, b, true, fun l j n c => (l * n + j : Int) + c)
  | .shflX d a b => some (d, a, b, true, fun l j n c => (((l * n + j) ^^^ c : Nat) : Int))
  | .bcast d a b => some (d, a, b, false, fun _ j n c => (c : Int) * n + j)
  | _ => none

/-- Element `j` of A in the enabled lanes. -/
def enabledElts (g : Grove) (a : BitVec 8) (w j : Nat) : List (BitVec (typeBits g.type)) :=
  (lanesOf g g.enabled).map (fun l => elt g.type (srcRegs g a g.type w l) j)

end Sys2Proof

section

open Sys2Proof Sys2Proof.Machine

/-- R237 (`sel`), R241, R242: what the group d of every enabled lane holds afterwards. -/
def Obligations.SelectImmediateAndAddressResults : Prop :=
  ∀ (s : State) (st : Stand) (g : Grove) (d a b : BitVec 8) (i : BitVec 16), opNum d < 56 →
    (Runs (.sel d a b) s st g → GroupResult (.sel d a b) s st g (opNum d) (opW d)
      (fun l => srcRegs g (if (g.lane l).p.getLsbD 0 then a else b) g.type (opW d) l)) ∧
    (Runs (.li d i) s st g → EltResult (.li d i) s st g (opNum d) (opW d)
      (fun _ _ => (i.signExtend 64).setWidth (typeBits g.type))) ∧
    (Runs (.lih d i) s st g → EltResult (.lih d i) s st g (opNum d) (opW d)
      (fun l j =>
        let e := (elt g.type (group (g.lane l) (opNum d) (opW d)) j).setWidth 64
        (e.extractLsb' 32 32 ++ i ++ e.extractLsb' 0 16).setWidth (typeBits g.type))) ∧
    ∀ (n : Instr) (k : Nat), (n, k) ∈ [(Instr.lea1 d a b, 1), (.lea2 d a b, 2), (.lea3 d a b, 3)] → Runs n s st g →
      GroupResult n s st g (opNum d) 1 (fun l =>
        [(srcRegs g a g.type 1 l).headD 0 + (srcRegs g b g.type 1 l).headD 0 * 2 ^ k])

/-- R238 and R239: what p[d] holds in every enabled lane. -/
def Obligations.CompareAndPredicateResults : Prop :=
  ∀ (s : State) (st : Stand) (g : Grove),
    (∀ (i : Instr) (d a b : BitVec 8) (ne : Bool) (rel : BitVec (typeBits g.type) → BitVec (typeBits g.type) → Bool),
      compareRelation i (typeBits g.type) (typeSigned g.type) = some (d, a, b, ne, rel) → Runs i s st g →
        PredResult i s st g (opNum d) (fun l =>
          decide (∀ j, j < opW a * typeCount g.type → rel (elt g.type (srcRegs g a g.type (opW a) l) j)
            (elt g.type (srcRegs g b g.type (opW a) l) j) = true) != ne)) ∧
    ∀ d a b : BitVec 8,
      let p (c : BitVec 8) (l : Nat) : Bool := (g.lane l).p.getLsbD (opNum c)
      (Runs (.pand d a b) s st g → PredResult (.pand d a b) s st g (opNum d) (fun l => p a l && p b l)) ∧
      (Runs (.por d a b) s st g → PredResult (.por d a b) s st g (opNum d) (fun l => p a l || p b l)) ∧
      (Runs (.pxor d a b) s st g → PredResult (.pxor d a b) s st g (opNum d) (fun l => p a l ^^ p b l)) ∧
      (Runs (.pnot d a) s st g → PredResult (.pnot d a) s st g (opNum d) (fun l => !p a l))

/-- R240 and R271: `kpop` counts the 1 bits of a mask below λ, `ballot` collects a predicate of the enabled lanes (every
other bit 0), the votes put its OR and AND over them into every enabled lane, and `match` finds the lowest enabled lane
with the same group. -/
def Obligations.VoteAndMaskResults : Prop :=
  decodeGrove 0x99020600#32 0 = .ok (.kpop 2 6) ∧
  ∀ (s : State) (st : Stand) (g : Grove) (d a : BitVec 8),
    let p (l : Nat) : Bool := (g.lane l).p.getLsbD (opNum a)
    (Runs (.kpop d a) s st g → exec (.kpop d a) s = .next (s.setGrove st.uid
      ({ g with s := g.s.setIfInBounds (opNum d) (BitVec.ofNat 64 (lanesOf g (vget g.k (opNum a) 0)).length) } : Grove).retire)) ∧
    (Runs (.ballot d a) s st g → ∃ m : LaneMask,
      exec (.ballot d a) s = .next (s.setGrove st.uid ({ g with k := g.k.setIfInBounds (opNum d) m } : Grove).retire) ∧
        ∀ l, l < 1024 → m.getLsbD l = (decide (l < g.lam) && g.enabled.getLsbD l && p l)) ∧
    (Runs (.voteAny d a) s st g → PredResult (.voteAny d a) s st g (opNum d) (fun _ => (lanesOf g g.enabled).any p)) ∧
    (Runs (.voteAll d a) s st g → PredResult (.voteAll d a) s st g (opNum d) (fun _ => (lanesOf g g.enabled).all p)) ∧
    (Runs (.matchV d a) s st g → opNum d < 56 → ∃ low : Nat → Nat,
      GroupResult (.matchV d a) s st g (opNum d) 1 (fun l => [BitVec.ofNat 64 (low l)]) ∧
        ∀ l ∈ lanesOf g g.enabled, low l ∈ lanesOf g g.enabled ∧
          srcRegs g a g.type (opW a) (low l) = srcRegs g a g.type (opW a) l ∧
          ∀ k ∈ lanesOf g g.enabled, srcRegs g a g.type (opW a) k = srcRegs g a g.type (opW a) l → low l ≤ k)

/-- R270: element j of D in every enabled lane is the element of A with that flat index, whichever lanes are enabled, and
outside 0 to λ·N − 1 the lane's own element or 0. -/
def Obligations.ShuffleResults : Prop :=
  ∀ (i : Instr) (s : State) (st : Stand) (g : Grove) (d a b : BitVec 8) (own : Bool) (idx : Nat → Nat → Nat → Nat → Int),
    shuffleIndex i = some (d, a, b, own, idx) → Runs i s st g → opNum d < 56 →
      let n := opW d * typeCount g.type
      EltResult i s st g (opNum d) (opW d) (fun l j =>
        let e := idx l j n (srcWhole g b false l).toNat
        if 0 ≤ e ∧ e < g.lam * n then elt g.type (srcRegs g a g.type (opW d) (e.toNat / n)) (e.toNat % n)
        else if own then elt g.type (srcRegs g a g.type (opW d) l) j else 0)

/-- R272: the fixed tree combines exactly the enabled lanes' elements: bitwise AND, OR and XOR under every type, the sum
modulo 2^w, the least and the greatest under an integer type, in every enabled lane. -/
def Obligations.ReductionResults : Prop :=
  ∀ (s : State) (st : Stand) (g : Grove) (d a : BitVec 8), opNum d < 56 → Unwatched s st →
    let xs (j : Nat) := enabledElts g a (opW d) j
    let lt (x y : BitVec (typeBits g.type)) : Bool := if typeSigned g.type then x.slt y else x.ult y
    (Runs (.redAnd d a) s st g → EltResult (.redAnd d a) s st g (opNum d) (opW d)
      (fun _ j => (xs j).foldl (fun x y => x &&& y) (BitVec.allOnes _))) ∧
    (Runs (.redOr d a) s st g → EltResult (.redOr d a) s st g (opNum d) (opW d)
      (fun _ j => (xs j).foldl (fun x y => x ||| y) 0)) ∧
    (Runs (.redXor d a) s st g → EltResult (.redXor d a) s st g (opNum d) (opW d)
      (fun _ j => (xs j).foldl (fun x y => x ^^^ y) 0)) ∧
    (g.type < 8 → Runs (.redSum d a) s st g → EltResult (.redSum d a) s st g (opNum d) (opW d) (fun _ j => (xs j).sum)) ∧
    (g.type < 8 → Runs (.redMin d a) s st g → ∃ m : Nat → BitVec (typeBits g.type),
      EltResult (.redMin d a) s st g (opNum d) (opW d) (fun _ j => m j) ∧
        ∀ j, j < opW d * typeCount g.type → m j ∈ xs j ∧ ∀ y ∈ xs j, lt y (m j) = false) ∧
    (g.type < 8 → Runs (.redMax d a) s st g → ∃ m : Nat → BitVec (typeBits g.type),
      EltResult (.redMax d a) s st g (opNum d) (opW d) (fun _ j => m j) ∧
        ∀ j, j < opW d * typeCount g.type → m j ∈ xs j ∧ ∀ y ∈ xs j, lt (m j) y = false)

/-- R275: bytes, halves and widened elements within a lane. -/
def Obligations.RearrangementResults : Prop :=
  ∀ (s : State) (st : Stand) (g : Grove) (d a b : BitVec 8), opNum d < 56 →
    let whole (c : BitVec 8) (l : Nat) : Word := srcWhole g c false l
    let wide := if g.type = 14 then 0 else g.type + 1
    (Runs (.perm d a b) s st g → ∃ r : Nat → Word, GroupResult (.perm d a b) s st g (opNum d) 1 (fun l => [r l]) ∧
      ∀ l k, l < g.lam → k < 8 →
        let c : BitVec 8 := (whole b l).extractLsb' (8 * k) 8
        (r l).extractLsb' (8 * k) 8 = if c.getLsbD 7 then 0#8 else (whole a l).extractLsb' (8 * (c.extractLsb' 0 3).toNat) 8) ∧
    (Runs (.pack d a b) s st g → EltResult (.pack d a b) s st g (opNum d) 1 (fun l j =>
      let half := typeCount g.type / 2
      if j < half then (elt wide (srcRegs g a wide 1 l) j).setWidth (typeBits g.type)
      else (elt wide (srcRegs g b wide 1 l) (j - half)).setWidth (typeBits g.type))) ∧
    (Runs (.unpack d a) s st g → ∃ r : Nat → List Word, GroupResult (.unpack d a) s st g (opNum d) 2 r ∧
      ∀ l j, l < g.lam → j < typeCount g.type →
        elt wide (r l) j =
          if g.type < 4 ∨ g.type = 14 then (elt g.type (srcRegs g a g.type 1 l) j).signExtend (typeBits wide)
          else (elt g.type (srcRegs g a g.type 1 l) j).setWidth (typeBits wide))

end

/-! ## Floating point, on bit patterns of f16, bf16, f32 and f64 (06 R131) -/

namespace Sys2Proof

open Machine

/-- Fraction and exponent bits. -/
def fracBits (t : Nat) : Nat := match t with | 8 => 10 | 9 => 7 | 10 => 23 | _ => 52

def expBits (t : Nat) : Nat := match t with | 8 => 5 | 9 => 8 | 10 => 8 | _ => 11

def fpFrac (t : Nat) (x : BitVec (typeBits t)) : Nat := x.toNat % 2 ^ fracBits t

def fpExp (t : Nat) (x : BitVec (typeBits t)) : Nat := x.toNat / 2 ^ fracBits t % 2 ^ expBits t

def fpNaN (t : Nat) (x : BitVec (typeBits t)) : Bool := decide (fpExp t x = 2 ^ expBits t - 1 ∧ fpFrac t x ≠ 0)

/-- A signalling NaN: the top fraction bit is 0 (06 R136). -/
def fpSNaN (t : Nat) (x : BitVec (typeBits t)) : Bool := fpNaN t x && !x.getLsbD (fracBits t - 1)

def fpQuiet (t : Nat) (x : BitVec (typeBits t)) : BitVec (typeBits t) := x ||| BitVec.ofNat _ (2 ^ (fracBits t - 1))

/-- The place of a number that is not a NaN in the order of value: −0 and +0 share one place. -/
def fpPlace (t : Nat) (x : BitVec (typeBits t)) : Int :=
  let mag : Int := (x.toNat % 2 ^ (typeBits t - 1) : Nat)
  if x.msb then -mag else mag

/-- The order of 12 R260, −0 before +0. -/
def fpRank (t : Nat) (x : BitVec (typeBits t)) : Int :=
  let mag : Int := (x.toNat % 2 ^ (typeBits t - 1) : Nat)
  if x.msb then -mag - 1 else mag

/-- The value of a finite number; none for an infinity or a NaN. -/
def fpValue (t : Nat) (x : BitVec (typeBits t)) : Option Rat :=
  let bias : Int := 2 ^ (expBits t - 1) - 1
  let sign : Rat := if x.msb then -1 else 1
  if fpExp t x = 2 ^ expBits t - 1 then none
  else if fpExp t x = 0 then some (sign * fpFrac t x * (2 : Rat) ^ (1 - bias - fracBits t))
  else some (sign * (2 ^ fracBits t + fpFrac t x : Nat) * (2 : Rat) ^ ((fpExp t x : Int) - bias - fracBits t))

/-- The class bit of 12 R262. -/
def fpClass (t : Nat) (x : BitVec (typeBits t)) : Nat :=
  if fpNaN t x then (if fpSNaN t x then 8 else 9)
  else if fpExp t x = 2 ^ expBits t - 1 then (if x.msb then 0 else 7)
  else if fpExp t x ≠ 0 then (if x.msb then 1 else 6)
  else if fpFrac t x ≠ 0 then (if x.msb then 2 else 5)
  else if x.msb then 3 else 4

/-- The flags of every enabled lane grow by `fl l`, and FPFLAGS by all of them (06 R135). -/
def FlagsGrow (g h : Grove) (fl : Nat → BitVec 5) : Prop :=
  (∀ l, l < g.lam → g.enabled.getLsbD l = true → (h.lane l).flags = (g.lane l).flags ||| fl l) ∧
    h.fpflags = (lanesOf g g.enabled).foldl (fun a l => a ||| fl l) g.fpflags

/-- As `EltResult`, with the flags. -/
def FloatResult (i : Instr) (s : State) (st : Stand) (g : Grove) (r w : Nat)
    (val : Nat → Nat → BitVec (typeBits g.type)) (fl : Nat → BitVec 5) : Prop :=
  ∃ h : Grove, exec i s = .next (s.setGrove st.uid h.retire) ∧ FlagsGrow g h fl ∧
    ∀ l j, l < g.lam → g.enabled.getLsbD l = true → j < w * typeCount g.type →
      elt g.type (group (h.lane l) r w) j = val l j

/-- The relation of a floating compare on one pair, whether every pair must satisfy it, and whether a quiet NaN raises NV
too (the table of 12 R261). -/
def floatCompare (i : Instr) (t : Nat) :
    Option (BitVec 8 × BitVec 8 × BitVec 8 × Bool × Bool × (BitVec (typeBits t) → BitVec (typeBits t) → Bool)) :=
  let un (x y : BitVec (typeBits t)) : Bool := fpNaN t x || fpNaN t y
  match i with
  | .fcmpEq d a b => some (d, a, b, true, false, fun x y => !un x y && fpPlace t x == fpPlace t y)
  | .fcmpNe d a b => some (d, a, b, false, false, fun x y => un x y || fpPlace t x != fpPlace t y)
  | .fcmpLt d a b => some (d, a, b, true, true, fun x y => !un x y && decide (fpPlace t x < fpPlace t y))
  | .fcmpLe d a b => some (d, a, b, true, true, fun x y => !un x y && decide (fpPlace t x ≤ fpPlace t y))
  | .fcmpGt d a b => some (d, a, b, true, true, fun x y => !un x y && decide (fpPlace t y < fpPlace t x))
  | .fcmpGe d a b => some (d, a, b, true, true, fun x y => !un x y && decide (fpPlace t y ≤ fpPlace t x))
  | .fcmpUn d a b => some (d, a, b, false, false, un)
  | _ => none

/-- Destination, operands in NaN order, of an instruction that follows 06 R136. -/
def nanOrder (i : Instr) : Option (BitVec 8 × List (BitVec 8)) :=
  match i with
  | .fadd d a b => some (d, [a, b])
  | .fsub d a b => some (d, [a, b])
  | .fmul d a b => some (d, [a, b])
  | .fdiv d a b => some (d, [a, b])
  | .fma d a b => some (d, [a, b, d])
  | .fnma d a b => some (d, [a, b, d])
  | .fsqrt d a => some (d, [a])
  | _ => none

/-- The exact result of an arithmetic instruction on finite operands. -/
def exactResult (i : Instr) : Option (BitVec 8 × BitVec 8 × BitVec 8 × (Rat → Rat → Rat)) :=
  match i with
  | .fadd d a b => some (d, a, b, fun x y => x + y)
  | .fsub d a b => some (d, a, b, fun x y => x - y)
  | .fmul d a b => some (d, a, b, fun x y => x * y)
  | _ => none

end Sys2Proof

section

open Sys2Proof Sys2Proof.Machine

/-- R259, R260, R262: `fabs` clears the sign bit and `fneg` inverts it, `fclass` sets the bit of the class, without a
flag, NaNs included; `fmin` and `fmax` choose by the order of R260, a number over a NaN, with NV when a lone NaN is
signalling, and x where the operands are equal. -/
def Obligations.FloatSignClassAndMinMaxResults : Prop :=
  decodeGrove 0x60070300#32 0 = .ok (.fclass 7 3) ∧
  ∀ (s : State) (st : Stand) (g : Grove) (d a b : BitVec 8), opNum d < 56 → Unwatched s st →
    let t := g.type
    let x (l j : Nat) := elt t (srcRegs g a t (opW d) l) j
    let y (l j : Nat) := elt t (srcRegs g b t (opW d) l) j
    let top : BitVec (typeBits t) := BitVec.ofNat _ (2 ^ (typeBits t - 1))
    (Runs (.fabs d a) s st g → FloatResult (.fabs d a) s st g (opNum d) (opW d) (fun l j => x l j &&& ~~~top) (fun _ => 0)) ∧
    (Runs (.fneg d a) s st g → FloatResult (.fneg d a) s st g (opNum d) (opW d) (fun l j => x l j ^^^ top) (fun _ => 0)) ∧
    (Runs (.fclass d a) s st g → FloatResult (.fclass d a) s st g (opNum d) (opW d)
      (fun l j => BitVec.ofNat _ (2 ^ fpClass t (x l j))) (fun _ => 0)) ∧
    ∀ (i : Instr) (mx : Bool), (i, mx) ∈ [(Instr.fmin d a b, false), (.fmax d a b, true)] → Runs i s st g →
      FloatResult i s st g (opNum d) (opW d)
        (fun l j =>
          if fpNaN t (x l j) then (if fpNaN t (y l j) then fpQuiet t (x l j) else y l j)
          else if fpNaN t (y l j) then x l j
          else if (if mx then fpRank t (x l j) < fpRank t (y l j) else fpRank t (y l j) < fpRank t (x l j)) then y l j
          else x l j)
        (fun l => if ∃ j, j < opW d * typeCount t ∧ (fpSNaN t (x l j) ∨ fpSNaN t (y l j)) then 1 else 0)

/-- R261: p[d] in every enabled lane, and NV; a lane that is not enabled keeps everything. -/
def Obligations.FloatCompareResults : Prop :=
  decodeGrove 0x5B010203#32 0 = .ok (.fcmpLt 1 2 3) ∧ decodeGrove 0x5F044646#32 0 = .ok (.fcmpUn 4 0x46 0x46) ∧
  ∀ (i : Instr) (s : State) (st : Stand) (g : Grove) (d a b : BitVec 8) (every anyNaN : Bool)
    (rel : BitVec (typeBits g.type) → BitVec (typeBits g.type) → Bool),
    floatCompare i g.type = some (d, a, b, every, anyNaN, rel) → Runs i s st g → Unwatched s st →
      let n := opW a * typeCount g.type
      let x (l j : Nat) := elt g.type (srcRegs g a g.type (opW a) l) j
      let y (l j : Nat) := elt g.type (srcRegs g b g.type (opW a) l) j
      ∃ h : Grove, exec i s = .next (s.setGrove st.uid h.retire) ∧
        (∀ l, l < g.lam → g.enabled.getLsbD l = true → (h.lane l).p.getLsbD (opNum d) =
          if every then decide (∀ j, j < n → rel (x l j) (y l j) = true)
          else decide (∃ j, j < n ∧ rel (x l j) (y l j) = true)) ∧
        (∀ l, g.enabled.getLsbD l = false → h.lanes[l]? = g.lanes[l]?) ∧
        FlagsGrow g h (fun l => if ∃ j, j < n ∧
          (if anyNaN then fpNaN g.type (x l j) ∨ fpNaN g.type (y l j)
           else fpSNaN g.type (x l j) ∨ fpSNaN g.type (y l j)) then 1 else 0)

/-- R136: with a NaN among the operands the result is the first one in operand order, its quiet bit set, sign and payload
kept. -/
def Obligations.FirstNaNIsDelivered : Prop :=
  ∀ (i : Instr) (s : State) (st : Stand) (g : Grove) (d : BitVec 8) (ops : List (BitVec 8)),
    nanOrder i = some (d, ops) → Runs i s st g → Unwatched s st → opNum d < 56 →
      ∃ h : Grove, exec i s = .next (s.setGrove st.uid h.retire) ∧
        ∀ l j x, l < g.lam → g.enabled.getLsbD l = true → j < opW d * typeCount g.type →
          (ops.map (fun o => elt g.type (srcRegs g o g.type (opW d) l) j)).find? (fpNaN g.type) = some x →
            elt g.type (group (h.lane l) (opNum d) (opW d)) j = fpQuiet g.type x

/-- R133 and R259: where the exact sum, difference or product is a number `z` of the format other than 0, the instruction
delivers it, under every rounding mode. -/
def Obligations.RepresentableResultsAreExact : Prop :=
  ∀ (i : Instr) (s : State) (st : Stand) (g : Grove) (d a b : BitVec 8) (f : Rat → Rat → Rat),
    exactResult i = some (d, a, b, f) → Runs i s st g → Unwatched s st → opNum d < 56 →
      ∃ h : Grove, exec i s = .next (s.setGrove st.uid h.retire) ∧
        ∀ l j x y (z : BitVec (typeBits g.type)), l < g.lam → g.enabled.getLsbD l = true → j < opW d * typeCount g.type →
          fpValue g.type (elt g.type (srcRegs g a g.type (opW d) l) j) = some x →
          fpValue g.type (elt g.type (srcRegs g b g.type (opW d) l) j) = some y →
          fpValue g.type z = some (f x y) → f x y ≠ 0 →
            elt g.type (group (h.lane l) (opNum d) (opW d)) j = z

end

/-! ## Scalars and the state of the grove -/

/-! ## Branches, calls, divergence -/

namespace Sys2Proof

open Machine

/-- A U class source (11 R243): a scalar, `zero` (56), or `imm` (58) sign-extended. -/
def scalarSource (g : Grove) (b : BitVec 8) : Word :=
  if b = 56 then 0 else if b = 58 then (g.pfx.getD 0).signExtend 64 else vget g.s b.toNat 0

/-- sD of the uniform-scalar instructions (the table of 11 R243). -/
def scalarFunction (i : Instr) : Option (BitVec 8 × BitVec 8 × BitVec 8 × (Word → Word → Word)) :=
  match i with
  | .sadd d a b => some (d, a, b, fun x y => x + y)
  | .ssub d a b => some (d, a, b, fun x y => x - y)
  | .smul d a b => some (d, a, b, fun x y => x * y)
  | .sshl d a b => some (d, a, b, fun x y => if 64 ≤ y.toNat then 0 else BitVec.ofNat 64 (x.toNat * 2 ^ y.toNat))
  | .sshr d a b => some (d, a, b, fun x y => if 64 ≤ y.toNat then 0 else BitVec.ofNat 64 (x.toNat / 2 ^ y.toNat))
  | .ssra d a b => some (d, a, b, fun x y =>
      if 64 ≤ y.toNat then (if x.msb then BitVec.allOnes 64 else 0) else BitVec.ofInt 64 (x.toInt / 2 ^ y.toNat))
  | .sand d a b => some (d, a, b, fun x y => x &&& y)
  | .sor d a b => some (d, a, b, fun x y => x ||| y)
  | .sxor d a b => some (d, a, b, fun x y => x ^^^ y)
  | .smov d a => some (d, a, a, fun x _ => x)
  | _ => none

/-- The content of a control register (the table of 11 R244; 08 R187; 03 R61; 16 R340, R345). -/
def controlRegister (s : State) (st : Stand) (g : Grove) (c : Nat) : Word :=
  let core := s.d.core st.core
  match c with
  | 0x00 => g.mode.setWidth 64
  | 0x01 => g.fpflags.setWidth 64
  | 0x02 => BitVec.ofNat 64 g.boundary
  | 0x03 => BitVec.ofNat 64 g.phase
  | 0x10 => BitVec.ofNat 64 g.slot
  | 0x11 => BitVec.ofNat 64 g.lam
  | 0x12 => BitVec.ofNat 64 (st.index % st.shape.nx)
  | 0x13 => BitVec.ofNat 64 (st.index / st.shape.nx % st.shape.ny)
  | 0x14 => BitVec.ofNat 64 (st.index / (st.shape.nx * st.shape.ny))
  | 0x15 => BitVec.ofNat 64 st.clnum
  | 0x16 => BitVec.ofNat 64 st.lcore
  | 0x17 => BitVec.ofNat 64 (st.core / 12)
  | 0x18 => BitVec.ofNat 64 st.core
  | 0x19 => BitVec.ofNat 64 st.part
  | 0x20 => BitVec.ofNat 64 (core.l1cur + 8 * core.l1req + 64 * core.l1st)
  | 0x30 => BitVec.ofNat 64 (g.trap.code + 2 ^ 8 * g.trap.detail + (if st.preq then 2 ^ 61 else 0) +
      (if g.trap.pgen then 2 ^ 62 else 0) + (if g.trap.hnd then 2 ^ 63 else 0))
  | 0x31 => g.trap.faultPc
  | 0x32 => g.trap.faultAddr
  | 0x33 => BitVec.ofNat 64 (g.trap.skidCount + 2 ^ 10 * g.trap.skidKind + 2 ^ 12 * g.trap.skidOrigin)
  | _ => BitVec.ofNat 64 (s.d.time.getD (st.core / 48) 0)

/-- The lanes of the enabled mask in which p[p] XOR n is 1, as a test of each. -/
def testedLane (g : Grove) (n : BitVec 1) (p : BitVec 3) (l : Nat) : Bool :=
  (g.lane l).p.getLsbD p.toNat ^^ n.getLsbD 0

end Sys2Proof

section

open Sys2Proof Sys2Proof.Machine

/-- R243: the instruction writes sD once, whatever the mask and guard, and changes nothing else of the grove but the pc. -/
def Obligations.ScalarResults : Prop :=
  decodeGrove 0x4605043A#32 0 = .ok (.sadd 5 4 58) ∧ decodeGrove 0x4F060000#32 0 = .ok (.smov 6 0) ∧
  ∀ (i : Instr) (s : State) (st : Stand) (g : Grove) (d a b : BitVec 8) (f : Word → Word → Word),
    scalarFunction i = some (d, a, b, f) → Runs i s st g →
      exec i s = .next (s.setGrove st.uid
        ({ g with s := g.s.setIfInBounds d.toNat (f (scalarSource g a) (scalarSource g b)) } : Grove).retire)

/-- R225, R244, R245, R250, 01 R21, 06 R135, 16 R339: `nop` does nothing, a pfx word leaves its literal for the word behind
it, `phase` and `mode` write their registers, `csrr` reads one, and `csrw` writes MODE, FPFLAGS (the lanes lose the flags
that it clears) or FAULTPC, or traps as illegal, detail 7, on a value that MODE or FAULTPC does not admit. -/
def Obligations.GroveStateResults : Prop :=
  ∀ (s : State) (st : Stand) (g : Grove),
    (Runs .nop s st g → exec .nop s = .next (s.setGrove st.uid g.retire)) ∧
    (∀ v, Runs (.pfx v) s st g → exec (.pfx v) s = .next (s.setGrove st.uid { g with pfx := some v })) ∧
    (∀ n, Runs (.phase n) s st g → exec (.phase n) s = .next (s.setGrove st.uid ({ g with phase := n.toNat } : Grove).retire)) ∧
    (∀ gen neg p r t, Runs (.mode gen neg p r t) s st g → ∃ v : BitVec 13,
      exec (.mode gen neg p r t) s = .next (s.setGrove st.uid ({ g with mode := v } : Grove).retire) ∧
        v.getLsbD 12 = gen.getLsbD 0 ∧ v.getLsbD 11 = neg.getLsbD 0 ∧ v.extractLsb' 8 3 = p ∧ v.getLsbD 7 = false ∧
        v.extractLsb' 4 3 = r ∧ v.extractLsb' 0 4 = t) ∧
    (∀ d c, Runs (.csrr d c) s st g → exec (.csrr d c) s = .next (s.setGrove st.uid
      ({ g with s := g.s.setIfInBounds d.toNat (controlRegister s st g c.toNat) } : Grove).retire)) ∧
    ∀ (d : BitVec 8) (v : Word), scalarSource g d = v →
      (Runs (.csrw d 0) s st g →
        if v.toNat < 2 ^ 13 ∧ v.getLsbD 7 = false ∧ (v.extractLsb' 4 3).toNat < 5 ∧ v.extractLsb' 0 4 ≠ 15#4 then
          exec (.csrw d 0) s = .next (s.setGrove st.uid ({ g with mode := v.setWidth 13 } : Grove).retire)
        else exec (.csrw d 0) s = .next (trapEntry s st.uid g cILLEGAL 7 g.active g.pc 0)) ∧
      (Runs (.csrw d 1) s st g → exec (.csrw d 1) s = .next (s.setGrove st.uid
        ({ g with fpflags := v.setWidth 5, lanes := g.lanes.map (fun l => { l with flags := l.flags &&& v.setWidth 5 }) } : Grove).retire)) ∧
      (Runs (.csrw d 0x31) s st g →
        if v.toNat % 4 = 0 then
          exec (.csrw d 0x31) s = .next (s.setGrove st.uid ({ g with trap := { g.trap with faultPc := v } } : Grove).retire)
        else exec (.csrw d 0x31) s = .next (trapEntry s st.uid g cILLEGAL 7 g.active g.pc 0))

/-- R62 of 03: a write of L1WAYS that asks for m ways is refused with status 1 outside LMIN to LMAX, with 3 while a
conversion is under way, with 2 while scratch of a stand stands in ways it would take; asking for the ways in force leaves
L1REQ m and status 0; otherwise the conversion starts as the next batch of the stand's tlc. -/
def Obligations.WayChangeResults : Prop :=
  ∀ (s : State) (st : Stand) (g : Grove) (d : BitVec 8), Runs (.csrw d 0x20) s st g →
    let m := (scalarSource g d).toNat / 8 % 8
    let c := s.d.core st.core
    let p := s.d.part st.part
    let s' := s.setGrove st.uid g.retire
    let used := s.stands.any (fun t => t.core == st.core && t.scratchSize != 0 &&
      decide ((16 - m) * 262144 < t.scratchBase + t.scratchSize))
    let status (v : Nat) := Host.Outcome.next (φ := Fault) (ρ := Refusal)
      (s'.modCore st.core (fun c => { c with l1st := v }))
    (m < p.lmin ∨ p.lmax < m → exec (.csrw d 0x20) s = status 1) ∧
    (p.lmin ≤ m → m ≤ p.lmax → c.conv.isSome → exec (.csrw d 0x20) s = status 3) ∧
    (p.lmin ≤ m → m ≤ p.lmax → c.conv = none → c.l1cur < m → used = true → exec (.csrw d 0x20) s = status 2) ∧
    (p.lmin ≤ m → m ≤ p.lmax → c.conv = none → c.l1cur = m → exec (.csrw d 0x20) s =
      .next (s'.modCore st.core (fun c => { c with l1st := 0, l1req := m }))) ∧
    (p.lmin ≤ m → m ≤ p.lmax → c.conv = none → c.l1cur ≠ m → ¬ (c.l1cur < m ∧ used = true) →
      ∃ t, exec (.csrw d 0x20) s = .next t ∧ t.m = s.m ∧
        t.d = (s'.modCore st.core (fun c => { c with l1st := 0, l1req := m, conv := some ⟨st.uid, st.tlc.last + 1, m, s.nextId⟩ })).d ∧
        (t.stand? st.uid).map (fun x => (x.tlc.last, x.batches.getLast?.map (fun b => (b.num, b.conversion)))) =
          some (st.tlc.last + 1, some (st.tlc.last + 1, true)))

/-- R176 of 08 (and log entry 27 for the registers given up): `bound` sets BOUNDARY to at most the grove's reservation,
and traps with BOUNDS, detail 8, above it. No `ldx` reply is due from the new boundary up. -/
def Obligations.BoundResults : Prop :=
  ∀ (s : State) (st : Stand) (g : Grove) (b : BitVec 6), Runs (.bound b) s st g → pendingIn g [(b.toNat, 56 - b.toNat)] = false →
    if st.shape.regs < b.toNat then exec (.bound b) s = .next (trapEntry s st.uid g cBOUNDS 8 g.active g.pc 0)
    else ∃ h : Grove, exec (.bound b) s = .next (s.setGrove st.uid h.retire) ∧ h.boundary = b.toNat ∧
      h = { g with boundary := b.toNat, lanes := h.lanes } ∧ h.lanes.length = g.lanes.length ∧
      ∀ l r, r < b.toNat → r < g.boundary → (h.lane l).reg r = (g.lane l).reg r

/-- R246, R250, R217: where the pc goes. Nothing else of the grove changes but s31 in a call; `ret` and `jmpi` to an
address that is no multiple of 4 trap with ALIGN, detail 2. -/
def Obligations.BranchResults : Prop :=
  ∀ (s : State) (st : Stand) (g : Grove),
    let goTo (g : Grove) (pc : Word) := Host.Outcome.next (φ := Fault) (ρ := Refusal) (s.setGrove st.uid (g.retireTo pc))
    let jump (target : Word) := if target.toNat % 4 = 0 then goTo g target
      else .next (trapEntry s st.uid g cALIGN 2 g.active g.pc target)
    (∀ o, Runs (.bra o) s st g → exec (.bra o) s = goTo g (g.pc + 4 * o.signExtend 64)) ∧
    (∀ n p o, Runs (.brcAny n p o) s st g → exec (.brcAny n p o) s =
      goTo g (if (lanesOf g g.enabled).any (testedLane g n p) then g.pc + 4 * o.signExtend 64 else g.pc + 4)) ∧
    (∀ n p o, Runs (.brcAll n p o) s st g → exec (.brcAll n p o) s =
      goTo g (if (lanesOf g g.enabled).all (testedLane g n p) then g.pc + 4 * o.signExtend 64 else g.pc + 4)) ∧
    (∀ n p o, Runs (.brcNone n p o) s st g → exec (.brcNone n p o) s =
      goTo g (if (lanesOf g g.enabled).all (fun l => !testedLane g n p l) then g.pc + 4 * o.signExtend 64 else g.pc + 4)) ∧
    (∀ o, Runs (.call o) s st g → exec (.call o) s =
      goTo { g with s := g.s.setIfInBounds 31 (g.pc + 4) } (g.pc + 4 * o.signExtend 64)) ∧
    (Runs .ret s st g → exec .ret s = jump (vget g.s 31 0)) ∧
    ∀ a, Runs (.jmpi a) s st g → exec (.jmpi a) s = jump (vget g.s a.toNat 0)

/-- R247, R248: a `brd` whose enabled lanes split pushes an entry and runs one of the two paths (which, the manual leaves
open); with no split it counts a pass. `t` is what the fetch of the `join` word leaves, `j` where that word stands. -/
def Obligations.DivergentBranchResults : Prop :=
  ∀ (s t : State) (st : Stand) (g : Grove) (n : BitVec 1) (p : BitVec 3) (o : BitVec 16) (wj : BitVec 32),
    Runs (.brd n p o) s st g →
    let j := g.pc + 4 * o.signExtend 64
    fetchWord s (st.mmu true g.slot) j = (.word wj, t) →
    let false_ := j + 4 * (wj.extractLsb' 0 24).signExtend 64
    let taken := (lanesOf g g.enabled).any (testedLane g n p)
    let other := (lanesOf g g.enabled).any (fun l => !testedLane g n p l)
    let trap (d : Nat) := Host.Outcome.next (φ := Fault) (ρ := Refusal) (trapEntry t st.uid g cBOUNDS d g.active g.pc 0)
    (wj.extractLsb' 24 8 ≠ 5#8 → exec (.brd n p o) s = trap 5) ∧
    (wj.extractLsb' 24 8 = 5#8 → (taken && other) = false →
      exec (.brd n p o) s = if g.passes = 255 then trap 3
        else .next (t.setGrove st.uid ((g.setPasses (g.passes + 1)).retireTo (if !taken && other then false_ else g.pc + 4)))) ∧
    (wj.extractLsb' 24 8 = 5#8 → (taken && other) = true → 16 ≤ g.div.length → exec (.brd n p o) s = trap 3) ∧
    (wj.extractLsb' 24 8 = 5#8 → (taken && other) = true → g.div.length < 16 → g.redo = none →
      ∃ (e : DivEntry) (first : LaneMask) (pc : Word),
        exec (.brd n p o) s = .next (t.freeWord.2.setGrove st.uid (({ g with div := e :: g.div, active := first } : Grove).retireTo pc)) ∧
          e.join = j ∧ e.rest = g.active ∧ e.passes = 0 ∧ e.deferRun = false ∧
          (∀ l, l < 1024 → (first ||| e.defer).getLsbD l = (decide (l < g.lam) && g.enabled.getLsbD l)) ∧
          ((pc = g.pc + 4 ∧ e.deferPc = false_ ∧ ∀ l, l < 1024 → first.getLsbD l = (decide (l < g.lam) && g.enabled.getLsbD l && testedLane g n p l)) ∨
           (pc = false_ ∧ e.deferPc = g.pc + 4 ∧ ∀ l, l < 1024 → e.defer.getLsbD l = (decide (l < g.lam) && g.enabled.getLsbD l && testedLane g n p l))))

/-- R249: a `join` at the top entry's address runs DEFER if it has not run and holds a live lane, and otherwise pops the
entry and goes on with the live lanes of REST; elsewhere it takes back a counted pass, or traps with BOUNDS, detail 4.
(No lane is parked; some lane of the mask that results is live.) -/
def Obligations.JoinResults : Prop :=
  ∀ (s : State) (st : Stand) (g : Grove) (i : BitVec 24), Runs (.join i) s st g → g.redo = none → g.parked = 0#1024 →
    let pass := if g.passes = 0 then Host.Outcome.next (φ := Fault) (ρ := Refusal) (trapEntry s st.uid g cBOUNDS 4 g.active g.pc 0)
      else .next (s.setGrove st.uid ((g.setPasses (g.passes - 1)).retireTo (g.pc + 4)))
    (g.div = [] → exec (.join i) s = pass) ∧
    ∀ e rest, g.div = e :: rest →
      (e.join ≠ g.pc → exec (.join i) s = pass) ∧
      (e.join = g.pc → e.deferRun = false → e.defer &&& g.live ≠ 0#1024 → exec (.join i) s = .next (s.setGrove st.uid
        (({ g with div := { e with deferRun := true, passes := 0 } :: rest, active := e.defer &&& g.live } : Grove).retireTo e.deferPc))) ∧
      (e.join = g.pc → e.deferRun = true ∨ e.defer &&& g.live = 0#1024 → e.rest &&& g.live ≠ 0#1024 →
        exec (.join i) s = .next (s.setGrove st.uid (({ g with div := rest, active := e.rest &&& g.live } : Grove).retireTo (g.pc + 4))))

end

/-! ## Ends, breaks, traps and returns -/

namespace Sys2Proof

open Machine

/-- Lanes `m` out of a grove: not live, not active, not parked, in no entry of the divergence stack (08 R170, R173). -/
def withoutLanes (g : Grove) (m : LaneMask) : Grove :=
  { g with
    live := g.live &&& ~~~m
    active := g.active &&& ~~~m
    parked := g.parked &&& ~~~m
    supp := g.supp &&& ~~~m
    div := g.div.map (fun e => { e with rest := e.rest &&& ~~~m, defer := e.defer &&& ~~~m }) }

/-- No `ldx` reply or error concerns a lane of the mask (11 R251). -/
def unowed (g : Grove) (m : LaneMask) : Prop :=
  (∀ e ∈ g.ldx, ∀ l ∈ e.lanes, m.getLsbD l.lane = false) ∧ ∀ e ∈ g.ldxErrs, m.getLsbD e.lane = false

/-- A grove and its stand when a handler ends (11 R257; 16 R343): the guard is what it was at entry, HND is 0, the halt is
over but for a debugger's, the sequencer goes on, and the pc is FAULTPC. -/
def Returned (s t : State) (st : Stand) (g : Grove) (active : LaneMask) : Prop :=
  ∃ st' g', t.stand? st.uid = some st' ∧ st'.grove? g.slot = some g' ∧ g'.pc = g.trap.faultPc ∧ g'.active = active ∧
    (∀ b, b < 13 → g'.mode.getLsbD b = if b = 12 then g.trap.pgen else g.mode.getLsbD b) ∧
    g'.trap.hnd = false ∧ (g'.trap.code, g'.trap.detail, g'.trap.faultPc, g'.trap.faultAddr) =
      (g.trap.code, g.trap.detail, g.trap.faultPc, g.trap.faultAddr) ∧
    (g'.live, g'.lanes, g'.s, g'.k, g'.ac, g'.boundary, g'.div, g'.basePasses, g'.fpflags, g'.phase) =
      (g.live, g.lanes, g.s, g.k, g.ac, g.boundary, g.div, g.basePasses, g.fpflags, g.phase) ∧
    st'.halt = (if st.dbgHalt then some ⟨g.trap.skidOrigin, 3⟩ else none) ∧ (st'.seq.run = if st.seq.run = 2 then 1 else st.seq.run) ∧
    (st'.copy.paused = (st.copy.paused && !st.copy.resume)) ∧
    (st.dbgHalt = false → ∀ x ∈ st'.groves, x.skidLeft = 0) ∧ t.m = s.m

end Sys2Proof

section

open Sys2Proof Sys2Proof.Machine

/-- R251, R252, R178, R179: `exit` ends the enabled lanes, and the others go on at the next word; a path left empty acts as
having reached its join; a grove left without a live lane is gone from its stand. `yield` begins the stand's save exactly
while its pre-emption is requested. -/
def Obligations.ExitAndYieldResults : Prop :=
  ∀ (s : State) (st : Stand) (g : Grove),
    (Runs .exitG s st g → unowed g g.enabled → g.redo = none →
      (g.active &&& ~~~g.enabled ≠ 0#1024 → g.live &&& ~~~g.enabled ≠ 0#1024 →
        exec .exitG s = .next (s.setGrove st.uid (withoutLanes g g.enabled).retire)) ∧
      (g.active &&& ~~~g.enabled = 0#1024 → g.parked = 0#1024 → ∀ e rest, (withoutLanes g g.enabled).div = e :: rest →
        e.deferRun = false → e.defer &&& g.live ≠ 0#1024 → exec .exitG s = .next (s.setGrove st.uid
          { (withoutLanes g g.enabled).retire with
            active := e.defer &&& g.live &&& ~~~g.enabled, pc := e.deferPc, div := { e with deferRun := true, passes := 0 } :: rest })) ∧
      (g.live &&& ~~~g.enabled = 0#1024 → ∃ t, exec .exitG s = .next t ∧
        ∀ x, t.stand? st.uid = some x → x.groves = st.groves.filter (fun h => h.slot ≠ g.slot))) ∧
    (Runs .yield s st g → exec .yield s = .next ((s.setGrove st.uid g.retire).modStand st.uid
      (fun x => if x.preq then { x with saving := true } else x)))

/-- R256, R344, R363: `trap` raises BREAK, detail 2, and `brk` detail 1, with the code in FAULTADDR and the next word in FAULTPC;
with BRKHALT, a `brk` of a clearing other than DBGCL halts its stand instead, every other running grove left four
instructions to retire, one in a wait none, the pc at the next word. (A halt for a trap not yet ended stays one: log entry
42.) -/
def Obligations.BreakResults : Prop :=
  ∀ (s : State) (st : Stand) (g : Grove) (i : BitVec 24),
    let p := s.d.part st.part
    (Runs (.trap i) s st g → exec (.trap i) s = .next (trapEntry s st.uid g 12 2 g.active (g.pc + 4) (i.setWidth 64))) ∧
    (Runs (.brk i) s st g → g.redo = none →
      (p.brkHalt = false ∨ p.dbgcl = st.clnum ∨ p.dbgcl = 0xFFFF →
        exec (.brk i) s = .next (trapEntry s st.uid g 12 1 g.active (g.pc + 4) (i.setWidth 64))) ∧
      (p.brkHalt = true → p.dbgcl ≠ st.clnum → p.dbgcl ≠ 0xFFFF → ∃ t st', exec (.brk i) s = .next t ∧
        t.stand? st.uid = some st' ∧ st'.halt = (if st.holdsTrap then st.halt else some ⟨g.slot, 3⟩) ∧ st'.dbgHalt = true ∧
        (st'.grove? g.slot).map (fun h => (h.pc, h.dbgHalt, h.skidLeft)) = some (g.pc + 4, true, 0) ∧
        (∀ n x, n ≠ g.slot → st.grove? n = some x → (st'.grove? n).map (·.skidLeft) =
          some (if x.wait ≠ .none ∧ !x.wait.own then 0 else if groveRuns st x then 4 else x.skidLeft)) ∧
        ∀ h ∈ st'.groves, h.trap.skidOrigin = g.slot ∧ h.trap.skidKind = 3 ∧ h.trap.skidCount = 0))

/-- R342, R345, R128 of 05: TAKING A TRAP of a grove with a handler, in a stand that holds no other trap: its halt, if any, is a
debugger's. k6 holds the active mask before it (in an execution for some lanes only, the mask to be resumed: log entry 18,
DEDUCED) and k7 the lanes; CAUSE, FAULTPC and FAULTADDR are written; the guard is off; every live lane that is not
parked is active; taint is cleared and the core's read copies are dropped; the pc is s30; the stand halts, and every grove's
SKID names the slot. Everything else of the grove, and all of memory, is kept. -/
def Obligations.TrapEntryEffect : Prop :=
  ∀ (s : State) (st : Stand) (g : Grove) (code detail : Nat) (lanes : LaneMask) (pc addr : Word), Acts s st g →
    s.skidding = false → st.dying = false → g.single = none →
    let h := vget g.s 30 0
    h ≠ 0 → h.toNat % 4 = 0 → h.toNat / 2 ^ 56 = 0 ∨ h.toNat / 2 ^ 56 = 255 →
    (∀ x, st.halt = some x → x.kind = 3) →
    ∃ t st' g', trapEntry s st.uid g code detail lanes pc addr = t ∧ t.stand? st.uid = some st' ∧ st'.grove? g.slot = some g' ∧
      g'.pc = h ∧
      (∀ l, l < g.lam → l < 1024 → (vget g'.k 7 0).getLsbD l = lanes.getLsbD l ∧
        (vget g'.k 6 0).getLsbD l = ((g.redo.map (·.resume)).getD g.active).getLsbD l) ∧
      (∀ n, n < 6 → vget g'.k n 0 = vget g.k n 0) ∧
      g'.trap = ⟨true, g.mode.getLsbD 12, code, detail, pc, addr, g.slot, 0, 0⟩ ∧
      (∀ b, b < 13 → g'.mode.getLsbD b = (decide (b ≠ 12) && g.mode.getLsbD b)) ∧
      g'.active = g.live &&& ~~~g.parked ∧ g'.lanes = g.lanes.map (fun x => { x with taint := 0 }) ∧
      (g'.live, g'.s, g'.ac, g'.boundary, g'.div, g'.basePasses, g'.fpflags, g'.phase, g'.ldx, g'.parked) =
        (g.live, g.s, g.ac, g.boundary, g.div, g.basePasses, g.fpflags, g.phase, g.ldx, g.parked) ∧
      st'.halt = some ⟨g.slot, 0⟩ ∧
      (∀ x ∈ st'.groves, x.trap.skidOrigin = g.slot ∧ x.trap.skidKind = 0 ∧ x.trap.skidCount = 0) ∧
      (∀ x ∈ t.m.l1, x.core = st.core → x.valid = 0) ∧ t.m.mem = s.m.mem ∧ t.m.hostMem = s.m.hostMem

/-- R342, R186: a trap of a grove whose s30 names no handler, or in a stand that holds a trap not yet ended, aborts the
domain: no live clearing of the partition is left in it, and no stand of one that was live, but for those with groves inside
an atomic: these stay, dying, with those groves alone until the instruction is over. -/
def Obligations.TrapWithoutHandlerAborts : Prop :=
  ∀ (s : State) (st : Stand) (g : Grove) (code detail : Nat) (lanes : LaneMask) (pc addr : Word), Acts s st g →
    s.skidding = false → st.dying = false → g.single = none →
    let h := vget g.s 30 0
    h = 0 ∨ h.toNat % 4 ≠ 0 ∨ (h.toNat / 2 ^ 56 ≠ 0 ∧ h.toNat / 2 ^ 56 ≠ 255) ∨ (∃ x, st.halt = some x ∧ x.kind ≠ 3) →
    let t := trapEntry s st.uid g code detail lanes pc addr
    (∀ c ∈ t.d.clearings, c.part = st.part → c.shape.domain = st.shape.domain → c.isLive = false) ∧
    (∀ c ∈ s.d.clearings, c.part = st.part → c.shape.domain = st.shape.domain → c.isLive = true →
      (∀ x ∈ t.d.saved, x.part = st.part → x.clnum ≠ c.num) ∧
      ∀ x ∈ t.stands, x.part = st.part → x.clnum = c.num → x.dying = true ∧ ∀ y ∈ x.groves, y.midAtomic = true)

/-- R257, R343: outside a handler both returns raise PRIV, detail 1. In one, with the divergence stack as it was at entry,
`eret` goes on with the lanes of k6, and `eret.replay` runs the instruction at FAULTPC for those of k7 first, unless its word
is of the B or J format or `jmpi`; a path of which no lane is left acts as having reached its join (R249); with another stack
the stand aborts, with BOUNDS, detail 10. `u` is what the fetch of the word at FAULTPC leaves. (The shape compared takes in the
pass count of a grove with no entry: log entry 77, DEDUCED.) -/
def Obligations.ReturnsFromTraps : Prop :=
  ∀ (s u : State) (st : Stand) (g : Grove) (w : BitVec 32),
    let sameStack := g.divShape = g.basePasses :: g.div.map (·.passes)
    let k (n : Nat) := vget g.k n 0 &&& g.live &&& ~~~g.parked
    let plain := (w.extractLsb' 24 8).toNat < 0x0F
    (Runs .eret s st g → g.kept = none → g.redo = none →
      (g.trap.hnd = false → exec .eret s = .next (trapEntry s st.uid g cPRIV 1 g.active g.pc 0)) ∧
      (g.trap.hnd = true → sameStack → k 6 ≠ 0#1024 → ∃ t, exec .eret s = .next t ∧ Returned s t st g (k 6)) ∧
      (g.trap.hnd = true → sameStack → k 6 = 0#1024 → g.parked = 0#1024 → ∀ e rest, g.div = e :: rest → e.deferRun = false →
        e.defer &&& g.live ≠ 0#1024 → ∃ t, exec .eret s = .next t ∧
          (((t.stand? st.uid).bind (fun x => x.grove? g.slot)).map (fun y => (y.pc, y.active, y.div))) =
            some (e.deferPc, e.defer &&& g.live, { e with deferRun := true, passes := 0 } :: rest)) ∧
      (g.trap.hnd = true → ¬ sameStack →
        exec .eret s = .next (abortDomain (s.setGrove st.uid g.stopped) st.uid (BitVec.ofNat 64 (6 + 256 * 10)) g.pc))) ∧
    (Runs .eretReplay s st g → g.kept = none → g.redo = none →
      (g.trap.hnd = false → exec .eretReplay s = .next (trapEntry s st.uid g cPRIV 1 g.active g.pc 0)) ∧
      (g.trap.hnd = true → sameStack → fetchWord s (st.mmu true g.slot) g.trap.faultPc = (.word w, u) → u.stands = s.stands →
        w.extractLsb' 24 8 ≠ 1#8 → (plain → k 6 ≠ 0#1024) →
        ∃ t, exec .eretReplay s = .next t ∧ Returned u t st g (if plain then k 6 else k 7) ∧
          (((t.stand? st.uid).bind (fun x => x.grove? g.slot)).bind (·.redo)).map (·.resume) =
            if plain then none else some (vget g.k 6 0)))

end

/-! ## Memory -/

namespace Sys2Proof

open Machine

/-- `n` bytes from virtual address `va`, for reading (`acc` 0) or writing (1) by the grove in a slot, lie in one page whose
translation the stand's die holds, KIND 0b00, at the plain HBM bytes from `pa` up, in no save area (02 R31, R33, R37, R41). -/
structure Plain (s : State) (st : Stand) (slot acc va n pa : Nat) : Prop where
  inPage : va % 4096 + n ≤ 4096
  page : lookup s (st.mmu true slot) va acc = .ok pa 0
  hbm : ∀ k, k < n → pa + k < 0x00B2D05E0000 ∧ inCoded s (pa + k) = false ∧ windowAt s (pa + k) = none ∧
    inSaveArea s (pa + k) = false

/-- A byte as a core's own loads see it in its L1. -/
def l1Byte (s : State) (core a : Nat) : Byte :=
  match l1Find s core (a / 128) with
  | some x => x.view.extractLsb' (8 * (a % 128)) 8
  | none => 0

/-- A core's L1 holds a sound byte: its own (registered or on the way to that), or, unless `own`, a read copy. -/
def L1Holds (s : State) (core a : Nat) (own : Bool) : Prop :=
  ∃ x, l1Find s core (a / 128) = some x ∧ (x.own.getLsbD (a % 128) || (!own && x.valid.getLsbD (a % 128))) = true ∧
    (x.poison &&& ~~~x.pendMask).getLsbD (a % 128) = false ∧ (x.lost &&& ~~~x.clean).getLsbD (a % 128) = false

/-- A core's L1 holds a byte as its own, registered or on the way to that, and it is not poisoned. -/
def L1Owns (s : State) (core a : Nat) : Prop :=
  ∃ x, l1Find s core (a / 128) = some x ∧ x.own.getLsbD (a % 128) = true ∧
    (x.poison &&& ~~~x.pendMask).getLsbD (a % 128) = false

/-- What a core's stores and atomics in its L1 may change of the memory system besides that L1 and its messages: the walks
that the grove had waited for are over (02 R40), and visitor copies of the lines go, also those on their way (04 R89). No home
changes. -/
structure HomesKept (s t : State) : Prop where
  rest : t.m = { s.m with l1 := t.m.l1, toSlice := t.m.toSlice, l2 := t.m.l2, fills := t.m.fills, walks := t.m.walks }
  slices : (∀ y ∈ s.m.l2, y.visitor = none → y ∈ t.m.l2) ∧ ∀ y ∈ t.m.l2, y ∈ s.m.l2
  fills : t.m.fills.map (fun f => { f with novis := false }) = s.m.fills.map (fun f => { f with novis := false })

/-- Eight bytes as a register, the lowest address lowest. -/
def littleEndian (f : Nat → Byte) : Word := BitVec.ofNat 64 (((List.range 8).map (fun k => (f k).toNat * 2 ^ (8 * k))).sum)

/-- The loads (13 R279, R280): data, base and offset, alignment, the scope of their acquire (0: none) and taint. -/
def loadForm (i : Instr) : Option (BitVec 8 × BitVec 8 × BitVec 8 × Nat × Nat × Bool) :=
  match i with
  | .ld d b o => some (d, b, o, 8, 0, false)
  | .ldu d b o => some (d, b, o, 1, 0, false)
  | .ldaGrove d b o => some (d, b, o, 8, 0, false)
  | .ldaStand d b o => some (d, b, o, 8, 1, false)
  | .ldaCluster d b o => some (d, b, o, 8, 2, false)
  | .ldaDie d b o => some (d, b, o, 8, 3, false)
  | .ldaPartition d b o => some (d, b, o, 8, 4, false)
  | .ldaDevice d b o => some (d, b, o, 8, 5, false)
  | .ldaSystem d b o => some (d, b, o, 8, 6, false)
  | .ldcGrove d b o => some (d, b, o, 8, 0, true)
  | .ldcStand d b o => some (d, b, o, 8, 0, true)
  | .ldcCluster d b o => some (d, b, o, 8, 0, true)
  | .ldcDie d b o => some (d, b, o, 8, 0, true)
  | .ldcPartition d b o => some (d, b, o, 8, 0, true)
  | .ldcDevice d b o => some (d, b, o, 8, 0, true)
  | .ldcSystem d b o => some (d, b, o, 8, 0, true)
  | _ => none

/-- Everything that a release at a scope waits for is done (04 R92; 05 R112; 13 R290), and at system scope the grove wrote no
line of KIND 0b01 that it would push, no word of a host line is on its way home, and the link has acknowledged every push. -/
structure ReleaseReady (s : State) (st : Stand) (g : Grove) (scope : Nat) : Prop where
  stores : scope < 2 ∨ g.outStores = 0
  writeBacks : g.outWbs = 0
  reads : g.ldx = []
  pushes : scope = 6 → (∀ x ∈ s.m.l1, ∀ k ∈ x.k01, k.1 ≠ ⟨st.uid, g.slot⟩) ∧ hostWbOut s = false ∧ s.m.hostQ = []

/-- The stores (13 R279 to R281): data, base, offset, mask of `stm`, and the scope of their release (0: none). -/
def storeForm (i : Instr) : Option (BitVec 8 × BitVec 8 × BitVec 8 × Option (BitVec 8) × Nat) :=
  match i with
  | .st d b o => some (d, b, o, none, 0)
  | .stm d a b => some (d, a, 0, some b, 0)
  | .stlGrove d b o => some (d, b, o, none, 0)
  | .stlStand d b o => some (d, b, o, none, 1)
  | .stlCluster d b o => some (d, b, o, none, 2)
  | .stlDie d b o => some (d, b, o, none, 3)
  | .stlPartition d b o => some (d, b, o, none, 4)
  | .stlDevice d b o => some (d, b, o, none, 5)
  | .stlSystem d b o => some (d, b, o, none, 6)
  | _ => none

/-- An `stl`. -/
def isStl (i : Instr) : Bool := match i with | .st .. => false | .stm .. => false | _ => (storeForm i).isSome

/-- Byte `k` of a lane's store data, the lowest register at the lowest address (01 R24). -/
def storeByte (g : Grove) (d : BitVec 8) (l k : Nat) : Byte :=
  ((srcRegs g d g.type (opW d) l).getD (k / 8) 0).extractLsb' (8 * (k % 8)) 8

end Sys2Proof

section

open Sys2Proof Sys2Proof.Machine

/-- R276, R277, R279, R280, R121 of 05: a load whose bytes the core's L1 holds puts them into the lane's registers, the lowest
register at the lowest address; it clears the registers' taint, and `ldc` sets it; `lda` then takes the effect of an acquire
at its scope, and `ldc.system` notes when it loaded (05 R122). (With a tainted base the bytes are the core's own.) Lanes that break the form's alignment change
nothing: after the others have loaded they trap with ALIGN, detail 3, at the address of the lowest. -/
def Obligations.LoadsPutMemoryIntoRegisters : Prop :=
  ∀ (i : Instr) (s : State) (st : Stand) (g : Grove) (d b o : BitVec 8) (n scope : Nat) (tn : Bool) (pa : Nat → Nat),
    loadForm i = some (d, b, o, n, scope, tn) → Runs i s st g → g.prog = Prog.none → Unwatched s st →
    let va := globalAddr g b o
    (∀ l, l < g.lam → g.enabled.getLsbD l = true → va l % n = 0 → Plain s st g.slot 0 (va l) (8 * opW d) (pa l) ∧
      ∀ k, k < 8 * opW d → homeOpOut s st.core ((pa l + k) / 128) = false ∧
        L1Holds s st.core (pa l + k) ((lanesOf g g.enabled).any (baseTaint g b))) →
    let wrong := (lanesOf g g.enabled).filter (fun l => va l % n ≠ 0)
    let looked := dropAsks s ⟨st.uid, g.slot⟩
    ∃ h : Grove, h = { g with lanes := h.lanes, prog := h.prog } ∧
      (∀ l, l < g.lam → g.enabled.getLsbD l = true → va l % n = 0 → opNum d < 56 →
        group (h.lane l) (opNum d) (opW d) =
          (List.range (opW d)).map (fun j => littleEndian (fun k => l1Byte s st.core (pa l + 8 * j + k))) ∧
        ∀ j, j < opW d → (h.lane l).taint.getLsbD (opNum d + j) = tn) ∧
      (∀ l, l < g.lam → g.enabled.getLsbD l = false ∨ va l % n ≠ 0 → h.lane l = g.lane l) ∧
      (wrong = [] → exec i s = .next (acquireAt (looked.setGrove st.uid
        ({ h with taintFence := match i with | .ldcSystem .. => s.stamp | _ => g.taintFence } : Grove).retire) st.core scope)) ∧
      ∀ l ls, wrong = l :: ls → ∃ m : LaneMask, (∀ k, k < 1024 → m.getLsbD k = wrong.contains k) ∧
        exec i s = .next (trapEntry looked st.uid h cALIGN 3 m g.pc (BitVec.ofNat 64 (va l)))

/-- R85 of 04, R276, R277, R279 to R281: a store puts the selected bytes of its data into the core's L1 and asks the homes
for the words that the core does not hold registered; no other byte of that L1, no byte of another, and no byte at any home
changes. The lanes' bytes are apart, and the core's L1 holds their lines. -/
def Obligations.StoresPutRegistersIntoL1 : Prop :=
  ∀ (i : Instr) (s : State) (st : Stand) (g : Grove) (d b o : BitVec 8) (mask : Option (BitVec 8)) (scope : Nat)
    (pa : Nat → Nat), storeForm i = some (d, b, o, mask, scope) → Runs i s st g → g.prog = Prog.none → Unwatched s st →
    (isStl i = true → ReleaseReady s st g scope ∧ (scope = 6 → (s.d.part st.part).scopeOn = false)) →
    let va := globalAddr g b o
    let on (l k : Nat) : Prop := l < g.lam ∧ g.enabled.getLsbD l = true ∧ k < 8 * opW d ∧
      ∀ m, mask = some m → (srcWhole g m false l).getLsbD k = true
    (∀ l, l < g.lam → g.enabled.getLsbD l = true → (mask = none → va l % 8 = 0) ∧ Plain s st g.slot 1 (va l) (8 * opW d) (pa l) ∧
      ∀ k, k < 8 * opW d → (l1Find s st.core ((pa l + k) / 128)).isSome) →
    (∀ l k l' k', on l k → on l' k' → pa l + k = pa l' + k' → l = l') →
    ∃ t rs, exec i s = .next t ∧ t.d = s.d ∧ HomesKept s t ∧ t.m.toSlice = s.m.toSlice ++ rs ∧
      t.stands = (s.setGrove st.uid { g.retire with outStores := g.outStores + rs.length }).stands ∧
      (∀ r ∈ rs, r.core = st.core ∧ ∃ m, r.req = .reg m ⟨st.uid, g.slot⟩) ∧
      (∀ l k, on l k → L1Owns t st.core (pa l + k) ∧ l1Byte t st.core (pa l + k) = storeByte g d l k) ∧
      ∀ c a, c ≠ st.core ∨ (∀ l k, on l k → pa l + k ≠ a) → l1Byte t c a = l1Byte s c a

/-- R32 of 02, R276, R277, R279: `lds` and `sts` act on the stand's scratch; a lane outside the reservation changes nothing, and
when all are outside they trap with BOUNDS, detail 2. The lanes of `sts` write apart. -/
def Obligations.ScratchLoadsAndStores : Prop :=
  ∀ (s : State) (st : Stand) (g : Grove) (d b o : BitVec 8), Unwatched s st →
    let va := scratchAddr g b o
    let en (l : Nat) : Prop := l < g.lam ∧ g.enabled.getLsbD l = true
    let trap (t : Host.Outcome State Fault Refusal) : Prop := ∃ m : LaneMask, (∀ k, k < 1024 → m.getLsbD k = (lanesOf g g.enabled).contains k) ∧
      t = .next (trapEntry s st.uid g cBOUNDS 2 m g.pc 0)
    (Runs (.lds d b o) s st g → (∀ l, en l → va l % 8 = 0 ∧ va l + 8 * opW d ≤ st.scratchSize) →
      ∃ h : Grove, exec (.lds d b o) s = .next (s.setGrove st.uid h.retire) ∧ h = { g with lanes := h.lanes } ∧
        ∀ l, en l → opNum d < 56 → group (h.lane l) (opNum d) (opW d) =
          (List.range (opW d)).map (fun j => littleEndian (fun k => memByte st.scratch (va l + 8 * j + k)))) ∧
    (Runs (.sts d b o) s st g → Memory.wf st.scratch = true → (∀ l, en l → va l % 8 = 0 ∧ va l + 8 * opW d ≤ st.scratchSize) →
      (∀ l l', en l → en l' → l ≠ l' → va l + 8 * opW d ≤ va l' ∨ va l' + 8 * opW d ≤ va l) →
      ∃ m, exec (.sts d b o) s = .next ((s.setGrove st.uid g.retire).modStand st.uid (fun x => { x with scratch := m })) ∧
        (∀ l k, en l → k < 8 * opW d → memByte m (va l + k) = storeByte g d l k) ∧
        ∀ a, (∀ l, en l → a < va l ∨ va l + 8 * opW d ≤ a) → memByte m a = memByte st.scratch a) ∧
    ((∃ l, en l) → (∀ l, en l → va l % 8 = 0 ∧ st.scratchSize < va l + 8 * opW d) →
      (Runs (.lds d b o) s st g → trap (exec (.lds d b o) s)) ∧ (Runs (.sts d b o) s st g → trap (exec (.sts d b o) s)))

end

namespace Sys2Proof

open Machine

/-- The new element of each atomic from the operands x and y and the old element, all below 2^w (the table of 13 R286;
none: no write), and the flags. -/
def atomicFunction (i : Instr) (t rnd : Nat) : Option (BitVec 8 × BitVec 8 × BitVec 8 × (Nat → Nat → Nat → Option Nat × FFlags)) :=
  let w := typeBits t
  let value (v : Nat) : Int := if t = 2 ∨ t = 3 then (BitVec.ofNat w v).toInt else v
  match i with
  | .atomAdd d a b => some (d, a, b, fun x _ old => (some ((old + x) % 2 ^ w), 0))
  | .atomMin d a b => some (d, a, b, fun x _ old => (some (if value x < value old then x else old), 0))
  | .atomMax d a b => some (d, a, b, fun x _ old => (some (if value old < value x then x else old), 0))
  | .atomAnd d a b => some (d, a, b, fun x _ old => (some (old &&& x), 0))
  | .atomOr d a b => some (d, a, b, fun x _ old => (some (old ||| x), 0))
  | .atomXor d a b => some (d, a, b, fun x _ old => (some (old ^^^ x), 0))
  | .atomXchg d a b => some (d, a, b, fun x _ _ => (some x, 0))
  | .atomCas d a b => some (d, a, b, fun x y old => (if old = x then some y else none, 0))
  | .atomFadd d a b => some (d, a, b, fun x _ old => ((fun r => (some r.1, r.2)) (fAdd (fmtOf t) rnd old x)))
  | _ => none

/-- Bytes of a core's L1 as a number, the lowest address lowest. -/
def l1Nat (s : State) (core a n : Nat) : Nat := ((List.range n).map (fun k => (l1Byte s core (a + k)).toNat * 2 ^ (8 * k))).sum

/-- R91, R95 of 04: what an acquire of a core does from cluster scope up: its read copies go, fills in flight towards it
are not installed, and copies held on its die (from partition scope) and of the host (at system scope) count as too old;
nothing of memory, of other cores or of what it holds registered changes. Below cluster scope it does nothing. -/
def AcquireEffect (s t : State) (core scope : Nat) : Prop :=
  if scope < 2 then t = s
  else t.stands = s.stands ∧
    (∀ x ∈ t.m.l1, x.core = core → x.valid = 0) ∧
    (∀ x ∈ s.m.l1, (x.core ≠ core → x.reg ||| x.valid ≠ 0#128 ∨ x.pend ≠ [] → x ∈ t.m.l1) ∧
      (x.core = core → x.reg ≠ 0#128 ∨ x.pend ≠ [] → { x with valid := 0 } ∈ t.m.l1)) ∧
    t.m.fills = s.m.fills.map (fun f => if f.core = core then { f with overtaken := true } else f) ∧
    t.m = { s.m with l1 := t.m.l1, fills := t.m.fills } ∧
    (core < s.d.cores.length → (t.d.core core).visFence = (if 4 ≤ scope then s.stamp else (s.d.core core).visFence) ∧
      (t.d.core core).hostFence = (if scope = 6 then s.stamp else (s.d.core core).hostFence))

end Sys2Proof

section

open Sys2Proof Sys2Proof.Machine

/-- R282 to R285: `ldx` goes on at the next word; what it owes is recorded with the lane, the address and the place of each reply,
its reads still to be sent, and with no lane enabled it counts at once. `waita` goes on once the counter is
at or past the target modulo 2^32, and otherwise waits. (Fewer than 64 executions are outstanding; no lane breaks a rule.) -/
def Obligations.SplitLoadsAndTheirWait : Prop :=
  ∀ (s : State) (st : Stand) (g : Grove),
    (∀ (d b : BitVec 8) (f : BitVec 1) (z : BitVec 2) (c : BitVec 4) (pa : Nat → Nat), Runs (.ldx d b f z c) s st g →
      g.prog = Prog.none → Unwatched s st → g.ldx.length < 64 → (∀ e ∈ g.ldx, e.counts = true ∧ e.lanes ≠ [] ∧ e.id ≠ s.nextId) →
      let w := if f = 1#1 then 2 ^ z.toNat else opW d
      let land_ (l : Nat) : Nat := (srcWhole g d true l).toNat % 2 ^ 32
      (∀ l, l < g.lam → g.enabled.getLsbD l = true → (baseVal g b l).toNat % 8 = 0 ∧
        Plain s st g.slot 0 (baseVal g b l).toNat (8 * w) (pa l) ∧ (f = 1#1 → land_ l + 8 * w ≤ st.scratchSize)) →
      let lanes := (lanesOf g g.enabled).map (fun l => LdxLane.mk l (baseVal g b l) [⟨pa l, 8 * w, 0⟩]
        (if f = 1#1 then land_ l else 0) (baseTaint g b l) false [] [] none)
      exec (.ldx d b f z c) s = .next (({ dropAsks s ⟨st.uid, g.slot⟩ with nextId := s.nextId + 1 }).setGrove st.uid
        ((if lanes = [] then { g with ac := g.ac.setIfInBounds c.toNat (vget g.ac c.toNat 0 + 1) }
         else { g with ldx := g.ldx ++ [LdxExec.mk s.nextId g.pc c.toNat (decide (f = 1#1)) d w lanes true] } : Grove)).retire)) ∧
    ∀ (src : BitVec 1) (n : BitVec 4) (t : BitVec 16), Runs (.waita src n t) s st g →
      let target : BitVec 32 := if src = 1#1 then (vget g.s (t.toNat % 32) 0).setWidth 32 else t.setWidth 32
      ((vget g.ac n.toNat 0 - target).toNat < 2 ^ 31 → (∀ e ∈ g.ldxErrs, e.ac ≠ n.toNat) →
        exec (.waita src n t) s = .next (s.setGrove st.uid g.retire)) ∧
      (2 ^ 31 ≤ (vget g.ac n.toNat 0 - target).toNat → g.single = none → exec (.waita src n t) s =
        .next (s.setGrove st.uid { g with wait := .memory, held := some (.waita src n t) }))

/-- R102 of 04, R276, R277, R286: an atomic on sound elements whose words the core holds registered, with no store to them
under way, acts in its L1: each lane's
register takes the old element, zero-extended, and the element becomes the table's result; nothing else of any L1, and no
byte at any home, changes; `atom.fadd` adds its flags to the lane's and to FPFLAGS. The lanes name different elements. -/
def Obligations.AtomicsOnRegisteredWords : Prop :=
  ∀ (i : Instr) (s : State) (st : Stand) (g : Grove) (d a b : BitVec 8) (f : Nat → Nat → Nat → Option Nat × FFlags) (pa : Nat → Nat),
    atomicFunction i g.type g.rnd = some (d, a, b, f) → Runs i s st g → g.prog = Prog.none → Unwatched s st →
    let w := typeBits g.type
    let n := w / 8
    let en (l : Nat) : Prop := l < g.lam ∧ g.enabled.getLsbD l = true
    let operand (l j : Nat) : Nat := ((srcRegs g b g.type (opW b) l).getD j 0).toNat % 2 ^ w
    let result (l : Nat) := f (operand l 0) (operand l 1) (l1Nat s st.core (pa l) n)
    (∀ l, en l → (baseVal g a l).toNat % n = 0 ∧ pa l % n = 0 ∧ Plain s st g.slot 1 (baseVal g a l).toNat n (pa l) ∧
      ∃ x, l1Find s st.core (pa l / 128) = some x ∧ ∀ k, k < n → x.reg.getLsbD (pa l % 128 + k) = true ∧
        x.poison.getLsbD (pa l % 128 + k) = false ∧ x.lost.getLsbD (pa l % 128 + k) = false ∧
        (wordsOf x.pendMask).getLsbD (pa l % 128 + k) = false) →
    (∀ l l', en l → en l' → pa l = pa l' → l = l') →
    ∃ (t : State) (h : Grove), exec i s = .next t ∧ t.stands = (s.setGrove st.uid h.retire).stands ∧
      h = { g with lanes := h.lanes, fpflags := h.fpflags } ∧ HomesKept s t ∧ t.m.toSlice = s.m.toSlice ∧
      (∀ l, en l → (opNum d < 56 → (h.lane l).reg (opNum d) = BitVec.ofNat 64 (l1Nat s st.core (pa l) n)) ∧
        (h.lane l).flags = (g.lane l).flags ||| (result l).2 ∧
        l1Nat t st.core (pa l) n = (result l).1.getD (l1Nat s st.core (pa l) n)) ∧
      (∀ q, h.fpflags.getLsbD q = (g.fpflags.getLsbD q || (lanesOf g g.enabled).any (fun l => (result l).2.getLsbD q))) ∧
      ∀ c y, c ≠ st.core ∨ (∀ l, en l → y < pa l ∨ pa l + n ≤ y) → l1Byte t c y = l1Byte s c y

/-- R288, R92, R125 of 05: a fence whose release has nothing left to wait for retires and then acts as an acquire at its scope;
with writes of its own under way it waits, and with reads too (log entry 33, DEDUCED). Under SCOPEPOL.CLIP a system fence sets SCOPECLIP and acts at
partition scope, or with TRAP raises SCOPE, detail 1. -/
def Obligations.FencesReleaseThenAcquire : Prop :=
  ∀ (s : State) (st : Stand) (g : Grove) (sc : BitVec 3), Runs (.fence sc) s st g → g.prog = Prog.none →
    let p := s.d.part st.part
    let noted := s.modPart st.part (fun p => { p with scopeclip := true })
    (sc.toNat ≠ 6 ∨ p.scopeOn = false → ReleaseReady s st g sc.toNat →
      ∃ t, exec (.fence sc) s = .next t ∧ AcquireEffect (s.setGrove st.uid g.retire) t st.core sc.toNat) ∧
    (sc.toNat ≠ 6 ∨ p.scopeOn = false → (2 ≤ sc.toNat ∧ g.outStores ≠ 0) ∨ g.outWbs ≠ 0 ∨ g.ldx ≠ [] →
      exec (.fence sc) s = .next (s.setGrove st.uid { g with wait := .inside, held := some (.fence sc) })) ∧
    (sc.toNat = 6 → p.scopeOn = true → p.scopeTrap = true →
      exec (.fence sc) s = .next (trapEntry noted st.uid g cSCOPE 1 g.active g.pc 0)) ∧
    (sc.toNat = 6 → p.scopeOn = true → p.scopeTrap = false → ReleaseReady s st g 4 →
      ∃ t, exec (.fence sc) s = .next t ∧ AcquireEffect (noted.setGrove st.uid g.retire) t st.core 4)

/-- R289 to R292, R93, R94 of 04: `inv.range` drops the core's read copies of every line that a lane's range touches, and
`wb.range` sends home every registered word that it touches, and waits too for the write-backs of such words that are on their
way; registers and memory are unchanged. While a store under way still names a word of the range, `wb.range` waits (log entry
121, DEDUCED). Each range lies in one page whose translation the die holds. -/
def Obligations.RangeInstructions : Prop :=
  ∀ (s : State) (st : Stand) (g : Grove) (a b : BitVec 8) (pa : Nat → Nat),
    let en (l : Nat) : Prop := l < g.lam ∧ g.enabled.getLsbD l = true
    let n (l : Nat) : Nat := (srcWhole g b false l).toNat % 2 ^ 32
    let me : Who := ⟨st.uid, g.slot⟩
    let out (r : ToSlice) : Bool := match r.req with
      | .wb m _ _ ws => r.core == st.core && !ws.contains me && (List.range 128).any (fun j => m.getLsbD j &&
          (lanesOf g g.enabled).any (fun l => decide (pa l ≤ 128 * r.line + j ∧ 128 * r.line + j < pa l + n l)))
      | _ => false
    let waitedBy (r : ToSlice) : ToSlice := match r.req with
      | .wb m d c ws => { r with req := .wb m d c (ws ++ [me]) }
      | _ => r
    (∀ l, en l → (baseVal g a l).toNat % 4096 + n l ≤ 4096 ∧ ∃ k, lookup s (st.mmu true g.slot) (baseVal g a l).toNat 0 = .ok (pa l) k ∧ pa l < 2 ^ 45) →
    (Runs (.invRange a b) s st g → g.ldx = [] → ∃ t, exec (.invRange a b) s = .next t ∧
      t.stands = (s.setGrove st.uid g.retire).stands ∧ t.m.mem = s.m.mem ∧ t.m.hostMem = s.m.hostMem ∧ t.m.toSlice = s.m.toSlice ∧
      ∀ l k, en l → k < n l → ∀ x ∈ t.m.l1, x.core = st.core → x.line = (pa l + k) / 128 → x.valid = 0) ∧
    let free := spansReady s st.core ((lanesOf g g.enabled).map (fun l => (pa l, n l)))
    (Runs (.wbRange a b) s st g → g.outStores = 0 → free = false → exec (.wbRange a b) s =
      .next ((dropAsks s me).setGrove st.uid { g with wait := .inside, held := some (.wbRange a b) })) ∧
    (Runs (.wbRange a b) s st g → g.outStores = 0 → free = true → ∃ t rs, exec (.wbRange a b) s = .next t ∧
      t.stands = (s.setGrove st.uid { g.retire with outWbs := g.outWbs + s.m.toSlice.countP out + rs.length }).stands ∧
      t.m.mem = s.m.mem ∧ t.m.hostMem = s.m.hostMem ∧
      t.m.toSlice = s.m.toSlice.map (fun r => if out r then waitedBy r else r) ++ rs ∧
      (∀ r ∈ rs, r.core = st.core ∧ ∃ m d c, r.req = .wb m d c [me]) ∧
      ∀ l k, en l → k < n l → ∀ x, l1Find t st.core ((pa l + k) / 128) = some x → x.reg.getLsbD ((pa l + k) % 128) = false)

end

/-! ## Launches, floes, barriers, timelines, deposits -/

namespace Sys2Proof

open Machine

/-- What an arrival of a grove slot makes of a barrier (08 R178): the last that the phase in progress needs begins the
next phase. -/
def Arrived (st : Stand) (slot : Nat) (b b' : Barrier) : Prop :=
  let full := (∀ g ∈ st.groves, g.slot = slot ∨ g.slot ∈ b.arrived) ∧ (b.seqJoined = true → b.seqArrived = true) ∧ b.signals = []
  (full → b' = { b with phase := (b.phase + 1) % 2 ^ 32, arrived := [], seqArrived := false }) ∧
    (¬ full → b' = { b with arrived := slot :: b.arrived })

end Sys2Proof

section

open Sys2Proof Sys2Proof.Machine

/-- R255, R197, R199: a block at no multiple of 256 traps with ALIGN, detail 2; after its release at device scope `launch`
reads and checks the block: a fault of the reads traps, any refusal is BOUNDS, detail 6, at the block's address, and an
accepted block gives a clearing of a number that was free, all its stands still to be placed, whose parent is the
launching stand's; the number goes to sD. While a page or a line that the launch reads is not there yet, it waits. -/
def Obligations.LaunchResults : Prop :=
  ∀ (s : State) (st : Stand) (g : Grove) (d a : BitVec 8), Runs (.launch d a) s st g →
    let block := vget g.s a.toNat 0
    let parent := clearing? s st.part st.clnum
    let r := launchBlock s st.part (st.core / 48) ⟨st.uid, g.slot⟩ block.toNat parent
    (block.toNat % 256 ≠ 0 → exec (.launch d a) s = .next (trapEntry s st.uid g cALIGN 2 g.active g.pc block)) ∧
    (block.toNat % 256 = 0 → ReleaseReady s st g 5 →
      (r.1 = none → exec (.launch d a) s = .next (r.2.setGrove st.uid { g with wait := .inside, held := some (.launch d a) })) ∧
      ∀ e, r.1 = some e →
      (∀ c k v, e.fault = some (c, k, v) →
        exec (.launch d a) s = .next (trapEntry r.2 st.uid g c k g.active g.pc (BitVec.ofNat 64 v))) ∧
      (e.fault = none → e.result ≠ 0 →
        exec (.launch d a) s = .next (trapEntry r.2 st.uid g cBOUNDS 6 g.active g.pc block)) ∧
      (e.fault = none → e.result = 0 →
        exec (.launch d a) s = .next (r.2.setGrove st.uid
          ({ g with s := g.s.setIfInBounds d.toNat (BitVec.ofNat 64 e.clnum) } : Grove).retire) ∧
        (∀ c ∈ s.d.clearings, c.part = st.part → c.isLive = true → c.num ≠ e.clnum) ∧
        ∃ c ∈ r.2.d.clearings, c.num = e.clnum ∧ c.part = st.part ∧ c.state = 1 ∧ c.parent = parent.map (·.id) ∧
          c.remaining = [(0, c.shape.nx * c.shape.ny * c.shape.nz)]))

/-- R64, R65, R67 of 03, R293: the floe instructions on a floe that the stand lacks raise FLOE, detail 1. `floe.def` makes
an empty floe ready over 256-byte units of the reservation that no other floe holds, and raises detail 2 or 3 otherwise;
`floe.rel` empties a ready floe, raises detail 3 on an empty one, and waits on one that fills or drains; `floe.st` reads
the entry: state, PEND, size and offset. -/
def Obligations.FloeResults : Prop :=
  ∀ (s : State) (st : Stand) (g : Grove) (n : BitVec 6),
    let f := st.floes.getD n.toNat ⟨0, 0, 0, 0⟩
    let trap (d : Nat) := Host.Outcome.next (φ := Fault) (ρ := Refusal) (trapEntry s st.uid g cFLOE d g.active g.pc 0)
    let set (f : Floe) := Host.Outcome.next (φ := Fault) (ρ := Refusal)
      ((s.setGrove st.uid g.retire).modStand st.uid (fun x => { x with floes := x.floes.set n.toNat f }))
    (∀ a b, Runs (.floeDef n a b) s st g →
      let off := (scalarSource g a).toNat
      let size := (scalarSource g b).toNat
      let numbers := off % 256 = 0 ∧ size % 256 = 0 ∧ 0 < size ∧ size ≤ 15360 * 256
      let place := off + size ≤ st.scratchSize ∧ ∀ h ∈ st.floes, h.state ≠ 0 → off / 256 + size / 256 ≤ h.offset ∨ h.offset + h.size ≤ off / 256
      (st.floes.length ≤ n.toNat → exec (.floeDef n a b) s = trap 1) ∧
      (n.toNat < st.floes.length → ¬ numbers → exec (.floeDef n a b) s = trap 2) ∧
      (n.toNat < st.floes.length → numbers → f.state ≠ 0 → exec (.floeDef n a b) s = trap 3) ∧
      (n.toNat < st.floes.length → numbers → f.state = 0 → ¬ place → exec (.floeDef n a b) s = trap 2) ∧
      (n.toNat < st.floes.length → numbers → f.state = 0 → place → exec (.floeDef n a b) s = set ⟨2, 0, size / 256, off / 256⟩)) ∧
    (Runs (.floeRel n) s st g →
      (st.floes.length ≤ n.toNat → exec (.floeRel n) s = trap 1) ∧
      (n.toNat < st.floes.length → f.state = 0 → exec (.floeRel n) s = trap 3) ∧
      (n.toNat < st.floes.length → f.state = 2 → exec (.floeRel n) s = set ⟨0, 0, 0, 0⟩) ∧
      (n.toNat < st.floes.length → f.state = 1 ∨ f.state = 3 → g.single = none →
        exec (.floeRel n) s = .next (s.setGrove st.uid { g with wait := .memory, held := some (.floeRel n) }))) ∧
    ∀ d, Runs (.floeSt d n) s st g →
      (st.floes.length ≤ n.toNat → exec (.floeSt d n) s = trap 1) ∧
      (n.toNat < st.floes.length → exec (.floeSt d n) s = .next (s.setGrove st.uid
        ({ g with s := g.s.setIfInBounds d.toNat (BitVec.ofNat 64 (f.offset + 2 ^ 16 * f.size + 2 ^ 32 * f.pend + 2 ^ 62 * f.state)) } : Grove).retire))

/-- R178 of 08, R294: `bar.arr` counts the grove once in the phase in progress, when its own stores and range write-backs are
performed (R118 of 05, R290), and goes on; `bar.sync` goes on when its arrival completes the phase, and otherwise waits for the phase to end; `bar.wait` waits
until the phase that it met has ended. A second arrival in one phase waits for its end. -/
def Obligations.BarrierResults : Prop :=
  ∀ (s : State) (st : Stand) (g : Grove) (n : BitVec 4) (b : Barrier), st.barriers[n.toNat]? = some b →
    let last := g.barLast.getD n.toNat none
    let noted := { g with barLast := g.barLast.set n.toNat (some b.phase) }
    let waiting (i : Instr) (g : Grove) : Grove :=
      { g with prog := { g.prog with phase := 1, barPhase := b.phase }, wait := .barrier, held := some i }
    let after (i : Instr) (h : Barrier → Grove) : Prop := ∃ (t : State) (st' : Stand) (b' : Barrier), exec i s = .next t ∧ t.stand? st.uid = some st' ∧
      st'.barriers[n.toNat]? = some b' ∧ Arrived st g.slot b b' ∧ st'.grove? g.slot = some (h b') ∧ t.m = s.m ∧ t.d = s.d
    (Runs (.barArr n) s st g → g.single = none →
      (last ≠ some b.phase → g.outStores = 0 → g.outWbs = 0 → after (.barArr n) (fun _ => noted.retire)) ∧
      (last = some b.phase → exec (.barArr n) s = .next (s.setGrove st.uid { g with wait := .barrier, held := some (.barArr n) })) ∧
      (last ≠ some b.phase → g.outStores ≠ 0 ∨ g.outWbs ≠ 0 →
        exec (.barArr n) s = .next (s.setGrove st.uid { g with wait := .barrier, held := some (.barArr n) }))) ∧
    (Runs (.barSync n) s st g → g.single = none → g.prog.phase ≠ 1 → b.phase < 2 ^ 32 →
      last ≠ some b.phase → g.outStores = 0 → g.outWbs = 0 → after (.barSync n) (fun b' =>
        if b'.phase = b.phase then waiting (.barSync n) noted else noted.retire)) ∧
    (∀ i, i = .barWait n ∨ i = .barSync n → Runs i s st g → g.single = none → g.prog.phase = 1 →
      (b.phase ≠ g.prog.barPhase → exec i s = .next (s.setGrove st.uid g.retire)) ∧
      (b.phase = g.prog.barPhase → exec i s = .next (s.setGrove st.uid (waiting i g)))) ∧
    (Runs (.barWait n) s st g → g.single = none → g.prog.phase ≠ 1 →
      exec (.barWait n) s = .next (s.setGrove st.uid (waiting (.barWait n) g)))

/-- R296, R119 of 05: `tlwait` goes on once the timeline's counter has reached the value, as an acquire at its scope, and
otherwise waits; `tlrd` reads the counter or the last number given out. -/
def Obligations.TimelineResults : Prop :=
  ∀ (s : State) (st : Stand) (g : Grove) (t : BitVec 1),
    let tl := if t = 1#1 then st.tlm else st.tlc
    (∀ sc r n, Runs (.tlwait sc t r n) s st g →
      let v := if r = 1#1 then (vget g.s (n.toNat % 32) 0).toNat else n.toNat
      (v ≤ tl.counter → ∃ u, exec (.tlwait sc t r n) s = .next u ∧ AcquireEffect (s.setGrove st.uid g.retire) u st.core sc.toNat) ∧
      (tl.counter < v → g.single = none → exec (.tlwait sc t r n) s =
        .next (s.setGrove st.uid { g with wait := .memory, held := some (.tlwait sc t r n) }))) ∧
    ∀ d w, Runs (.tlrd t d w) s st g → exec (.tlrd t d w) s = .next (s.setGrove st.uid
      ({ g with s := g.s.setIfInBounds d.toNat (BitVec.ofNat 64 (if w = 1#1 then tl.last else tl.counter)) } : Grove).retire)

/-- R188 to R190 of 08, R253: a deposit without bins raises BOUNDS, detail 7, one with an entry address that is no multiple
of 4 ALIGN, detail 2. One of a grove with a store or a split load of its own under way waits (R254), and so it does while a
bin of the stand is to change first (09 R208). With room in the key's filling bin every enabled lane adds its record to it, in an
order that is not fixed; `spawn` leaves the lanes live, `rebin` ends them. -/
def Obligations.DepositResults : Prop :=
  ∀ (i : Instr) (s : State) (st : Stand) (g : Grove) (d b : BitVec 8) (r : Nat) (ends : Bool),
    ((∃ a, i = .spawn d a b ∧ r = a.toNat % 64 ∧ ends = false) ∨ (i = .rebin d b ∧ r = 0 ∧ ends = true)) →
    Runs i s st g → unowed g g.enabled → g.redo = none →
    let key := (scalarSource g d, (scalarSource g b).setWidth 16)
    let w := st.shape.recw
    let trap (c d : Nat) (v : Word) := Host.Outcome.next (φ := Fault) (ρ := Refusal) (trapEntry s st.uid g c d g.active g.pc v)
    (st.bins = [] → exec i s = trap cBOUNDS 7 0) ∧
    (st.bins ≠ [] → r + w ≤ 56 → r + w ≤ g.boundary → key.1.toNat % 4 ≠ 0 → exec i s = trap cALIGN 2 key.1) ∧
    (st.bins ≠ [] → r + w ≤ 56 → r + w ≤ g.boundary → key.1.toNat % 4 = 0 →
      g.outStores ≠ 0 ∨ g.ldx ≠ [] ∨ binsBusy s st = true → g.single = none →
      exec i s = .next (s.setGrove st.uid { g with wait := .deposit, held := some i })) ∧
    (g.outStores = 0 → g.ldx = [] → binsBusy s st = false → ∀ (k : Nat) (bin : Bin), st.bins[k]? = some bin → bin.key = some key →
      (∀ j, j < k → (st.bins[j]?).bind (fun x => x.key) ≠ some key) →
      bin.launching = none → bin.timer ≠ 0 → r + w ≤ 56 → r + w ≤ g.boundary → key.1.toNat % 4 = 0 →
      bin.recs.length + (lanesOf g g.enabled).length ≤ st.shape.lanes → g.prog.done = 0#1024 →
      ∃ (t : State) (st' : Stand) (bin' : Bin) (order : List Nat), exec i s = .next t ∧ t.stand? st.uid = some st' ∧ st'.bins[k]? = some bin' ∧
        order.Perm (lanesOf g g.enabled) ∧ bin'.key = some key ∧ bin'.timer = bin.timer ∧
        bin'.recs = bin.recs ++ order.map (fun l => (List.range w).map (fun j => (g.lane l).reg (r + j))) ∧
        bin'.launching = none ∧
        (ends = false → st'.grove? g.slot = some g.retire) ∧
        (ends = true → g.active &&& ~~~g.enabled ≠ 0#1024 → g.live &&& ~~~g.enabled ≠ 0#1024 →
          st'.grove? g.slot = some (withoutLanes g g.enabled).retire) ∧
        (ends = true → g.live &&& ~~~g.enabled = 0#1024 → st'.grove? g.slot = none))

end

/-! ## The copy context -/

/-! ## Conversions of accumulators, and the serac code -/

/-! ## Debugging -/

namespace Sys2Proof

open Machine

/-- The copy instructions (15 R325): kind and the operand bytes of destination, source and control. -/
def copyForm (i : Instr) : Option (Nat × BitVec 8 × BitVec 8 × BitVec 8) :=
  match i with
  | .cpy d a b => some (0, d, a, b)
  | .cpym d a b => some (1, d, a, b)
  | .cpyx d a b => some (2, d, a, b)
  | _ => none

/-- Bits `lo` to `lo + n - 1` of a value. -/
def bitsOf (v : Word) (lo n : Nat) : Nat := v.toNat / 2 ^ lo % 2 ^ n

/-- The two ends of a slice (15 R322, R323): kind (0 global, 1 scratch, 2 floe), value, bytes used. The landing of `cpym`, and
what a compressed source needs, are not known at issue. -/
def copyEnds (c : CopySlice) (kind : Nat) : List (Nat × Word × Nat) :=
  let len := if kind = 1 then bitsOf c.x 0 22 else bitsOf c.x 0 32
  let es := match bitsOf c.t 4 4 with | 8 => 2 | 9 => 2 | 10 => 4 | _ => 1
  let source := match bitsOf c.t 0 4 with | 1 => 0 | 2 => len / 2 | 3 => 2 * len | 4 => es * len | 5 => 2 * es * len | _ => len
  (if kind = 1 then [] else [(bitsOf c.x 36 4, c.d, len)]) ++ [(if kind = 1 then 0 else bitsOf c.x 32 4, c.s, source)]

/-- The checks at issue in the order of the table of 15 R335: cause, detail, condition. `kind` is 0 for `cpy`, 1 for `cpym`, 2 for
`cpyx`. -/
def copyChecks (st : Stand) (c : CopySlice) (kind : Nat) : List (Nat × Nat × Prop) :=
  let len := if kind = 1 then bitsOf c.x 0 22 else bitsOf c.x 0 32
  let xf := bitsOf c.t 0 4
  let ty := bitsOf c.t 4 4
  let es := if ty = 10 then 4 else if ty = 8 ∨ ty = 9 then 2 else 1
  let isFloe (e : Nat × Word × Nat) (p : Floe → Prop) : Prop := e.1 = 2 ∧ ∃ f, st.floes[bitsOf e.2.1 0 6]? = some f ∧ p f
  [(cENGINE, 0x01, if kind = 1 then bitsOf c.x 22 11 ≠ 0 ∨ bitsOf c.x 50 14 ≠ 0
      else bitsOf c.x 40 24 ≠ 0 ∨ ∃ e ∈ copyEnds c kind, e.1 = 2 ∧ bitsOf e.2.1 6 26 ≠ 0),
    (cENGINE, 0x02, (∃ e ∈ copyEnds c kind, 2 < e.1) ∨ (if kind = 1 then 2 else 5) < xf ∨
      (xf = 2 ∨ xf = 3) ∧ ty ∉ [0, 8, 9, 10, 12, 13] ∨ (xf = 4 ∨ xf = 5) ∧ ty ∉ [9, 10] ∨ kind = 1 ∧ bitsOf c.x 33 12 = 0),
    (cENGINE, 0x03, len % (match xf with | 2 => 8 * es | 3 => 4 * es | 4 => 32 | 5 => 16 | _ => 1) ≠ 0),
    (cFLOE, 1, ∃ e ∈ copyEnds c kind, e.1 = 2 ∧ st.floes.length ≤ bitsOf e.2.1 0 6),
    (cFLOE, 3, ∃ e ∈ copyEnds c kind, isFloe e (fun f => f.state = 0)),
    (cENGINE, 0x05, ∃ e ∈ copyEnds c kind, isFloe e (fun f => f.size * 256 < bitsOf e.2.1 32 32 + e.2.2)),
    (cBOUNDS, 2, ∃ e ∈ copyEnds c kind, e.1 = 1 ∧ e.2.2 ≠ 0 ∧ st.scratchSize < bitsOf e.2.1 0 32 + e.2.2)]

/-- The floes that a slice names (03 R66): whether as its destination (a fill, else a drain), and which. -/
def floesNamed (c : CopySlice) (kind : Nat) : List (Bool × Nat) :=
  (if kind ≠ 1 ∧ bitsOf c.x 36 4 = 2 then [(true, bitsOf c.d 0 6)] else []) ++
    (if kind ≠ 1 ∧ bitsOf c.x 32 4 = 2 then [(false, bitsOf c.s 0 6)] else [])

/-- A fill has its floe's number as key, a drain 64 more. -/
def floeKey (p : Bool × Nat) : Nat := if p.1 then p.2 else 64 + p.2

/-- The issue events of 03 R67 for a copy that is counted against some floes already: the keys counted then, and the floes.
Nothing is counted while the engine holds the copy. -/
def FloesCounted (fs : List Floe) (counted : List Nat) (named : List (Bool × Nat)) (counted' : List Nat) (fs' : List Floe) : Prop :=
  let new := named.filter (fun p => !counted.contains (floeKey p))
  let takes (p : Bool × Nat) : Prop := ∃ f, fs[p.2]? = some f ∧ (f.state = 2 ∨ f.state = if p.1 then 1 else 3)
  ((∀ p ∈ new, takes p) → counted' = counted ++ new.map floeKey ∧
    fs' = new.foldl (fun l p => l.modify p.2 (fun f => { f with state := if p.1 then 1 else 3, pend := f.pend + 1 })) fs) ∧
  (¬ (∀ p ∈ new, takes p) → counted' = counted ∧ fs' = fs)

/-- A new entry stands last in the stand's copy queue, counted against the floes that its slice names, the grove goes on with it
among its open copies, and memory and the device are as the look at the page tables left them (`u`). -/
def Queued (i : Instr) (s u : State) (st : Stand) (g : Grove) (c : Copy) (named : List (Bool × Nat)) (bank : Nat) : Prop :=
  ∃ t st' counted, exec i s = .next t ∧ t.m = u.m ∧ t.d = u.d ∧ t.nextId = s.nextId + 1 ∧ t.stand? st.uid = some st' ∧
    st'.copy.queue.getLast? = some { c with counted := counted } ∧ st'.copy.queue.length = st.copy.queue.length + 1 ∧
    st'.copy.bank = bank ∧ FloesCounted st.floes [] named counted st'.floes ∧
    st'.grove? g.slot = some { g.retire with openCopies := g.openCopies ++ [c.id] }

/-- The slice joins the gathering copy `k` of the queue (15 R321): in its place by grove slot, after those of the same slot; the
copy starts when every live grove has supplied a slice. -/
def Joined (i : Instr) (s u : State) (st : Stand) (g : Grove) (k : Copy) (c : CopySlice) (named : List (Bool × Nat)) : Prop :=
  ∃ t st' k' before after, exec i s = .next t ∧ t.m = u.m ∧ t.d = u.d ∧ t.nextId = u.nextId ∧ t.stand? st.uid = some st' ∧
    st'.copy.queue.map (·.id) = st.copy.queue.map (·.id) ∧ k' ∈ st'.copy.queue ∧
    k' = { k with slices := k'.slices, counted := k'.counted, started := k'.started } ∧
    k.slices = before ++ after ∧ k'.slices = before ++ c :: after ∧ (∀ x ∈ before, x.slot ≤ c.slot) ∧
    (∀ x, after.head? = some x → c.slot < x.slot) ∧
    (k'.started = true ↔ ∀ y ∈ st.groves, y.slot = g.slot ∨ k.id ∈ st.copy.supplied.getD y.slot []) ∧
    FloesCounted st.floes k.counted named k'.counted st'.floes ∧
    st'.copy.supplied = st.copy.supplied.modify g.slot (· ++ [k.id]) ∧
    st'.grove? g.slot = some { g.retire with openCopies := g.openCopies ++ [k.id] }

/-- The grove may debug (17 R363). -/
def MayDebug (s : State) (st : Stand) : Prop :=
  (s.d.part st.part).dbgEn = true ∧ ((s.d.part st.part).dbgcl = 0xFFFF ∨ (s.d.part st.part).dbgcl = st.clnum)

/-- The debug instructions (17 R363) with their target's scalar. -/
def debugForm (g : Grove) (i : Instr) : Option Word :=
  match i with
  | .peek _ a _ => some (scalarSource g a)
  | .poke _ a _ => some (scalarSource g a)
  | .stepLane x _ => some (vget g.s x.toNat 0)
  | .stepRun x _ => some (vget g.s x.toNat 0)
  | .stepHalt x _ => some (vget g.s x.toNat 0)
  | .rimew _ _ _ b => some (scalarSource g b)
  | _ => none

/-- A rime predicate after a write of its register `r` (17 R354, R355): a control word with KIND 4 to 7, ACT 5 to 7 or TYPE 15
leaves it unchanged. -/
def rimeWritten (p : Rime) (r : BitVec 2) (v : Word) : Rime :=
  if r = 1#2 then { p with a := v }
  else if r = 2#2 then { p with b := v }
  else if r = 3#2 then { p with count := v.toNat }
  else if 4 ≤ bitsOf v 60 3 ∨ 5 ≤ bitsOf v 57 3 ∨ bitsOf v 53 4 = 15 then p
  else
    { p with
      en := v.getLsbD 63
      kind := bitsOf v 60 3
      act := bitsOf v 57 3
      type := bitsOf v 53 4
      space := v.getLsbD 52
      vdir := v.getLsbD 51
      anycl := v.getLsbD 50
      clnum := bitsOf v 32 16
      cdown := bitsOf v 0 32 }

/-- The resident stand that a target names, of a live clearing of the issuing partition (17 R364). -/
def Targets (s : State) (st : Stand) (w : Word) (y : Stand) : Prop :=
  (∃ c ∈ s.d.clearings, c.part = st.part ∧ c.num = w.toNat / 2 ^ 48 ∧ c.isLive = true) ∧
    s.stands.find? (fun z => z.part == st.part && z.clnum == w.toNat / 2 ^ 48 && z.index == w.toNat % 2 ^ 48) = some y

end Sys2Proof

section

open Sys2Proof Sys2Proof.Machine

/-- R320, R321, R325, R331, R335, and R66 and R67 of 03: a copy that fails a check at issue traps with the cause and detail of
the first that it fails in the order of R335, k7 the active mask, and nothing is accepted. With no entry left, of the grove's two
or of those that the stand shares, it waits. After its release it is queued with its slice and counted against the floes that it
names, unless the engine holds it: at once started for `cpyx` and `cpym`, and for a `cpy` that no copy gathers for, once every
grove has supplied a slice; the slice of any other `cpy` joins the oldest copy that gathers for it. A `cpym` with SIG signals the
barrier of each receiver's phase in progress. `dict.ld` of an address that is no multiple of 64 traps with ALIGN, detail 2; while
a batch bound to its bank is incomplete it waits; else it is queued and its bank becomes the current one. `u` is what the walks of the
issue leave, which find the scope of its release. (No slice fills and drains one floe: log entry 104. Identifiers in use are below
`nextId`.) -/
def Obligations.CopyIssueResults : Prop :=
  ∀ (s u : State) (st : Stand) (g : Grove), g.prog = Prog.none →
    let fresh := (∀ c ∈ st.copy.queue, c.id < s.nextId) ∧ (∀ l ∈ st.copy.supplied, ∀ k ∈ l, k < s.nextId) ∧
      (∀ k ∈ g.openCopies, k < s.nextId) ∧ g.slot < st.copy.supplied.length
    let own := (st.copy.queue.filter (fun c => c.owner == g.slot && c.reserved)).length
    let room := own < 2 ∨ (st.copy.queue.filter (fun c => !c.reserved)).length < 64 - 2 * st.shape.groves
    let waits (i : Instr) := exec i s = .next (s.setGrove st.uid { g with wait := .copy, held := some i })
    (∀ i kind d a b, copyForm i = some (kind, d, a, b) → Runs i s st g →
      let sl : CopySlice := ⟨g.slot, scalarSource g d, scalarSource g a, scalarSource g b, vget g.s 3 0⟩
      let named := floesNamed sl kind
      let gathers (c : Copy) : Prop := kind = 0 ∧ c.kind = 0 ∧ c.started = false ∧ c.id ∉ st.copy.supplied.getD g.slot []
      let recvs := if kind = 1 then receivers s st sl else []
      (∀ before c k p after, copyChecks st sl kind = before ++ (c, k, p) :: after → (∀ q ∈ before, ¬ q.2.2) → p →
        exec i s = .next (trapEntry s st.uid g c k g.active g.pc 0)) ∧
      ((∀ q ∈ copyChecks st sl kind, ¬ q.2.2) →
        ((∀ c ∈ st.copy.queue, ¬ gathers c) → ¬ room → waits i) ∧
        (fresh → (named.map (·.2)).Nodup → ∀ sc,
          ((∀ c ∈ st.copy.queue, ¬ gathers c) → room → issueScope s st sl [] kind = (some sc, u) → ReleaseReady u st g sc →
            Queued i s u st g { Copy.new s.nextId kind g.slot (decide (own < 2)) (kind != 0 || st.groves.all (fun h => h.slot == g.slot)) with
              slices := [sl]
              recvs := recvs.map (fun u => ⟨u, false, false⟩) } named st.copy.bank ∧
            (recvs.Nodup → ∀ t, exec i s = .next t → ∀ v x, s.stand? v = some x → (t.stand? v).map (·.barriers) =
              some (if v ∈ recvs ∧ sl.x.getLsbD 49 then
                x.barriers.modify (bitsOf sl.x 45 4) (fun b => { b with signals := s.nextId :: b.signals }) else x.barriers))) ∧
          (∀ before k after, st.copy.queue = before ++ k :: after → gathers k → (∀ c ∈ before, ¬ gathers c) →
            (∀ c ∈ st.copy.queue, c.id = k.id → c = k) → k.id ∉ g.openCopies → issueScope s st sl k.slices 0 = (some sc, u) →
            ReleaseReady u st g sc → (sc = 6 → ∀ x ∈ u.m.l1, x.k01 = []) → Joined i s u st g k sl named)))) ∧
    ∀ (k : BitVec 1) (a : BitVec 8), Runs (.dictLd k a) s st g →
      let addr := scalarSource g a
      let bound := ∃ b ∈ st.batches, b.conversion = false ∧ b.bank = k.toNat
      (addr.toNat % 64 ≠ 0 → exec (.dictLd k a) s = .next (trapEntry s st.uid g cALIGN 2 g.active g.pc addr)) ∧
      (addr.toNat % 64 = 0 → bound ∨ ¬ room → waits (.dictLd k a)) ∧
      (addr.toNat % 64 = 0 → fresh → room → ¬ bound →
        ∀ host, rangeHost s st addr.toNat 32768 = (some host, u) → ReleaseReady u st g (if host then 6 else 5) →
        Queued (.dictLd k a) s u st g { Copy.new s.nextId 3 g.slot (decide (own < 2)) true with
          slices := [⟨g.slot, 0, addr, 0, 0⟩]
          bank := k.toNat } [] k.toNat)

/-- R327, R328, R337: `seal` gives the next number of tlc to every open copy of the grove that has none and is not complete, and
leaves no copy open; with none, the empty batch is complete at once. `waitb` goes on, as an acquire at its scope, when
at most n batches of the grove are incomplete, and otherwise waits. `cpy.res` does nothing to a context that is not paused by
a fault; in a halt it marks the context for resumption, and outside one resumes it, its faulting copy going on or left as it is. -/
def Obligations.BatchAndResumeResults : Prop :=
  ∀ (s : State) (st : Stand) (g : Grove),
    let openNow (n : Nat) : Bool := st.batches.any (fun b => b.num == n)
    (Runs .seal s st g → ∃ t st', exec .seal s = .next t ∧ t.stand? st.uid = some st' ∧ st'.tlc.last = st.tlc.last + 1 ∧
      st'.grove? g.slot = some { g.retire with openCopies := [], batches := g.batches.filter openNow ++ [st.tlc.last + 1] } ∧
      st'.copy.queue.map (fun c => (c.id, c.batch)) = st.copy.queue.map (fun c =>
        (c.id, if c.id ∈ g.openCopies ∧ (∃ k ∈ st.copy.queue, k.id = c.id ∧ k.batch = none) then some (st.tlc.last + 1) else c.batch)) ∧
      ((∀ c ∈ st.copy.queue, c.id ∈ g.openCopies → c.batch ≠ none) → st'.batches = st.batches) ∧
      ((∃ c ∈ st.copy.queue, c.id ∈ g.openCopies ∧ c.batch = none) →
        st'.batches.map (·.num) = st.batches.map (·.num) ++ [st.tlc.last + 1])) ∧
    (∀ sc n, Runs (.waitb sc n) s st g →
      ((g.batches.filter openNow).length ≤ n.toNat →
        ∃ t, exec (.waitb sc n) s = .next t ∧ AcquireEffect (s.setGrove st.uid g.retire) t st.core sc.toNat) ∧
      (n.toNat < (g.batches.filter openNow).length → g.single = none →
        exec (.waitb sc n) s = .next (s.setGrove st.uid { g with wait := .memory, held := some (.waitb sc n) }))) ∧
    ∀ i abandon, (i = .cpyRes ∧ abandon = false) ∨ (i = .cpyResAbandon ∧ abandon = true) → Runs i s st g →
      (st.copy.paused = false ∨ (∀ c ∈ st.copy.queue, c.faulted = false) → exec i s = .next (s.setGrove st.uid g.retire)) ∧
      (st.copy.paused = true → (∃ c ∈ st.copy.queue, c.faulted = true) → ∃ t st', exec i s = .next t ∧ t.stand? st.uid = some st' ∧
        st'.copy.paused = st.halt.isSome ∧ st'.copy.resume = st.halt.isSome ∧
        st'.copy.queue = st.copy.queue.map (fun c =>
          let d := if c.faulted then { c with faulted := false, abandoned := abandon } else c
          if st.halt.isSome then d else { d with faultDetail := 0 }))

/-- R267 of 12: `cvta` reads consecutive slots of a tile from each lane's slot number on, and converts each to an element of its
registers; a slot number that passes the tile traps with BOUNDS, detail 9, for the lanes that have one. No operation on
the tile is under way. -/
def Obligations.AccumulatorConversions : Prop :=
  ∀ (i : Instr) (s : State) (st : Stand) (g : Grove) (d a b : BitVec 8) (sat : Bool),
    (i = .cvtaSat d a b ∧ sat = true) ∨ (i = .cvtaInf d a b ∧ sat = false) → Runs i s st g → Unwatched s st →
    (∀ o ∈ st.seq.ops, o.tile = a.toNat % 64 → o.kind = 2 ∨ o.started = false) →
    let n := opW d * typeCount g.type
    let slot (l : Nat) : Nat := (srcWhole g b false l).toNat
    ((∀ l, l < g.lam → g.enabled.getLsbD l = true → slot l + n ≤ 12288) → opNum d < 56 →
      EltResult i s st g (opNum d) (opW d) (fun l j =>
        BitVec.ofNat _ (cvtSlot g.type g.rnd sat (spGet 0 st.tiles (a.toNat % 64 * 12288 + slot l + j))).1)) ∧
    ((∃ l, l < g.lam ∧ l < 1024 ∧ g.enabled.getLsbD l = true ∧ 12288 < slot l + n) → ∃ m : LaneMask,
      (∀ l, l < 1024 → m.getLsbD l = (decide (l < g.lam) && g.enabled.getLsbD l && decide (12288 < slot l + n))) ∧
      exec i s = .next (trapEntry s st.uid g cBOUNDS 9 m g.pc 0))

/-- R164 to R167 of 07: the codec instructions on the blocks of n consecutive lanes: `sdec` gives each lane its element of the
decoding of its block's code, `senc` its 64 bits of the code of its block's elements, `serr` the error bound of an exponent,
and `sblk` the byte offset of the block that holds an element. -/
def Obligations.SeracCodecResults : Prop :=
  ∀ (s : State) (st : Stand) (g : Grove) (d a b : BitVec 6) (q : SGeom), geomOf g b = q → d.toNat < 56 →
    let block (l k : Nat) : Nat := ((g.lane (l / q.n * q.n + k)).reg a.toNat).toNat
    let code (l : Nat) : Nat := ((List.range q.n).map (fun k => block l k * 2 ^ (64 * k))).sum
    (Runs (.sdec d a b) s st g → GroupResult (.sdec d a b) s st g d.toNat 1 (fun l =>
      [BitVec.ofNat 64 ((q.decode (code l % 2 ^ (16 * q.q))).getD (l % q.n) 0)])) ∧
    (Runs (.senc d a b) s st g → Unwatched s st → GroupResult (.senc d a b) s st g d.toNat 1 (fun l =>
      [BitVec.ofNat 64 (q.encode ((List.range q.n).map (fun k => block l k % 2 ^ q.P)) / 2 ^ (64 * (l % q.n)))])) ∧
    (Runs (.serr d a b) s st g → GroupResult (.serr d a b) s st g d.toNat 1 (fun l =>
      [BitVec.ofNat 64 (q.errBound (srcWhole g (a.setWidth 8) true l).toInt)])) ∧
    (Runs (.sblk d a b) s st g → GroupResult (.sblk d a b) s st g d.toNat 1 (fun l =>
      [BitVec.ofNat 64 ((srcWhole g (a.setWidth 8) false l).toNat / 4 ^ q.d * (2 * q.q))]))

/-- R363, R364: a debug instruction that may not debug raises PRIV, detail 2, and one whose target is no resident stand of a
live clearing of the partition BOUNDS, detail 12. -/
def Obligations.DebugIsPrivileged : Prop :=
  ∀ (i : Instr) (s : State) (st : Stand) (g : Grove) (w : Word), debugForm g i = some w → Runs i s st g → g.prog = Prog.none →
    (¬ MayDebug s st → exec i s = .next (trapEntry s st.uid g cPRIV 2 g.active g.pc 0)) ∧
    (MayDebug s st → (¬ ∃ y, Targets s st w y) → exec i s = .next (trapEntry s st.uid g cBOUNDS 12 g.active g.pc 0))

/-- R364 to R368, R371, R344: what the debug instructions do to a target stand, halted where the item needs it. `peek` and `poke`
reach registers, scalars, the pc and the floe entries (the items stated), a poked register losing its taint; `step.halt`
halts a stand that is not halted so, with OKIND 3 and ORIGIN 0; `step.run` ends its debug halts; `step` gives the halted grove one lane to execute
its instruction with, and waits for it; `rimew` writes a register of a predicate of the target's core; `samp` sets the
stand's own sampling. (A stand in a debug halt already keeps its halt, and a step takes two turns: log entry 66; detail 13 for a
lane that is not live: 67; DEDUCED.) -/
def Obligations.DebugResults : Prop :=
  ∀ (s : State) (st y : Stand) (g h : Grove), MayDebug s st → g.prog = Prog.none → g.single = none →
    st.uid ≠ y.uid → (∀ z ∈ s.stands, z.uid = y.uid → z = y) → y.dbgHalt = true → y.grove? h.slot = some h → h.slot < 16 → h.ldx = [] →
    h.skidLeft = 0 → h.single = none → swapping s y.core = false →
    let at_ (w : Word) : Prop := Targets s st w y
    let sel (w : Word) (cls n idx : Nat) : Prop := w.toNat = h.slot * 2 ^ 60 + cls * 2 ^ 56 + n * 2 ^ 48 + idx ∧ n < 2 ^ 8 ∧ idx < 2 ^ 48
    (∀ d a b, Runs (.peek d a b) s st g → at_ (scalarSource g a) →
      let gives (v : Word) := exec (.peek d a b) s = .next (s.setGrove st.uid ({ g with s := g.s.setIfInBounds d.toNat v } : Grove).retire)
      (∀ n l, sel (scalarSource g b) 0 n l → n < 56 → l < h.lam → gives ((h.lane l).reg n)) ∧
      (∀ n, sel (scalarSource g b) 1 n 0 → n < 32 → gives (vget h.s n 0)) ∧
      (sel (scalarSource g b) 3 0 0 → gives h.pc) ∧
      (sel (scalarSource g b) 3 1 0 → gives (h.mode.setWidth 64)) ∧
      ∀ n f, sel (scalarSource g b) 5 n 0 → n < 64 → y.floes[n]? = some f →
        gives (BitVec.ofNat 64 (f.offset + 2 ^ 16 * f.size + 2 ^ 32 * f.pend + 2 ^ 62 * f.state))) ∧
    (∀ d a b, Runs (.poke d a b) s st g → at_ (scalarSource g a) →
      let v := scalarSource g d
      let puts (k : Grove) := exec (.poke d a b) s = .next ((s.setGrove st.uid g.retire).modStand y.uid (fun _ => y.setGrove k))
      (∀ n l, sel (scalarSource g b) 0 n l → n < h.boundary → n < 56 → l < h.lam → l < 1024 → ∃ k, puts k ∧ k = { h with lanes := k.lanes } ∧
        (k.lane l).reg n = v ∧ (k.lane l).taint.getLsbD n = false ∧ (∀ m, m ≠ n → (k.lane l).reg m = (h.lane l).reg m) ∧
        ∀ m, m ≠ l → k.lane m = h.lane m) ∧
      (∀ n, sel (scalarSource g b) 1 n 0 → n < 32 → puts { h with s := h.s.setIfInBounds n v }) ∧
      (sel (scalarSource g b) 3 6 0 → v.toNat % 4 = 0 → puts { h with trap := { h.trap with faultPc := v } }) ∧
      (sel (scalarSource g b) 3 5 0 → exec (.poke d a b) s = .next (trapEntry s st.uid g cBOUNDS 13 g.active g.pc 0))) ∧
    (∀ x m, Runs (.stepHalt x m) s st g → (at_ (vget g.s x.toNat 0) → exec (.stepHalt x m) s = .next (s.setGrove st.uid g.retire)) ∧
      ∀ z, Targets s st (vget g.s x.toNat 0) z → z.uid ≠ st.uid → s.stand? z.uid = some z → z.dbgHalt = false →
        swapping s z.core = false →
        ∃ t, exec (.stepHalt x m) s = .next t ∧ t.stand? z.uid = some { z with
          halt := if z.holdsTrap then z.halt else some ⟨0, 3⟩
          dbgHalt := true
          groves := z.groves.map (fun k => { k with
            trap := { k.trap with skidOrigin := 0, skidKind := 3, skidCount := 0 }
            skidLeft := if k.wait ≠ .none ∧ !k.wait.own then 0
              else if (z.halt.isNone || k.trap.hnd) && !k.dbgHalt then 4 else k.skidLeft }) }) ∧
    (∀ x m, Runs (.stepRun x m) s st g → at_ (vget g.s x.toNat 0) → y.holdsTrap = false →
      (∀ k ∈ y.groves, k.single = none ∧ k.supp = 0#1024) →
      exec (.stepRun x m) s = .next ((s.setGrove st.uid g.retire).modStand y.uid (fun z =>
        { z with dbgHalt := false, halt := none, copy := z.copy.goOn, groves := z.groves.map (fun k => { k with dbgHalt := false, skidLeft := 0 }) }))) ∧
    (∀ x m, Runs (.stepLane x m) s st g → at_ (vget g.s x.toNat 0) → ∀ l, l < 1024 → (vget g.s m.toNat 0).toNat % 2 ^ 20 = h.slot * 2 ^ 16 + l →
      (h.live.getLsbD l = true → h.supp = 0#1024 → ∃ t z k, exec (.stepLane x m) s = .next t ∧ t.stand? y.uid = some z ∧
        z.grove? h.slot = some k ∧ k.active = 1#1024 <<< l ∧ k.single.isSome = true ∧ k.pc = h.pc ∧ k.lanes = h.lanes ∧ k.s = h.s ∧
        ((t.stand? st.uid).bind (fun x => x.grove? g.slot)).map (fun k => (k.wait, k.pc, k.prog.phase)) = some (Wait.queue, g.pc, 1)) ∧
      (h.live.getLsbD l = false → exec (.stepLane x m) s = .next (trapEntry s st.uid g cBOUNDS 13 g.active g.pc 0))) ∧
    (∀ r n a b, Runs (.rimew r n a b) s st g → at_ (scalarSource g b) →
      exec (.rimew r n a b) s = .next ((s.setGrove st.uid g.retire).modCore y.core (fun c => { c with rime := c.rime.modify n.toNat (fun p =>
        rimeWritten p r (scalarSource g a)) }))) ∧
    ∀ k, Runs (.samp k) s st g → exec (.samp k) s =
      .next ((s.setGrove st.uid g.retire).modStand st.uid (fun x => { x with sampK := k.toNat }))

end

/-! ## The matrix sequencer -/

/-! ## The matrix unit -/

namespace Sys2Proof

open Machine

/-- Word `i` is at the turn of stand `st`'s sequencer, with no Reserved bit set. -/
structure SeqRuns (i : Instr) (s : State) (st : Stand) : Prop extends SeqActs s st where
  wellFormed : i.wellFormed = true

/-- The state with the sequencer of a stand. -/
def withSeq (s : State) (st : Stand) (q : Seqr) : State := s.modStand st.uid (fun x => { x with seq := q })

/-- The word retires with the sequencer `q`, the next one after it (R298). -/
def SeqNext (i : Instr) (s : State) (st : Stand) (q : Seqr) : Prop :=
  exec i s = .next (withSeq s st { q with mpc := st.seq.mpc + 4, wait := none })

/-- The word is held; the state is as before (R301). -/
def SeqHeld (i : Instr) (s : State) : Prop := exec i s = .next s

/-- The word raises a fault that is not resumable, once earlier operations are complete: RUN 2, and the stand aborts with
ENGINE and the detail in FCAUSE, MPC in FPC; until then it is held (R318, R319). -/
def SeqAborts (i : Instr) (s : State) (st : Stand) (d : Nat) : Prop :=
  (st.seq.ops = [] → exec i s = .next (abortDomain (s.modStand st.uid (fun x =>
    { x with seq := { x.seq with run := 2, wait := none } })) st.uid (causeWord cENGINE d) st.seq.mpc)) ∧
  (st.seq.ops ≠ [] → SeqHeld i s)

/-- The scalar words (R317) with their function of xA and B. -/
def scalarWord (i : Instr) : Option (BitVec 3 × BitVec 3 × BitVec 1 × BitVec 19 × (Word → Word → Nat)) :=
  match i with
  | .xadd d a k b => some (d, a, k, b, fun x y => x.toNat + y.toNat)
  | .xsub d a k b => some (d, a, k, b, fun x y => 2 ^ 64 + x.toNat - y.toNat)
  | .xmul d a k b => some (d, a, k, b, fun x y => x.toNat * y.toNat)
  | .xshl d a k b => some (d, a, k, b, fun x y => if 64 ≤ y.toNat then 0 else x.toNat * 2 ^ y.toNat)
  | .xshr d a k b => some (d, a, k, b, fun x y => if 64 ≤ y.toNat then 0 else x.toNat / 2 ^ y.toNat)
  | .xand d a k b => some (d, a, k, b, fun x y => x.toNat &&& y.toNat)
  | .xior d a k b => some (d, a, k, b, fun x y => x.toNat ||| y.toNat)
  | .xxor d a k b => some (d, a, k, b, fun x y => x.toNat ^^^ y.toNat)
  | _ => none

/-- The record words (R303) with the unit of their pitch. -/
def recordWord (i : Instr) : Option (BitVec 4 × BitVec 1 × BitVec 1 × BitVec 6 × BitVec 13 × Nat) :=
  match i with
  | .mrecLd q k x n p => some (q, k, x, n, p, 8)
  | .mrecSc q k x n p => some (q, k, x, n, p, 1)
  | _ => none

/-- The types that an operation admits as a pair (R307). -/
def admittedPair (a b : Nat) : Prop := (a ∈ [12, 13] ∧ b ∈ [12, 13]) ∨ (a = b ∧ a ∈ [0, 8, 9, 10, 11, 14])

/-- An operation (R306, R311, R312): kind, tile, and the numbers of its records A, B and M. -/
def operationWord (i : Instr) : Option (Nat × BitVec 4 × List (BitVec 4)) :=
  match i with
  | .mma c a b => some (0, c, [a, b])
  | .mmaSp c a b m => some (1, c, [a, b, m])
  | .mzero c => some (2, c, [])
  | _ => none

/-- The floe parts of an operation: floe number, rows, pitch and bytes in a row. `size` is that of a row of n elements. -/
def floeParts (kind : Nat) (a b m : Record) : List (Nat × Nat × Nat × Nat) :=
  let size (t n : Nat) : Nat := if t = 14 then n / 2 else n * (typeBits t / 8)
  let k := if kind = 1 then 32 else 64
  if kind = 2 then []
  else
    (if a.src then [] else [(a.base.toNat % 64, 128, a.pitch, size a.type k)]) ++
    (if b.src then [] else [(b.base.toNat % 64, 64, b.pitch, size b.type 96)]) ++
    (if a.type = 14 ∧ a.ssrc = false then [(a.sbase.toNat % 64, 128, a.spitch, k / 32)] else []) ++
    (if b.type = 14 ∧ b.ssrc = false then [(b.sbase.toNat % 64, 64, b.spitch, 3)] else []) ++
    (if kind = 1 then [(m.base.toNat % 64, 128, m.pitch, 8)] else [])

end Sys2Proof

section

open Sys2Proof Sys2Proof.Machine

/-- R304, R316, R317: the scalar words write one scalar modulo 2^64; `mjmp` and a taken `mloop` set MPC to the word's address
plus four times the offset; `mmode` sets MTYPE to one of its eight types, and another raises detail 0x41. -/
def Obligations.SequencerScalarsAndJumps : Prop :=
  decodeMatrix 0x41202000#32 = .ok (.xadd 2 2 0 0x2000) ∧ decodeMatrix 0x4DB80004#32 = .ok (.xshl 3 3 1 4) ∧
  decodeMatrix 0x62FFFFFF#32 = .ok (.xli 5 0x7FFFFF) ∧
  ∀ (s : State) (st : Stand),
    let q := st.seq
    (∀ i d a k b f, scalarWord i = some (d, a, k, b, f) → SeqRuns i s st →
      let y := if k = 1#1 then vget q.x (b.toNat % 8) 0 else b.signExtend 64
      SeqNext i s st { q with x := q.x.setIfInBounds d.toNat (BitVec.ofNat 64 (f (vget q.x a.toNat 0) y)) }) ∧
    (∀ d b, SeqRuns (.xli d b) s st →
      SeqNext (.xli d b) s st { q with x := q.x.setIfInBounds d.toNat (BitVec.ofInt 64 b.toInt) }) ∧
    (SeqRuns .mnop s st → SeqNext .mnop s st q) ∧
    (∀ o, SeqRuns (.mjmp o) s st →
      exec (.mjmp o) s = .next (withSeq s st { q with mpc := q.mpc + BitVec.ofInt 64 (4 * o.toInt), wait := none })) ∧
    (∀ n o, SeqRuns (.mloop n o) s st →
      let v := vget q.x n.toNat 0 - 1
      exec (.mloop n o) s = .next (withSeq s st { q with
        x := q.x.setIfInBounds n.toNat v
        mpc := if v = 0 then q.mpc + 4 else q.mpc + BitVec.ofInt 64 (4 * o.toInt)
        wait := none })) ∧
    ∀ t, SeqRuns (.mmode t) s st →
      (t.toNat ∈ [0, 8, 9, 10, 11, 12, 13, 14] → SeqNext (.mmode t) s st { q with mtype := t.toNat }) ∧
      (t.toNat ∉ [0, 8, 9, 10, 11, 12, 13, 14] → SeqAborts (.mmode t) s st 0x41)

/-- R301, R302, R303: `mrec.ld` writes a record's data part with MTYPE and clears its scale part, `mrec.sc` its scale part
alone. They wait for earlier operations that name the record and for a floe that is not ready; a floe that the stand
has not raises detail 0x43, a pitch of 2^32 or more 0x48, and so does a global data part that is not of multiples of 8. -/
def Obligations.OperandRecords : Prop :=
  ∀ (i : Instr) (s : State) (st : Stand) (r : BitVec 4) (k x : BitVec 1) (n : BitVec 6) (p : BitVec 13) (unit : Nat),
    recordWord i = some (r, k, x, n, p, unit) → SeqRuns i s st →
    let q := st.seq
    let busy := ∃ o ∈ q.ops, r.toNat ∈ o.qs ∧ o.arrived = false
    let global := k = 1#1
    let base := if global then vget q.x (n.toNat % 8) 0 else BitVec.ofNat 64 n.toNat
    let pitch := if x = 1#1 then (vget q.x (p.toNat % 8) 0).toNat else unit * p.toNat
    let missing := ¬ global ∧ st.floes.length ≤ n.toNat
    let ready := global ∨ ∃ f, st.floes[n.toNat]? = some f ∧ f.state = 2
    let odd := unit = 8 ∧ global ∧ (base.toNat % 8 ≠ 0 ∨ pitch % 8 ≠ 0)
    let new := if unit = 8 then ⟨base, true, q.mtype, decide global, pitch, 0, false, false, 0⟩
      else { vget q.q r.toNat ⟨0, false, 0, false, 0, 0, false, false, 0⟩ with
        sbase := base
        svalid := true
        ssrc := decide global
        spitch := pitch }
    (busy → SeqHeld i s) ∧
    (¬ busy → missing → SeqAborts i s st 0x43) ∧
    (¬ busy → ¬ missing → ¬ ready → SeqHeld i s) ∧
    (¬ busy → ready → 2 ^ 32 ≤ pitch ∨ odd → SeqAborts i s st 0x48) ∧
    (¬ busy → ready → pitch < 2 ^ 32 → ¬ odd → SeqNext i s st { q with q := q.q.setIfInBounds r.toNat new })

/-- R301, R306, R307, R310 to R312: a tile that the stand has not raises detail 0x46; a record that is not valid, a pair of
types that is not admitted and an i4x record without scales 0x42; a global metadata record 0x47; a floe that the stand has
not 0x43. The operation then waits while two are handed over or one is on its tile, and for its floes; a part that
leaves its floe raises 0x45; else it is handed over and counted in OPEN, and the tiles stay as they are. -/
def Obligations.OperationsAreHandedOver : Prop :=
  ∀ (i : Instr) (s : State) (st : Stand) (kind : Nat) (c : BitVec 4) (l : List (BitVec 4)), operationWord i = some (kind, c, l) →
    SeqRuns i s st →
    let q := st.seq
    let rec_ (k : Nat) : Record := if k < l.length then vget q.q (l.getD k 0).toNat ⟨0, false, 0, false, 0, 0, false, false, 0⟩
      else ⟨0, false, 0, false, 0, 0, false, false, 0⟩
    let a := rec_ 0
    let b := rec_ 1
    let m := rec_ 2
    let parts := floeParts kind a b m
    let invalid := kind ≠ 2 ∧ ¬ (a.valid = true ∧ b.valid = true ∧ admittedPair a.type b.type ∧
      (a.type = 14 → a.svalid = true) ∧ (b.type = 14 → b.svalid = true) ∧ (kind = 1 → m.valid = true))
    let outside := ∃ e ∈ parts, st.floes.length ≤ e.1
    let waits := 2 ≤ q.ops.length ∨ (∃ o ∈ q.ops, o.tile = c.toNat) ∨
      ∃ e ∈ parts, ∀ f, st.floes[e.1]? = some f → f.state ≠ 2
    let leaves := ∃ e ∈ parts, ∀ f, st.floes[e.1]? = some f → f.size * 256 < (e.2.1 - 1) * e.2.2.1 + e.2.2.2
    (st.shape.tiles ≤ c.toNat → SeqAborts i s st 0x46) ∧
    (c.toNat < st.shape.tiles →
      (invalid → SeqAborts i s st 0x42) ∧
      (¬ invalid →
        (kind = 1 → m.src = true → SeqAborts i s st 0x47) ∧
        ((kind = 1 → m.src = false) →
          (outside → SeqAborts i s st 0x43) ∧
          (¬ outside → waits → SeqHeld i s) ∧
          (¬ outside → ¬ waits → leaves → SeqAborts i s st 0x45) ∧
          (¬ outside → ¬ waits → ¬ leaves → ∃ o : MatOp, o.id = s.nextId ∧ o.kind = kind ∧ o.tile = c.toNat ∧ o.ra = a ∧
            o.rb = b ∧ o.rm = (if kind = 1 then m else ⟨0, false, 0, false, 0, 0, false, false, 0⟩) ∧ o.started = false ∧
            o.batch = none ∧ exec i s = .next (withSeq { s with nextId := s.nextId + 1 } st { q with
              mpc := q.mpc + 4
              wait := none
              openOps := (q.openOps + 1) % 2 ^ 16
              ops := q.ops ++ [o] })))))

/-- R313: `mend` and `mend.go` number the operations that no batch holds with the next number of tlm (behind a word that a fault
took back, R319, with the number that they took before: log entry 23, DEDUCED); the counter of tlm reaches a number once every batch numbered below
it or with it is complete. `mend.go` goes on; `mend` stops the sequencer, which leaves every barrier (here with a grove still
in the stand). -/
def Obligations.StreamBatches : Prop :=
  ∀ (i : Instr) (s : State) (st : Stand) (ends : Bool), (i = .mend ∧ ends = true) ∨ (i = .mendGo ∧ ends = false) →
    SeqRuns i s st →
    let q := st.seq
    let n := st.tlm.last + 1 - q.again
    ((ends = true → st.groves ≠ []) → ∃ t st', exec i s = .next t ∧ t.stand? st.uid = some st' ∧
      t.m = s.m ∧ t.d = s.d ∧
      st'.seq = { q with
        mpc := q.mpc + 4
        wait := none
        openOps := 0
        again := q.again - 1
        run := if ends then 0 else q.run
        ops := q.ops.map (fun o => { o with batch := some (o.batch.getD n) }) } ∧
      st'.tlm.last = max st.tlm.last n ∧
      st'.mbatches = st.mbatches.filter (· ≠ n) ++ (if ∃ o ∈ q.ops, o.batch = none then [n] else []) ∧
      (∀ k, k ≤ st'.tlm.counter ↔ k ≤ st'.tlm.last ∧ ∀ b ∈ st'.mbatches, k ≤ b - 1) ∧
      (ends = false → st' = { st with seq := st'.seq, tlm := st'.tlm, mbatches := st'.mbatches }) ∧
      (ends = true → st' = { st with seq := st'.seq, tlm := st'.tlm, mbatches := st'.mbatches, barriers := st'.barriers } ∧
        ∀ b ∈ st'.barriers, b.seqJoined = false ∧ b.seqArrived = false))

/-- R178 of 08, R314, R315: `mfence` waits until every earlier operation is complete. `mbar.arr` joins the sequencer to the
barrier and counts its arrival once in a phase, when earlier operations have read their operands; the phase advances once
all have arrived. `mbar.wait` goes on once the phase that it met has ended; its first turn takes the phase number that it waits on
(log entry 70, DEDUCED). -/
def Obligations.SequencerFenceAndBarriers : Prop :=
  (∀ r : BitVec 26, decodeMatrix (0x06#6 ++ r) = .ok .mfence ↔ r = 0) ∧
  ∀ (s : State) (st : Stand) (n : BitVec 4) (b : Barrier), st.barriers[n.toNat]? = some b →
    let q := st.seq
    let read := ∀ o ∈ q.ops, o.kind = 2 ∨ o.arrived = true
    (SeqRuns .mfence s st → (q.ops = [] → SeqNext .mfence s st q) ∧ (q.ops ≠ [] → SeqHeld .mfence s)) ∧
    (SeqRuns (.mbarArr n) s st → n.toNat < q.barLast.length →
      (q.barLast[n.toNat]? = some (some b.phase) ∨ ¬ read → SeqHeld (.mbarArr n) s) ∧
      (q.barLast[n.toNat]? ≠ some (some b.phase) → read → ∃ t st' b', exec (.mbarArr n) s = .next t ∧
        t.stand? st.uid = some st' ∧ t.m = s.m ∧ t.d = s.d ∧ st'.barriers[n.toNat]? = some b' ∧
        st'.seq = { q with mpc := q.mpc + 4, wait := none, barLast := q.barLast.set n.toNat (some b.phase) } ∧
        ((∀ g ∈ st.groves, g.slot ∈ b.arrived) ∧ b.signals = [] →
          b' = { b with seqJoined := true, seqArrived := false, arrived := [], phase := (b.phase + 1) % 2 ^ 32 }) ∧
        (¬ ((∀ g ∈ st.groves, g.slot ∈ b.arrived) ∧ b.signals = []) → b' = { b with seqJoined := true, seqArrived := true }))) ∧
    (SeqRuns (.mbarWait n) s st →
      (q.wait = none → exec (.mbarWait n) s = .next (withSeq s st { q with wait := some b.phase })) ∧
      (∀ p, q.wait = some p → (p = b.phase → SeqHeld (.mbarWait n) s) ∧ (p ≠ b.phase → SeqNext (.mbarWait n) s st q)))

/-- R142, R306, R308, R312, R313: when the operation at work in a core's unit has its operand bytes, none of them faulty, MATRIX
OPERATION COMPLETE writes its tile, takes it from the stand and the unit, where the operation behind it moves up: `mzero` zeroes all its slots, and slot 96 i + j
of a product takes row i of A and column j of B by the sums of 06 R144. Other tiles keep their slots. -/
def Obligations.OperationsComplete : Prop :=
  ∀ (s : State) (st : Stand) (o : MatOp) (core : Nat), (s.d.core core).mxOp = some ⟨st.uid, o.id⟩ → core < s.d.cores.length →
    s.stand? st.uid = some st → st.seq.ops.find? (fun k => k.id == o.id) = some o → o.started = true → o.want = [] →
    o.dataFault = none → ∃ t st', exec (.matrixOperationComplete core) s = .next t ∧ t.stand? st.uid = some st' ∧ t.m = s.m ∧
      ((s.d.core core).mxNext ≠ (s.d.core core).mxOp → (t.d.core core).mxOp = (s.d.core core).mxNext ∧
        (t.d.core core).mxNext = none) ∧ (∀ k ∈ st'.seq.ops, k.id ≠ o.id) ∧ st'.groves = st.groves ∧
      (∀ k, o.batch = some k → (∀ p ∈ st.seq.ops, p.id ≠ o.id → p.batch ≠ some k) → k ∉ st'.mbatches) ∧
      (∀ k, k < 12288 → o.kind = 2 → spGet 0 st'.tiles (o.tile * 12288 + k) = 0) ∧
      (∀ r c, r < 128 → c < 96 → o.kind ≠ 2 → spGet 0 st'.tiles (o.tile * 12288 + 96 * r + c) =
        matSlot (spGet 0 st.tiles (o.tile * 12288 + 96 * r + c)) (o.operands.1.getD r [])
          (o.operands.2.map (fun row => row.getD c (.fin false 0 0)))) ∧
      ∀ k, k < o.tile * 12288 ∨ (o.tile + 1) * 12288 ≤ k → spGet 0 st'.tiles k = spGet 0 st.tiles k

end

/-! ## Events: registration, replies, slices -/

/-! ## Events: ports, rows, groups, conversions, pins, split loads -/

namespace Sys2Proof

open Machine

/-- Line `line` is a line of HBM in no window, no request of it waits at its home, and the host caches no half of it. -/
def HbmLine (s : State) (line : Nat) : Prop :=
  line * 128 < 0x00B2D05E0000 ∧ windowAt s (line * 128) = none ∧ (∀ w ∈ s.m.lineWaits, w.line ≠ line) ∧
    halfState s (2 * line) = 0 ∧ halfState s (2 * line + 1) = 0

/-- A message is the next of its core about its line, has come to its slice and been accepted there, and its turn at the line
has come (04 R84; 03 R76). -/
structure AtHome (s : State) (t : ToSlice) : Prop where
  next : nextUp s t.core t.line = some t
  come : t.arr ≠ 0
  accepted : unpaid s t = false
  turn : itsTurn s t = true

/-- The next message of a line's home towards a core is about the line (04 R84). -/
def AtCore (s : State) (core line : Nat) (r : Rep) : Prop := headDown s core line = some ⟨core, line, r⟩

/-- Byte `i` of a line. -/
def byteOf (d : LineBits) (i : Nat) : Byte := d.extractLsb' (8 * i) 8

/-- What has become of a grove. -/
def groveNow (t : State) (w : Who) : Option Grove := (t.stand? w.uid).bind (fun u => u.grove? w.slot)

end Sys2Proof

section

open Sys2Proof Sys2Proof.Machine

/-- R83 to R88, R93, R95, R96, R99 of 04, R382 of 18, for lines of HBM in no window that their slice holds. A REG that meets no other registrant
of its words registers its bytes to the core and is answered with a grant; with one, a recall goes to it and the REG waits.
A grant registers the bytes of the oldest store under way in L1, and bytes asked for without a store come from memory; a
forwarded read or a recall is answered with the registered bytes, which after a recall stay as a read copy; an answer to a
read is kept for the reply, an answer to a recall or a write-back comes into memory and ends the registration, and an atomic
acts on memory; each is answered. A write-back to a stack that a recalibration holds waits. A read is answered with memory's
bytes; the reply becomes the read copy beside the core's own bytes. A core that is lost leaves the words registered to it
lost, or their line poisoned once no slice holds it. The lane of an atomic that was not performed faults as log entry 32 says,
and the bytes of a pull without a store come as entry 46 says (the model's readings). -/
def Obligations.RegistrationProtocol : Prop :=
  ∀ (s : State) (core line : Nat), MemoryForm s →
    let x := (l1Find s core line).getD ⟨core, line, 0, 0, 0, 0, 0, 0, [], 0, []⟩
    let sent (t : State) (c : Nat) (r : Rep) : Prop := t.m.toCore = s.m.toCore ++ [⟨c, line, r⟩]
    let mem (t : State) (i : Nat) : Byte := memByte t.m.mem (line * 128 + i)
    let other (t : State) : Prop := ∀ a, a < line * 128 ∨ line * 128 + 128 ≤ a → memByte t.m.mem a = memByte s.m.mem a
    (∀ m mask w, AtHome s m → m.core = core → m.line = line → m.req = .reg mask w → HbmLine s line → (l2Home s line).isSome →
      ((∀ e ∈ s.m.firn, e.line = line → e.core = core ∨ wordsOf e.mask &&& wordsOf mask = 0#128) → s.m.firn.length < 8192 →
        ∃ t, exec (.regTaken core line) s = .next t ∧ sent t core (.grant mask w) ∧ t.m.mem = s.m.mem ∧
          t.m.toSlice = s.m.toSlice.erase m ∧
          ∃ e ∈ t.m.firn, e.core = core ∧ e.line = line ∧ mask &&& ~~~e.mask = 0#128) ∧
      ∀ e, s.m.firn.filter (fun e => e.line == line) = [e] → e.core ≠ core → wordsOf e.mask &&& wordsOf mask ≠ 0#128 →
        s.m.firn.length < 8192 → ∃ t, exec (.regTaken core line) s = .next t ∧ sent t e.core (.recall (wordsOf e.mask &&& wordsOf mask)) ∧
          t.m.mem = s.m.mem ∧ t.m.firn = s.m.firn ∧
          ∃ lw, t.m.lineWaits = s.m.lineWaits ++ [lw] ∧ lw.line = line ∧ lw.core = core ∧ lw.req = .reg mask w ∧ lw.need = [e.core]) ∧
    (∀ mask w p rest, AtCore s core line (.grant mask w) → (l1Find s core line).isSome → x.pend = p :: rest →
      line * 128 < 0x00B2D05E0000 → windowAt s (line * 128) = none →
      let pulled (i : Nat) : Bool := p.ask.getLsbD i && !p.mask.getLsbD i && !x.reg.getLsbD i &&
        s.m.firn.any (fun e => e.core == core && e.line == line && e.mask.getLsbD i) && !(inFlight s core line).getLsbD i
      (p.mask ≠ 0#128 ∨ ∃ i, i < 128 ∧ pulled i = true) →
      ∃ t x', exec (.grant core line) s = .next t ∧ l1Find t core line = some x' ∧ x'.pend = rest ∧ t.m.mem = s.m.mem ∧
        (∀ i, i < 128 → x'.reg.getLsbD i = (x.reg.getLsbD i || p.mask.getLsbD i || pulled i) ∧
          byteOf x'.data i = if pulled i then mem s i else if p.mask.getLsbD i then byteOf p.data i else byteOf x.data i) ∧
        ∀ g, groveNow s w = some g → (groveNow t w).map (·.outStores) = some (g.outStores - 1)) ∧
    (∀ words, AtCore s core line (.fwd words) → ∃ t u, exec (.fwdRead core line) s = .next t ∧ t.m.l1 = s.m.l1 ∧
      t.m.mem = s.m.mem ∧ t.m.toSlice = s.m.toSlice ++ [u] ∧ u.core = core ∧ u.line = line ∧
      u.req = .data true (x.reg &&& words) x.data (wordsOf (x.reg &&& words) &&& ~~~x.lost)) ∧
    (∀ words, AtCore s core line (.recall words) → x.reg &&& words ≠ 0#128 → ∃ t x' u out clean, exec (.recall core line) s = .next t ∧
      t.m.mem = s.m.mem ∧ t.m.toSlice = s.m.toSlice ++ [u] ∧ u.core = core ∧ u.line = line ∧ u.req = .data false out x.view clean ∧
      l1Find t core line = some x' ∧
      (∀ i, i < 128 → words.getLsbD i = true → out.getLsbD i = (x.reg.getLsbD i || x.pendMask.getLsbD i) ∧
        x'.reg.getLsbD i = false ∧ x'.pendMask.getLsbD i = false ∧ x'.valid.getLsbD i = (x.valid.getLsbD i || out.getLsbD i)) ∧
      (∀ i, i < 128 → (unitsOf words).getLsbD i = false → out.getLsbD i = false ∧ x'.reg.getLsbD i = x.reg.getLsbD i ∧
        x'.pendMask.getLsbD i = x.pendMask.getLsbD i) ∧
      ∀ i, i < 128 → byteOf x'.view i = byteOf x.view i) ∧
    (∀ m mask bs clean lw, AtHome s m → m.core = core → m.line = line → m.req = .data true mask bs clean →
      s.m.lineWaits.find? (fun w => w.line == line) = some lw → core ∈ lw.need → lw.need.erase core ≠ [] →
      ∃ t, exec (.dataAnswer core line) s = .next t ∧ t.m.mem = s.m.mem ∧ t.m.firn = s.m.firn ∧
        ∃ u, t.m.lineWaits.find? (fun w => w.line == line) = some u ∧ u.need = lw.need.erase core ∧ u.req = lw.req ∧
          u.accMask = lw.accMask ||| mask ∧
          ∀ i, i < 128 → byteOf u.acc i = if mask.getLsbD i then byteOf bs i else byteOf lw.acc i) ∧
    (∀ m mask bs clean lw e, AtHome s m → m.core = core → m.line = line → m.req = .data false mask bs clean →
      line * 128 < 0x00B2D05E0000 → s.m.firn.filter (fun e => e.line == line) = [e] → e.core = core →
      mask &&& ~~~wordsOf e.mask = 0#128 → s.m.lineWaits.find? (fun w => w.line == line) = some lw → core ∈ lw.need →
      wordsOf lw.req.mask &&& wordsOf e.mask &&& ~~~wordsOf mask = 0#128 → lw.need.erase core ≠ [] ∨ lw.halves ≠ [] →
      ∃ t, exec (.dataAnswer core line) s = .next t ∧ other t ∧
        (∀ i, i < 128 → mem t i = if mask.getLsbD i then byteOf bs i else mem s i) ∧
        (∀ f ∈ t.m.firn, f.line = line → f.mask &&& wordsOf mask = 0#128) ∧
        (t.m.lineWaits.find? (fun w => w.line == line)).map (·.need) = some (lw.need.erase core)) ∧
    (∀ m mask bs clean ws e, AtHome s m → m.core = core → m.line = line → m.req = .wb mask bs clean ws →
      line * 128 < 0x00B2D05E0000 → s.m.firn.filter (fun e => e.line == line) = [e] → e.core = core →
      mask &&& ~~~wordsOf e.mask = 0#128 →
      ((l2Home s line).isNone → stackHeld s line = true → exec (.wbTaken core line) s = .next s) ∧
      ((l2Home s line).isSome ∨ stackHeld s line = false → ∃ t, exec (.wbTaken core line) s = .next t ∧ other t ∧
        t.m.toCore = s.m.toCore ++ (if ws = [] then [] else [⟨core, line, .wbAck ws⟩]) ∧
        (∀ i, i < 128 → mem t i = if mask.getLsbD i then byteOf bs i else mem s i) ∧
        ∀ f ∈ t.m.firn, f.line = line → f.mask &&& wordsOf mask = 0#128)) ∧
    (∀ m id part, AtHome s m → m.core = core → m.line = line → m.req = .read id part → HbmLine s line →
      (l2Home s line).isSome → (∀ e ∈ s.m.firn, e.line ≠ line) → (∀ l ∈ s.m.lost, l / 32 ≠ line) →
      ∀ fails : Bool, ∃ t d, exec (.homeRead core line fails) s = .next t ∧ sent t core (.fill id d) ∧ t.m.mem = s.m.mem ∧
        t.m.toSlice = s.m.toSlice.erase m ∧ d.stamp = s.stamp ∧ d.lost = 0#128 ∧
        ∀ i, i < 128 → byteOf d.bytes i = mem s i ∧ d.poison.getLsbD i = s.m.poison.contains line) ∧
    (∀ id d f, AtCore s core line (.fill id d) → (l1Find s core line).isSome → s.m.fills.find? (fun f => f.id == id) = some f →
      f.tfu = none → f.overtaken = false → f.samp = none → homeDie s f.line = coreDie f.core ∨ f.novis = true →
      ∃ t x', exec (.fillReply core line) s = .next t ∧ l1Find t core line = some x' ∧ x'.reg = x.reg ∧ x'.pend = x.pend ∧
        x'.valid = ~~~x.own ∧ t.m.mem = s.m.mem ∧ (∀ y ∈ t.m.fills, y.id ≠ id) ∧
        ∀ i, i < 128 → byteOf x'.view i = if x.own.getLsbD i then byteOf x.view i else byteOf d.bytes i) ∧
    (∀ w lane old fl, AtCore s core line (.atomDone w lane old fl) → ∃ t, exec (.fillReply core line) s = .next t ∧ t.d = s.d ∧
      t.m.mem = s.m.mem ∧ ∀ g, groveNow s w = some g → groveNow t w = some { g with
        outStores := g.outStores - 1
        prog := if lane = 1024 ∨ g.prog.watched.getLsbD lane = true then g.prog
          else { g.prog with replies := g.prog.replies ++ [(lane, old, fl)] } }) ∧
    (∀ w lane lost off, AtCore s core line (.atomBad w lane lost off) → ∃ t, exec (.fillReply core line) s = .next t ∧ t.d = s.d ∧
      t.m.mem = s.m.mem ∧ ∀ g, groveNow s w = some g → groveNow t w = some { g with
        outStores := g.outStores - 1
        prog := { g.prog with
          faults := g.prog.faults ++ [⟨lane, if lost then cOWNERLOST else cPOISON, 0, BitVec.ofNat 64 off⟩] } }) ∧
    (∀ w, AtCore s core line (.wbAck [w]) → ∃ t, exec (.fillReply core line) s = .next t ∧ t.d = s.d ∧ t.m.mem = s.m.mem ∧
      ∀ g, groveNow s w = some g → groveNow t w = some { g with outWbs := g.outWbs - 1 }) ∧
    (∀ m op w, AtHome s m → m.core = core → m.line = line → m.req = .atom op w → HbmLine s line → (l2Home s line).isSome →
      (∀ e ∈ s.m.firn, e.line ≠ line) → (∀ l ∈ s.m.lost, l / 32 ≠ line) → line ∉ s.m.poison ∨ op.op = 9 →
      op.addr / 128 = line → op.addr % 128 + op.size ≤ 128 →
      let old := ((List.range op.size).map (fun k => (memByte s.m.mem (op.addr + k)).toNat * 2 ^ (8 * k))).sum
      let new := ((atomicNew op old).1).getD old
      ∃ t, exec (.atomicAtHome core line) s = .next t ∧ sent t core (.atomDone w op.lane (BitVec.ofNat 64 old) (atomicNew op old).2) ∧
        (∀ k, k < op.size → memByte t.m.mem (op.addr + k) = BitVec.ofNat 8 (new / 2 ^ (8 * k))) ∧
        ∀ a, a < op.addr ∨ op.addr + op.size ≤ a → memByte t.m.mem a = memByte s.m.mem a) ∧
    (core < s.d.cores.length → s.m.lineWaits = [] → ∃ t, exec (.lostRegistrant core) s = .next t ∧ (t.d.core core).quarantined = true ∧
      (∀ e ∈ t.m.firn, e.core ≠ core) ∧ (∀ y ∈ t.m.l1, y.core ≠ core) ∧ (∀ f ∈ t.m.fills, f.core ≠ core) ∧
      ∀ e ∈ s.m.firn, e.core = core → e.line * 128 < 0x00B2D05E0000 → windowAt s (e.line * 128) = none →
        (∀ g ∈ s.m.groups, e.line ∉ groupLines (s.d.windows.getD g.win Window.reset) g.base) →
        ∀ i, i < 32 → (wordsOf e.mask).getLsbD (4 * i) = true → e.line * 32 + i ∈ t.m.lost ∨ e.line ∈ t.m.poison)

/-- R72, R75, R76, R78 of 03, R158 to R161 of 07, R184 of 08, R283 of 13, R308 to R310 of 14: what the agents of the memory system
do: a port takes a token of a message's context or of the spare pool, and with the first one of a message that carries a line
a unit of BWTOK (log entry 48 says what takes them); when they are due, buckets
refill to their depth and BWTOK counts start anew; a refreshed bank has no open row; a conversion without an older fill under
way sets the L1's ways and completes its batch; a group whose reads are paid is decoded from its blocks' codes, and at its
departure a written block that differs from its code is encoded; a pin adds to its line's count and sends the read; an operation of floe parts
takes its bytes when the unit takes another (log entry 69); a lane of `ldx` takes its lines from L1, its reply writes the lane's
registers, with the register's value where it has read one (02 R55), and the last one counts. -/
def Obligations.MemoryAgents : Prop :=
  ∀ (s : State), MemoryForm s →
    (∀ m st part, s.m.toSlice.find? (fun t => t.core == m.core && t.line == m.line && unpaid s t) = some m → m.arr ≠ 0 →
      firstOfCtx s m = true → m.paid = 0 → s.stand? m.by_ = some st → ctxOf s m = some part → part < 20 →
      let sl := homeSlice s m.line
      let rate := (tbNow s part 0).1
      let used := if carries m.req = true then s.modStand m.by_ (fun z => { z with bwUsed := z.bwUsed + 1 }) else s
      let accepted (u : State) (n : Nat) : State := u.modM (fun k =>
        { k with toSlice := k.toSlice.map (fun y => if y = m then { m with paid := n } else y) })
      (carries m.req = true → st.shape.bwtok ≠ 0xFFFF → st.shape.bwtok ≤ st.bwUsed → exec (.portRequest m.core m.line) s = .next s) ∧
      (carries m.req = false ∨ st.shape.bwtok = 0xFFFF ∨ st.bwUsed < st.shape.bwtok →
        (rate = 0 → exec (.portRequest m.core m.line) s = .next (accepted used (tokensOf s m))) ∧
        (rate ≠ 0 → 1 ≤ bucketLevel s sl part 0 →
          exec (.portRequest m.core m.line) s = .next (accepted (setBucket used sl part 0 (bucketLevel s sl part 0 - 1)) 1)) ∧
        (rate ≠ 0 → bucketLevel s sl part 0 = 0 → 1 ≤ spareLevel s sl → spareForMsg s m = true →
          exec (.portRequest m.core m.line) s = .next (accepted (setSpare used sl (spareLevel s sl - 1)) 1)) ∧
        (rate ≠ 0 → bucketLevel s sl part 0 = 0 → spareLevel s sl = 0 ∨ spareForMsg s m = false →
          exec (.portRequest m.core m.line) s = .next s))) ∧
    (s.d.tbDue = false → exec .tokenRefill s = .next s) ∧
    (s.d.tbDue = true → ∃ t, exec .tokenRefill s = .next t ∧ t.m.mem = s.m.mem ∧ t.stands = s.stands ∧ t.d = { s.d with tbDue := false } ∧
      ∀ sl p, sl < 192 → p < 20 → (s.d.part p).alive = true → (s.d.part p).depth0 < 4096 → (s.d.part p).depth1 < 4096 →
        bucketLevel t sl p 0 = min (max 1 (s.d.part p).depth0) (bucketLevel s sl p 0 + (s.d.part p).rate0) ∧
        bucketLevel t sl p 1 = min (max 1 (s.d.part p).depth1) (bucketLevel s sl p 1 + (s.d.part p).rate1) ∧
        (tbNow t p 0).1 = (s.d.part p).rate0 ∧ (tbNow t p 1).1 = (s.d.part p).rate1) ∧
    (s.d.bwDue = false → exec .bwtokReset s = .next s) ∧
    (s.d.bwDue = true → exec .bwtokReset s = .next { s with
      d := { s.d with bwDue := false }
      stands := s.stands.map (fun st => { st with bwUsed := 0 }) }) ∧
    (∀ stack bank, ∃ t, exec (.refresh stack bank) s = .next t ∧ t = { s with m := { s.m with rows := t.m.rows } } ∧
      ∀ o, o ∈ t.m.rows ↔ o ∈ s.m.rows ∧ (o.stack ≠ stack ∨ o.bank ≠ bank)) ∧
    (∀ core v, (s.d.core core).conv = some v → core < s.d.cores.length →
      ((∃ f ∈ s.m.fills, f.core = core ∧ f.id < v.mark) → exec (.conversionComplete core) s = .next s) ∧
      ((∀ f ∈ s.m.fills, f.core = core → v.mark ≤ f.id) → (∀ y ∈ s.m.l1, y.core = core → y.way < v.target) →
        ∃ t, exec (.conversionComplete core) s = .next t ∧ t.m = s.m ∧ (t.d.core core).l1cur = v.target ∧
          (t.d.core core).conv = none ∧ ∀ st, s.stand? v.uid = some st → ∃ st', t.stand? v.uid = some st' ∧
            st'.batches = st.batches.filter (fun b => b.num ≠ v.batch) ∧
            ∀ k, k ≤ st'.tlc.counter ↔ k ≤ st.tlc.last ∧ ∀ b ∈ st'.batches, k ≤ b.num - 1)) ∧
    (∀ base g, findGroup s base = some g →
      let w := s.d.windows.getD g.win Window.reset
      let coded := ((w.groupBlocks base).flatMap w.codeLines).eraseDups.length
      (g.filling = true → s.d.mgmt.heldStacks = [] → 40 ≤ g.ctx ∨ (tbNow s (g.ctx / 2) (g.ctx % 2)).1 = 0 ∨
          coded ≤ bucketLevel s (homeSlice s (base / 128)) (g.ctx / 2) (g.ctx % 2) → (∀ l, l < w.groupBytes / 128 → (l2Home s (base / 128 + l)).isSome) →
        ∃ t g', exec (.groupFillComplete base) s = .next t ∧ t.m.mem = s.m.mem ∧ findGroup t base = some g' ∧ g'.filling = false ∧
          g'.written = [] ∧ g'.data = (w.groupBlocks base).flatMap (fun i => (w.geom.decode (blockCode s w i)).flatMap (toBytes w.e))) ∧
      (g.filling = false → s.d.mgmt.heldStacks = [] → s.m.lineWaits = [] → s.m.firn = [] → (∀ y ∈ s.m.l2, y.pins = 0) → g.poison = [] → s.m.lost = [] →
        ∃ t, exec (.depart base) s = .next t ∧ (∀ h ∈ t.m.groups, h.base ≠ base) ∧
          (g.written = [] → t.m.mem = s.m.mem) ∧
          ∀ j, g.written = [j] →
            let n := w.geom.n
            let i := (base - w.abase) / (n * w.e) + j
            let els := (List.range n).map (fun o => ofBytes ((List.range w.e).map (fun k => g.data.getD (j * (n * w.e) + o * w.e + k) 0)))
            (w.geom.decode (blockCode s w i) = els → t.m.mem = s.m.mem) ∧
            (w.geom.decode (blockCode s w i) ≠ els →
              (∀ k, k < 2 * w.q → memByte t.m.mem (w.cbase + 2 * w.q * i + k) = BitVec.ofNat 8 (w.geom.encode els / 2 ^ (8 * k))) ∧
              ∀ a, a < w.cbase + 2 * w.q * i ∨ w.cbase + 2 * w.q * i + 2 * w.q ≤ a → memByte t.m.mem a = memByte s.m.mem a))) ∧
    (∀ p rest st y, s.m.pinQueue = p :: rest → s.stand? p.uid = some st → groupReady s p.line = true → l2Home s p.line = some y →
      s.d.mgmt.heldStacks = [] → 0 < y.pins ∨ (∀ z ∈ s.m.l2, z.pins = 0) → y.pins < 255 →
      ∃ t, exec (.pin p.line) s = .next t ∧ t.m.pinQueue = rest ∧ t.m.mem = s.m.mem ∧
        (∃ z ∈ t.m.l2, z.slice = y.slice ∧ z.line = p.line ∧ z.pins = y.pins + 1) ∧
        ∃ f ∈ t.m.fills, f.line = p.line ∧ f.core = st.core ∧ f.tfu = some ⟨p.uid, p.op⟩ ∧ f.pin = true) ∧
    (∀ core st o, s.stands.filter (fun z => z.core == core && z.seq.ops.any (fun o => !o.started)) = [st] →
      st.seq.ops.find? (fun o => !o.started) = some o → core < s.d.cores.length → (s.d.core core).quarantined = false →
      swapping s core = false → s.stand? st.uid = some st →
      (unitTakes s core = false → exec (.matrixOperationStart core) s = .next s) ∧
      (unitTakes s core = true → (∀ p ∈ o.parts, p.src = false) → ∃ t st' o', exec (.matrixOperationStart core) s = .next t ∧
        (if (s.d.core core).mxOp = none then (t.d.core core).mxOp = some ⟨st.uid, o.id⟩
          else (t.d.core core).mxOp = (s.d.core core).mxOp ∧ (t.d.core core).mxNext = some ⟨st.uid, o.id⟩) ∧
        (t.d.core core).mxLast = st.sslot ∧ t.stand? st.uid = some st' ∧
        o' ∈ st'.seq.ops ∧ o'.id = o.id ∧ o'.started = true ∧ o'.want = [] ∧ o'.taken = (o.parts.zip o.floes).map (fun p =>
          (List.range p.1.rows).flatMap (fun r => (List.range p.1.len).map (fun i =>
            memByte st.scratch (p.2.offset * 256 + r * p.1.pitch + i)))))) ∧
    ∀ (st : Stand) (g : Grove) (e : LdxExec) (l : LdxLane) (pa : Nat), s.stand? st.uid = some st → st.grove? g.slot = some g →
      g.ldx = [e] → e.lanes = [l] → e.scratch = false → e.counts = true → l.segs = [⟨pa, 8 * e.size, 0⟩] → pa + 512 < 2 ^ 45 →
      e.size ≤ 8 → 0 < e.size →
      let line (k : Nat) : Nat := (pa + k) / 128
      (l.sent = false → l.fills = [] → l.got = [] →
        (∀ k, k < 8 * e.size → homeOpOut s st.core (line k) = false ∧ L1Holds s st.core (pa + k) l.tainted) →
        ∃ t h l', exec (.ldxReply st.uid g.slot e.id l.lane true) s = .next t ∧ t.m = s.m ∧ groveNow t ⟨st.uid, g.slot⟩ = some h ∧
          h = { g with ldx := [{ e with lanes := [l'] }] } ∧ l' = { l with sent := true, got := l'.got } ∧
          ∀ k, k < 8 * e.size → ∃ d, l'.got.find? (fun y => y.1 == line k) = some (line k, d) ∧
            byteOf d.bytes ((pa + k) % 128) = l1Byte s st.core (pa + k) ∧ d.poison.getLsbD ((pa + k) % 128) = false ∧
            d.lost.getLsbD ((pa + k) % 128) = false) ∧
      (l.sent = true → l.fills = [] → opNum e.dst + e.size ≤ 56 → l.lane < g.lam → l.lane < 1024 → e.ac < 16 →
        ∀ f : Nat → Byte, (∃ v, l.val = some v ∧ ∀ k, f k = BitVec.ofNat 8 (v / 2 ^ (8 * k))) ∨
            (l.val = none ∧ ∀ k, k < 8 * e.size → removedAt s (pa + k) = false ∧ ∃ d,
              l.got.find? (fun y => y.1 == line k) = some (line k, d) ∧ f k = byteOf d.bytes ((pa + k) % 128) ∧
              d.poison.getLsbD ((pa + k) % 128) = false ∧ d.lost.getLsbD ((pa + k) % 128) = false) →
        ∃ t h, exec (.ldxReply st.uid g.slot e.id l.lane false) s = .next t ∧ t.m = s.m ∧ groveNow t ⟨st.uid, g.slot⟩ = some h ∧
          h.ldx = [] ∧ h.ldxErrs = g.ldxErrs ∧ h.pc = g.pc ∧ h.ac = g.ac.setIfInBounds e.ac (vget g.ac e.ac 0 + 1) ∧
          group (h.lane l.lane) (opNum e.dst) e.size = (List.range e.size).map (fun j => littleEndian (fun k => f (8 * j + k))))

end

/-! ## Events: the host and other modules -/

namespace Sys2Proof

open Machine

/-- `n` bytes of HBM from `a` up, of no window, coded range or save area, on lines that their home slices hold, that no
request waits for and no core has registered words of. -/
structure HbmSpan (s : State) (a n : Nat) : Prop where
  some : 0 < n
  bytes : ∀ k, k < n → a + k < 0x00B2D05E0000 ∧ hostBarred s (a + k) = false ∧ windowAt s (a + k) = none ∧
    windowAt s ((a + k) / 128 * 128) = none
  quiet : ∀ k, k < n → (∀ w ∈ s.m.lineWaits, w.line ≠ (a + k) / 128) ∧ ∀ e ∈ s.m.firn, e.line ≠ (a + k) / 128
  held : ∀ k, k < n → (l2Home s ((a + k) / 128)).isSome

/-- The host owns no half of the bytes (04 R100). -/
def HostLeaves (s : State) (a n : Nat) : Prop := ∀ k, k < n → halfState s ((a + k) / 64) ≠ 2

/-- The answer to a read of the bytes: their values, poisoned when one is poisoned or lost. -/
def ReadAnswer (s t : State) (a n : Nat) : Prop :=
  t.m.mem = s.m.mem ∧ t.stands = s.stands ∧ t.d.hostOut.unsupported = false ∧
    t.d.hostOut.bytes = (List.range n).map (fun k => memByte s.m.mem (a + k)) ∧
    (t.d.hostOut.poisoned = true ↔ ∃ k, k < n ∧ ((a + k) / 128 ∈ s.m.poison ∨ (a + k) / 4 ∈ s.m.lost))

/-- The bytes from `a` up become `bs`, and no other byte of device memory changes. -/
def Stored (s t : State) (a : Nat) (bs : List Byte) : Prop :=
  (∀ k, k < bs.length → memByte t.m.mem (a + k) = bs.getD k 0) ∧
    ∀ b, b < a ∨ a + bs.length ≤ b → memByte t.m.mem b = memByte s.m.mem b

end Sys2Proof

section

open Sys2Proof Sys2Proof.Machine

/-- R92, R95, R100, R101 of 04, R104, R126, R127 of 05, R373 to R375 of 18, for bytes of HBM: a read from the
host or another module gives memory's bytes, a write stores them, an AtomicOp gives the old element and stores the new one; a barred write is counted in HWDROP, a
read of an unpopulated address is unsupported (log entry 51). The host takes a half to M or S; its data for a recalled half is merged,
and the half goes to S for a read and to I for a store. A probe with the core's tag waits for stores under way on registered
words (log entry 121), takes the line's copies away and sends its
registered words, another tag is counted; an invalidation drops the host line and overtakes fills. The link performs the
oldest push or AtomicOp on host memory. A peer's end and an expander's removal are noted. The host's stores go to its own
memory, and change nothing else while no device word is registered or under way to it (log entry 116); running firmware loads
and stores device memory, and acts on nothing while none runs (log entry 119). -/
def Obligations.HostAndModuleRequests : Prop :=
  ∀ (s : State), MemoryForm s →
    (∀ a n, HbmSpan s a n → (∃ t, exec (.hostRead a n) s = .next t ∧ ReadAnswer s t a n) ∧
      (HostLeaves s a n → ∃ t, exec (.remoteRequest false a n []) s = .next t ∧ ReadAnswer s t a n)) ∧
    (∀ a n, (∃ k, k < n ∧ regionOf s (a + k) = .hole) →
      (∃ t, exec (.hostRead a n) s = .next t ∧ t.d.hostOut = ⟨true, false, []⟩ ∧ t.m = s.m) ∧
      ∃ t, exec (.remoteRequest false a n []) s = .next t ∧ t.d.hostOut = ⟨true, false, []⟩ ∧ t.m = s.m) ∧
    (∀ a bs, HbmSpan s a bs.length → (∃ t, exec (.hostWrite a bs) s = .next t ∧ Stored s t a bs ∧ t.d.hostOut = ⟨false, false, []⟩) ∧
      (HostLeaves s a bs.length →
        ∃ t, exec (.remoteRequest true a 0 bs) s = .next t ∧ Stored s t a bs ∧ t.d.hostOut = ⟨false, false, []⟩)) ∧
    (∀ a bs, (∃ k, k < bs.length ∧ hostBarred s (a + k) = true) →
      ∃ t, exec (.hostWrite a bs) s = .next t ∧ t.m = s.m ∧ t.d.hostOut = ⟨false, false, []⟩ ∧
        t.d.mgmt.hwdrop = min (s.d.mgmt.hwdrop + 1) (2 ^ 32 - 1)) ∧
    (∀ a size op x y, HbmSpan s a size → size = 4 ∨ size = 8 → a % size = 0 → op = 0 ∨ op = 6 ∨ op = 7 →
      (∀ k, k < size → (a + k) / 128 ∉ s.m.poison ∧ (a + k) / 4 ∉ s.m.lost) →
      let old := ((List.range size).map (fun k => (memByte s.m.mem (a + k)).toNat * 2 ^ (8 * k))).sum
      let new := if op = 0 then (old + x.toNat) % 2 ^ (8 * size) else if op = 6 then x.toNat % 2 ^ (8 * size)
        else if old = x.toNat % 2 ^ (8 * size) then y.toNat % 2 ^ (8 * size) else old
      ∃ t, exec (.hostAtomicop a size op x y) s = .next t ∧
        t.d.hostOut.bytes = (List.range size).map (fun k => memByte s.m.mem (a + k)) ∧
        Stored s t a ((List.range size).map (fun k => BitVec.ofNat 8 (new / 2 ^ (8 * k))))) ∧
    (∀ half, HbmSpan s (64 * half) 64 →
      (halfState s half ≠ 2 → ∃ t, exec (.hostOwnership half) s = .next t ∧ ReadAnswer s t (64 * half) 64 ∧ halfState t half = 2) ∧
      (halfState s half = 2 → exec (.hostOwnership half) s = .next s ∧ exec (.hostReadShared half) s = .next s) ∧
      (halfState s half ≠ 2 → ∃ t, exec (.hostReadShared half) s = .next t ∧ ReadAnswer s t (64 * half) 64 ∧ halfState t half = 1)) ∧
    (∀ half bs w, s.m.lineWaits.find? (fun w => w.line == half / 2 && w.halves.contains half) = some w →
      s.m.lineWaits.find? (fun w => w.line == half / 2) = some w → w.need ≠ [] → bs.length = 64 → 64 * half + 64 ≤ 0x00B2D05E0000 →
      ∃ t, exec (.hostRecallData half bs) s = .next t ∧ Stored s t (64 * half) bs ∧
        halfState t half = (if w.req.reads then 1 else 0) ∧
        ∀ u ∈ t.m.lineWaits, u.line = half / 2 → half ∉ u.halves) ∧
    (∀ core line,
      let p := partOfCore s core
      let named := ∃ x, l1Find s core line = some x ∧ x.asked &&& wordsOf x.reg ≠ 0#128
      (named → exec (.probe core line p) s = .next s) ∧
      (¬ named → ∃ t, exec (.probe core line p) s = .next t ∧ t.m.mem = s.m.mem ∧
        (∀ x', l1Find t core line = some x' → x'.valid = 0#128 ∧ x'.reg = 0#128) ∧
        (∀ f ∈ t.m.fills, f.core = core → f.line = line → f.overtaken = true) ∧
        ∀ x, l1Find s core line = some x → (x.reg = 0#128 → t.m.toSlice = s.m.toSlice) ∧ (x.reg ≠ 0#128 →
          ∃ u, t.m.toSlice = s.m.toSlice ++ [u] ∧ u.core = core ∧ u.line = line ∧
            u.req = .wb x.reg x.data (wordsOf x.reg &&& ~~~x.lost) [])) ∧
      ∀ tag, tag ≠ p → exec (.probe core line tag) s = .next (s.modPart p (fun q => { q with probemis := min (q.probemis + 1) (2 ^ 32 - 1) }))) ∧
    (∀ line, ∃ t, exec (.hostInvalidate line) s = .next t ∧ t.m.mem = s.m.mem ∧ t.m.l1 = s.m.l1 ∧ t.stands = s.stands ∧
      t.m.hostLines = s.m.hostLines.filter (fun h => h.line ≠ line) ∧
      (∀ f ∈ t.m.fills, f.line = line → f.overtaken = true ∧ (coreDie f.core < 4 → f.novis = true)) ∧
      ∀ y, y ∈ t.m.l2 ↔ y ∈ s.m.l2 ∧ ¬ (y.line = line ∧ y.visitor.isSome ∧ ∃ die, die < 4 ∧ y.slice = visitorSlice die line)) ∧
    (∀ line mask bs ws rest status, s.m.hostQ = .push line mask bs ws :: rest →
      let a := (s.d.mgmt.hostbase + (line * 128 - 0x180000000000)) % 2 ^ 64
      ∃ t, exec (.hostLinkAcknowledge status) s = .next t ∧ t.m.hostQ = rest ∧ t.m.mem = s.m.mem ∧
        (∀ k, k < 128 → memByte t.m.hostMem (a + k) = if mask.getLsbD k then bs.extractLsb' (8 * k) 8 else memByte s.m.hostMem (a + k)) ∧
        (∀ b, b < a ∨ a + 128 ≤ b → memByte t.m.hostMem b = memByte s.m.hostMem b) ∧
        (ws = [] → t.stands = s.stands) ∧
        ∀ q g, ws = [q] → groveNow s q = some g → groveNow t q = some { g with outWbs := g.outWbs - 1 }) ∧
    (∀ op q rest status st g, s.m.hostQ = .atom op q :: rest → s.stand? q.uid = some st → st.grove? q.slot = some g → op.lane < 1024 →
      let a := (s.d.mgmt.hostbase + (op.addr - 0x180000000000)) % 2 ^ 64
      let old := ((List.range op.size).map (fun k => (memByte s.m.hostMem (a + k)).toNat * 2 ^ (8 * k))).sum
      let new := ((atomicNew op old).1).getD old
      ∃ t h, exec (.hostLinkAcknowledge status) s = .next t ∧ t.m.hostQ = rest ∧
        (t.stand? q.uid).bind (fun u => u.grove? q.slot) = some h ∧ h.outStores = g.outStores - 1 ∧
        (status = 0 → h.prog.replies = g.prog.replies ++
            (if g.prog.watched.getLsbD op.lane then [] else [(op.lane, BitVec.ofNat 64 old, 0)]) ∧
          ∀ k, k < op.size → memByte t.m.hostMem (a + k) = BitVec.ofNat 8 (new / 2 ^ (8 * k))) ∧
        (status ≠ 0 → t.m.hostMem = s.m.hostMem ∧ h.prog.faults.map (fun f => (f.lane, f.code, f.detail)) =
          g.prog.faults.map (fun f => (f.lane, f.code, f.detail)) ++ [(op.lane, cHOSTATOMIC, 3)])) ∧
    (∀ port n, ∃ t, exec (.peerTimeout port n) s = .next t ∧ t.m = s.m ∧ t.stands = s.stands ∧ port ∈ t.d.peersDown ∧
      t.d.mgmt.linkwr = min (s.d.mgmt.linkwr + n) (2 ^ 32 - 1)) ∧
    (∀ port, ∃ t, exec (.expanderRemoved port) s = .next t ∧ t.m = s.m ∧ t.stands = s.stands ∧
      ∀ p, p ∈ t.d.removed ↔ p = port ∨ p ∈ s.d.removed) ∧
    (∀ a bs, let t := inputOf (.hostStore a bs) s
      t.m.mem = s.m.mem ∧ t.stands = s.stands ∧ (∀ k, k < bs.length → memByte t.m.hostMem (a + k) = bs.getD k 0) ∧
        (s.m.firn = [] → s.m.hostQ = [] → t.d = s.d ∧
          ∀ b, b < a ∨ a + bs.length ≤ b → memByte t.m.hostMem b = memByte s.m.hostMem b)) ∧
    (s.d.mgmt.fatal = none → s.d.mgmt.fwRunning = true →
      (∀ a n, HbmSpan s a n → HostLeaves s a n → ReadAnswer s (inputOf (.firmwareLoad a n) s) a n) ∧
      ∀ a bs, HbmSpan s a bs.length → HostLeaves s a bs.length → Stored s (inputOf (.firmwareStore a bs) s) a bs) ∧
    ∀ i, s.d.mgmt.fwRunning = false → (∃ a n, i = .firmwareLoad a n) ∨ (∃ a bs, i = .firmwareStore a bs) ∨
      (∃ a n k, i = .granuleKey a n k) ∨ (∃ n, i = .maxOpen n) → inputOf i s = s

end

/-! ## Events: stands, bins, copies, traps, pre-emption, drift -/

namespace Sys2Proof

open Machine

/-- A stand and one of its groves. -/
def Has (s : State) (uid slot : Nat) (st : Stand) (g : Grove) : Prop := s.stand? uid = some st ∧ st.grove? slot = some g

/-- R193: cores `a` and `b` of cluster `n` are the hottest and the coolest of its eligible cores, the lowest among equals; they
belong to one partition, differ by DELTA, and each can hold the other's stands. -/
def SwapPair (s : State) (n delta : Nat) (temps : List Nat) (a b : Nat) : Prop :=
  let temp (x : Nat) : Nat := temps.getD (x - 12 * n) 0
  let among (x : Nat) : Prop := x / 12 = n ∧ driftEligible s x = true
  among a ∧ among b ∧ a ≠ b ∧ (∀ x, among x → temp x < temp a ∨ (temp x = temp a ∧ a ≤ x)) ∧
    (∀ x, among x → temp b < temp x ∨ (temp x = temp b ∧ b ≤ x)) ∧ partOfCore s a = partOfCore s b ∧
    temp b + delta ≤ temp a ∧ holdsAll s a (standsOn s b) = true ∧ holdsAll s b (standsOn s a) = true

end Sys2Proof

section

open Sys2Proof Sys2Proof.Machine

/-- R188 to R194 of 08, R326, R329, R331, R336 of 15, R342, R346 to R352 of 16: what the engines of a stand and the dispatchers do
to it. A waiting `spawn` deposits its last lane once its bin has room; one of which no lane has deposited becomes ready then, and
waits while its stand's bins have changes to make first (R208, R210). A filled bin whose timer has run out begins to launch, and
the bin that waits longest gives an empty slot a grove with a record in each lane. A chunk of a scratch copy is moved, a
multicast chunk lands in a receiver, a failing chunk pauses the context and raises ENGINE in the lowest grove, a loaded table fills
its bank. A pending engine trap is taken. A requested stand past its deadline is saved, by a record without taint, when it
is drained and there is room; a saved stand is restored on its core. A clearing requests the stands
of one core when it has waited long enough (log entry 73 says how long; 71 and 72 what a record keeps and who is restored first).
An interval of drift begins the swap of its cluster's hottest and coolest core where the rule allows one, and else only
notes its end; a drained pair exchanges its stands, and what either core has acquired holds on both. -/
def Obligations.StandEvents : Prop :=
  ∀ (s : State), MemoryForm s →
    (∀ (uid : Nat) (slot : Nat) (st : Stand) (g : Grove) (d : BitVec 8) (a : BitVec 8) (b : BitVec 8), Has s uid slot st g →
      g.held = some (.spawn d a b) → g.wait = .deposit → runnable s st g = true → g.single = none → st.bins ≠ [] →
      a.toNat % 64 + st.shape.recw ≤ 56 → a.toNat % 64 + st.shape.recw ≤ g.boundary → (scalarSource g d).toNat % 4 = 0 →
      (g.prog = Prog.none → g.outStores ≠ 0 ∨ g.ldx ≠ [] ∨ binsBusy s st = true → exec (.deposit uid slot) s = .next s) ∧
      ∀ (l : Nat) (k : Nat) (bin : Bin), g.outStores = 0 → g.ldx = [] → binsBusy s st = false → st.bins[k]? = some bin →
        bin.key = some (scalarSource g d, (scalarSource g b).setWidth 16) → (∀ j, j < k → (st.bins[j]?).bind (fun x => x.key) ≠ bin.key) →
        bin.launching = none → bin.timer ≠ 0 → bin.recs.length < st.shape.lanes →
        (lanesOf g g.enabled).filter (fun l => !g.prog.done.getLsbD l) = [l] → l < 1024 →
        (g.prog = Prog.none → exec (.deposit uid slot) s = .next (s.setGrove uid { g with wait := .none })) ∧
        (g.prog ≠ Prog.none → ∃ t st' bin', exec (.deposit uid slot) s = .next t ∧ t.stand? uid = some st' ∧
          st'.grove? slot = some g.retire ∧ st'.bins[k]? = some bin' ∧ bin'.key = bin.key ∧
          bin'.recs = bin.recs ++ [(List.range st.shape.recw).map (fun j => (g.lane l).reg (a.toNat % 64 + j))])) ∧
    (∀ (uid : Nat) (st : Stand) (k : Nat) (bin : Bin), s.stand? uid = some st → st.bins[k]? = some bin → bin.key.isSome → bin.launching = none → bin.timer = 0 → bin.recs ≠ [] →
      ∃ t, exec (.binTimerExpiry uid k) s = .next t ∧ t.stand? uid = some { st with
        bins := st.bins.set k { bin with launching := some st.binOrder }
        binOrder := st.binOrder + 1 }) ∧
    (∀ (uid : Nat) (st : Stand) (k : Nat) (bin : Bin) (o : Nat) (entry : Word) (tag : BitVec 16) (slot : Nat), s.stand? uid = some st → draining s st = false → st.bins[k]? = some bin → bin.launching = some o →
      (∀ x ∈ st.bins, x.expired = false) →
      bin.key = some (entry, tag) → (∀ (j : Nat) (x : Bin) (p : Nat), j ≠ k → st.bins[j]? = some x → x.launching = some p → o < p) → slot < st.shape.groves →
      (∀ h ∈ st.groves, h.slot ≠ slot) → (slot, s.d.clkCount) ∉ st.freed →
      (∀ j, j < slot → (j, s.d.clkCount) ∈ st.freed ∨ ∃ h ∈ st.groves, h.slot = j) → bin.recs.length ≤ st.shape.lanes →
      ∃ t st' h, exec (.binLaunch uid) s = .next t ∧ t.stand? uid = some st' ∧ st'.groves = st.groves ++ [h] ∧
        st'.bins = st.bins.set k ⟨none, [], 0, none⟩ ∧ h.slot = slot ∧ h.pc = entry ∧ h.active = h.live ∧
        (∀ l, l < 1024 → h.live.getLsbD l = decide (l < bin.recs.length)) ∧
        (∀ (l j : Nat) (r : List Word), bin.recs[l]? = some r → j < r.length → r.length ≤ 56 → (h.lane l).reg j = r.getD j 0) ∧
        vget h.s 4 0 = tag.setWidth 64 ∧ vget h.s 5 0 = BitVec.ofNat 64 bin.recs.length) ∧
    (∀ (uid : Nat) (st : Stand) (id : Nat) (c : Copy) (sl : CopySlice), s.stand? uid = some st → st.copy? id = some c → c.kind = 2 → c.slices = [sl] → c.cur = 0 → c.started = true →
      c.landing = false → c.abandoned = false → contextRuns s st = true → sl.dk 2 = 1 → sl.sk 2 = 1 → sl.xf = 0 → c.recvs = [] →
      c.batch = none → c.counted = [] → s.m.hostQ = [] → st.groves ≠ [] → 64 * c.chunk < sl.len 2 →
      let n := min 64 (sl.len 2 - 64 * c.chunk)
      let src := sl.s.toNat % 2 ^ 32 + 64 * c.chunk
      let dst := sl.d.toNat % 2 ^ 32 + 64 * c.chunk
      src + n ≤ st.scratchSize → ∃ t st', exec (.copyChunk uid id) s = .next t ∧ t.stand? uid = some st' ∧ t.m = s.m ∧
        (∀ k, k < n → memByte st'.scratch (dst + k) = memByte st.scratch (src + k)) ∧
        (∀ a, a < dst ∨ dst + n ≤ a → memByte st'.scratch a = memByte st.scratch a) ∧ st'.groves = st.groves ∧
        (64 * (c.chunk + 1) < sl.len 2 → (st'.copy? id).map (fun k => (k.cur, k.chunk)) = some (0, c.chunk + 1)) ∧
        (sl.len 2 ≤ 64 * (c.chunk + 1) → st'.copy? id = none)) ∧
    (∀ (uid : Nat) (st : Stand) (id : Nat) (c : Copy) (sl : CopySlice) (recv : Nat) (y : Stand), s.stand? uid = some st → st.copy? id = some c → c.landing = true → s.stand? recv = some y → recv ≠ uid →
      (∃ r ∈ c.recvs, r.uid = recv ∧ r.pending = true) → (∃ r ∈ c.recvs, r.uid ≠ recv ∧ r.pending = true ∧ recvAlive s r.uid = true) →
      c.next.isSome → c.slices[c.cur]? = some sl → 0 < c.chunk →
      let dst := sl.d.toNat % 2 ^ 32 + 64 * (c.chunk - 1)
      ∃ t y', exec (.multicastLanding uid id recv) s = .next t ∧ t.stand? recv = some y' ∧ y' = { y with scratch := y'.scratch } ∧
        (∀ k, k < c.buf.length → memByte y'.scratch (dst + k) = c.buf.getD k 0) ∧
        (∀ a, a < dst ∨ dst + c.buf.length ≤ a → memByte y'.scratch a = memByte y.scratch a) ∧
        ((t.stand? uid).bind (fun x => x.copy? id)).map (fun k => (k.landing, k.recvs.map (fun r => (r.uid, r.pending)))) =
          some (true, c.recvs.map (fun r => (r.uid, decide (r.uid ≠ recv) && r.pending)))) ∧
    (∀ (uid : Nat) (st : Stand) (id : Nat) (c : Copy) (d : Nat) (addr : Nat) (g : Grove), s.stand? uid = some st → st.copy? id = some c → contextRuns s st = true → c.started = true → c.landing = false →
      c.abandoned = false → copyFails s st c = some (.fault d addr) → g ∈ st.groves → (∀ h ∈ st.groves, g.slot ≤ h.slot) →
      ∃ t st', exec (.chunkFault uid id) s = .next t ∧ t.stand? uid = some st' ∧ st'.copy.paused = true ∧ st'.halt = some ⟨g.slot, 2⟩ ∧
        (st'.copy? id).map (fun k => (k.faulted, k.faultDetail)) = some (true, d) ∧ t.m = { s.m with walks := t.m.walks } ∧
        (st'.grove? g.slot).map (fun h => (h.pend, h.pc, h.active)) = (st.grove? g.slot).map (fun h =>
          (some ⟨cENGINE, d, 0, BitVec.ofNat 64 addr, 2⟩, h.pc, h.active))) ∧
    (∀ (uid : Nat) (st : Stand) (id : Nat) (c : Copy) (bs : List Byte), s.stand? uid = some st → st.copy? id = some c → c.kind = 3 → contextRuns s st = true → c.abandoned = false →
      c.counted = [] → st.groves ≠ [] → tableRead s st c = .ok bs → bs.length = 32768 →
      ∃ t st', exec (.dictTableLoaded uid id) s = .next t ∧ t.stand? uid = some st' ∧ st'.copy? id = none ∧ t.m = s.m ∧
        (∀ e, e < 4096 → spGet 0 (if c.bank = 0 then st'.copy.bank0 else st'.copy.bank1) e = littleEndian (fun k => bs.getD (8 * e + k) 0)) ∧
        (c.bank = 0 → st'.copy.bank1 = st.copy.bank1) ∧ (c.bank ≠ 0 → st'.copy.bank0 = st.copy.bank0)) ∧
    (∀ (uid : Nat) (slot : Nat) (st : Stand) (g : Grove) (p : PendTrap), Has s uid slot st g → g.pend = some p → g.single = none → runnable s st g = true → g.held = none → g.redo = none →
      let h := vget g.s 30 0
      h ≠ 0 → h.toNat % 4 = 0 → h.toNat / 2 ^ 56 = 0 ∨ h.toNat / 2 ^ 56 = 255 → (∀ x ∈ st.groves, x.trap.hnd = false) →
      ∃ t st' g', exec (.trapEntry uid slot) s = .next t ∧ t.stand? uid = some st' ∧ st'.grove? slot = some g' ∧ g'.pc = h ∧
        g'.pend = none ∧ g'.trap.hnd = true ∧ g'.trap.code = p.code ∧ g'.trap.detail = p.detail ∧ g'.trap.faultPc = g.pc ∧
        g'.trap.faultAddr = p.addr ∧ (∀ l, l < g.lam → l < 1024 → (vget g'.k 6 0).getLsbD l = g.active.getLsbD l ∧ (vget g'.k 7 0).getLsbD l = p.lanes.getLsbD l) ∧ g'.active = g.live &&& ~~~g.parked ∧
        g'.s = g.s ∧ st'.halt = (if st.halt = none then some ⟨slot, p.okind⟩ else st.halt) ∧ t.m.mem = s.m.mem) ∧
    (∀ uid, exec (.preemptDeadline uid) s = .next (s.modStand uid (fun st =>
      if st.preq = true ∧ st.dbgHalt = false ∧ swapping s st.core = false ∧ (st.preqForce = true ∨ st.shape.deadline ≤ st.preqCount) then { st with saving := true } else st))) ∧
    (∀ (uid : Nat) (st : Stand), s.stand? uid = some st → st.saving = true → st.dbgHalt = false → swapping s st.core = false → standDrained s st = true →
      st.seq.ops = [] →
      (saveRoom s st = true → ∃ (t : State) (r : Stand), exec (.saveStand uid) s = .next t ∧ (∀ z ∈ t.stands, z.uid ≠ uid) ∧ t.m.mem = s.m.mem ∧
        t.d.saved = s.d.saved ++ [r] ∧ r = { st with
          preq := false
          preqForce := false
          saving := false
          groves := r.groves } ∧ r.groves.length = st.groves.length ∧
        ∀ (i : Nat) (g h : Grove), st.groves[i]? = some g → r.groves[i]? = some h → h = { g with skidLeft := 0, lanes := h.lanes } ∧
          ∀ l, (h.lane l).taint = 0#56 ∧ ∀ n, n < g.boundary → n < 56 → (h.lane l).reg n = (g.lane l).reg n) ∧
      (saveRoom s st = false → exec (.saveStand uid) s = .next (s.modStand uid (fun x =>
        { x with saving := false, preqCount := 0, preqForce := false })))) ∧
    (∀ (uid : Nat) (st : Stand) (c : Clearing) (core : Nat) (b : Nat), s.d.saved.find? (fun x => x.uid == uid) = some st → restoreCore? s st = some (c, core) →
      scratchBase? s core st.shape.scratchBytes (standsOn s core) = some b → (nextCandidate s).map (·.id) = some c.id →
      ∃ t z, exec (.restoreStand uid) s = .next t ∧ t.stands = s.stands ++ [z] ∧
        z = { st with core := core, sslot := z.sslot, order := s.nextId, scratchBase := b } ∧ (∀ y ∈ t.d.saved, y.uid ≠ uid) ∧ t.m.mem = s.m.mem) ∧
    (∀ (part num : Nat) (c : Clearing), clearing? s part num = some c →
      (c.skipped ≤ 65536 → exec (.dispatcherPreempt part num) s = .next s) ∧
      (65536 < c.skipped → ∀ ids, chooseRequest s part c.shape = some ids → ∃ t, exec (.dispatcherPreempt part num) s = .next t ∧
        t.m = s.m ∧ t.stands = s.stands.map (fun st => if st.uid ∈ ids then { st with preq := true } else st))) ∧
    (∀ (n : Nat) (c : Cluster) (temps : List Nat), s.d.clusters[n]? = some c →
      (s.d.clkCount < c.last + c.interval → exec (.driftInterval n temps) s = .next s) ∧
      (c.last + c.interval ≤ s.d.clkCount → c.en = true → c.pair = none → ∀ a b, SwapPair s n c.delta temps a b →
        ∃ t, exec (.driftInterval n temps) s = .next t ∧ t.stands = s.stands ∧ t.m = s.m ∧
          t.d.clusters[n]? = some { c with last := s.d.clkCount, pair := some (a, b) }) ∧
      (c.last + c.interval ≤ s.d.clkCount → c.en = false ∨ c.pair.isSome ∨ (∀ a b, ¬ SwapPair s n c.delta temps a b) →
        ∃ t, exec (.driftInterval n temps) s = .next t ∧ t.stands = s.stands ∧ t.m = s.m ∧
          t.d.clusters[n]? = some { c with last := s.d.clkCount })) ∧
    ∀ (n : Nat) (c : Cluster) (a b : Nat), s.d.clusters[n]? = some c → c.pair = some (a, b) → a / 12 = n → b / 12 = n → a ≠ b → coreDrained s a = true → coreDrained s b = true →
      (s.stands.map (·.uid)).Nodup →
      ∃ t, exec (.driftSwap n) s = .next t ∧ t.m.mem = s.m.mem ∧ t.stands.length = s.stands.length ∧
        (t.d.clusters[n]?).map (fun k => (k.map, k.pair, k.swaps)) =
          some (c.map.map (fun x => if x = a then b else if x = b then a else x), none, min 0xFFFF (c.swaps + 1)) ∧
        (∀ x, x = a ∨ x = b → x < s.d.cores.length →
          (t.d.core x).visFence = max (s.d.core a).visFence (s.d.core b).visFence ∧
          (t.d.core x).hostFence = max (s.d.core a).hostFence (s.d.core b).hostFence) ∧
        ∀ (i : Nat) (st : Stand), s.stands[i]? = some st → ∃ z, t.stands[i]? = some z ∧
          z = { st with core := z.core, scratchBase := z.scratchBase } ∧ z.core = if st.core = a then b else if st.core = b then a else st.core

end

/-! ## Events: launches, dispatch, pre-emption requests, the clock -/

namespace Sys2Proof

open Machine

/-- A pre-emption write names the stand: it belongs to the clearing, or with SUB to a live descendant (16 R347). -/
def Names (s : State) (part num : Nat) (sub : Bool) (st : Stand) : Prop := preemptNames s part num sub st = true

end Sys2Proof

section

open Sys2Proof Sys2Proof.Machine

/-- R200 to R205 of 09, R213, R214 and R207 of 09, R347, R348 of 16, R372 of 17: a write of LAUNCH sets BUSY with the block's address, or is
counted in DROP; the next clk ends the launch. The global dispatcher sends up to 64 consecutive stands of the clearing that
waits to the die that admits them; the die dispatcher places the first stand of a batch on its core as 08 R171 says; a
batch late by 1,024 clk returns; a report counts the cores with a free slot. PREEMPT sets, clears or forces the requests of
the stands that it names. A clk ends once every free port has chosen (log entry 115), what falls due every 1,024 clk is done and
no bin has a change to make. It advances TIME, by the nanoseconds that the turn gives (log entry 12), the ages of ready groves,
the timers of
bins that fill, of which full ones begin to launch, and the pre-emption counts; a stand that only waited for its stores to be
performed ends at it (log entry 92,
the model's reading), and a host launch, read through die 0 (log entry 45), that has all it reads ends with its RESULT, or with 5 in a partition reset. Writes by
another agent are only counted in MDROP. -/
def Obligations.DispatchEvents : Prop :=
  ∀ (s : State),
    let dropped := s.modMgmt (fun m => { m with mdrop := min (m.mdrop + 1) (2 ^ 32 - 1) })
    (∀ (ag : Agent) (part : Nat) (v : Word), part < 20 →
      (mayWriteBlock s ag part = false → exec (.hostLaunch ag part v) s = .next dropped) ∧
      (mayWriteBlock s ag part = true → (s.d.part part).launchst.busy = true → exec (.hostLaunch ag part v) s =
        .next (s.modPart part (fun p =>
        { p with launchst := { p.launchst with drop := min (p.launchst.drop + 1) 255 } }))) ∧
      (mayWriteBlock s ag part = true → (s.d.part part).launchst.busy = false → part < s.d.parts.length →
        ∃ t p, exec (.hostLaunch ag part v) s = .next t ∧ t.m = s.m ∧ t.stands = s.stands ∧ t.d.parts[part]? = some p ∧
          p = { s.d.part part with launchst := { (s.d.part part).launchst with busy := true, block := p.launchst.block } } ∧
          p.launchst.block.toNat % 2 ^ 57 = v.toNat / 256 % 2 ^ 49 * 256)) ∧
    (∀ (c : Clearing) (die lo hi : Nat) (rest : List (Nat × Nat)), c ∈ s.d.clearings → c.isLive = true → c.shape.prio < 8 →
      c.remaining = (lo, hi) :: rest → lo < hi →
      s.d.clearings.filter (fun k => k.isLive && (k.remaining != [] || hasSaved s k)) = [c] → restoreFirst s c = false → tryCandidate s c = .send die →
      let n := min 64 (hi - lo)
      ∃ t, exec .batchSend s = .next t ∧ t.m = s.m ∧ t.stands = s.stands ∧
        t.d.batches = s.d.batches ++ [⟨die, c.id, (List.range n).map (lo + ·), s.d.clkCount⟩] ∧
        ∀ k ∈ t.d.clearings, k.id = c.id → k.remaining = if lo + n < hi then (lo + n, hi) :: rest else rest) ∧
    (∀ (b : StandBatch) (i : Nat) (rest : List Nat) (c : Clearing) (core base : Nat), s.d.batches = [b] → b.stands = i :: rest →
      s.d.clkCount < b.arrived + 1024 → s.d.clearings.find? (fun k => k.id == b.clearing) = some c → chooseCore s b.die c = some core →
      scratchBase? s core c.shape.scratchBytes (standsOn s core) = some base →
      ∃ t z, exec (.placement b.die) s = .next t ∧ t.stands = s.stands ++ [z] ∧
        t.d.batches = (if rest = [] then [] else [{ b with stands := rest }]) ∧
        z.uid = s.nextId ∧ z.part = c.part ∧ z.clnum = c.num ∧ z.index = i ∧ z.core = core ∧ z.scratchBase = base ∧
        z.shape = c.shape ∧ z.tiles = [] ∧ z.scratch = [] ∧ z.floes = c.shape.floes ∧ z.tlc = ⟨0, 0⟩ ∧ z.tlm = ⟨0, 0⟩ ∧
        z.seq.mtype = 12 ∧ z.seq.run = (if c.shape.mentry.isSome then 1 else 0) ∧ z.seq.ops = [] ∧ z.groves.length = c.shape.groves ∧
        ∀ g ∈ z.groves, g.pc = c.shape.entry ∧ g.lam = c.shape.lanes ∧ g.active = g.live ∧ g.mode = 7 ∧ g.boundary = c.shape.regs ∧
          (∀ l, l < 1024 → g.live.getLsbD l = decide (l < c.shape.lanes)) ∧ (∀ k, k < 4 → vget g.s k 0 = c.args.getD k 0) ∧
          (∀ k, 4 ≤ k → k < 32 → vget g.s k 0 = 0) ∧ ∀ l r, (g.lane l).reg r = 0) ∧
    (∀ (b : StandBatch) (c : Clearing), s.d.batches = [b] → s.d.clearings.find? (fun k => k.id == b.clearing) = some c →
      (s.d.clkCount < b.arrived + 1024 → exec (.batchReturn b.die) s = .next s) ∧
      (b.arrived + 1024 ≤ s.d.clkCount → ∃ t, exec (.batchReturn b.die) s = .next t ∧ t.d.batches = [] ∧ t.stands = s.stands ∧ t.m = s.m ∧
        ∀ k ∈ t.d.clearings, k.id = c.id → ∀ i, (∃ r ∈ k.remaining, r.1 ≤ i ∧ i < r.2) ↔ i ∈ b.stands ∨ ∃ r ∈ c.remaining, r.1 ≤ i ∧ i < r.2)) ∧
    (∀ die, ∃ t, exec (.freeSlotReport die) s = .next t ∧ t.m = s.m ∧ t.stands = s.stands ∧
      (∀ r, r.die ≠ die → (r ∈ t.d.reports ↔ r ∈ s.d.reports)) ∧
      ∀ p, p < 20 → (s.d.part p).alive = true → ∃ r ∈ t.d.reports, r.die = die ∧ r.part = p ∧
        r.count = ((coresOf s p).filter (fun c => c / 48 == die && decide ((s.stands.filter (fun st => st.core == c)).length < 8))).length) ∧
    (∀ (i : Instr) (ag : Agent) (part num : Nat) (sub : Bool) (f : Stand → Stand), part < 20 →
      (i = .preemptSet ag part num sub ∧ f = fun st => { st with preq := true }) ∨
      (i = .preemptClear ag part num sub ∧ f = fun st => { st with preq := false, preqCount := 0, preqForce := false }) ∨
      (i = .preemptForce ag part num sub ∧ f = fun st => { st with preq := true, preqForce := true }) →
      (mayWriteBlock s ag part = false → exec i s = .next dropped) ∧
      (mayWriteBlock s ag part = true → ∃ t, exec i s = .next t ∧ t.m = s.m ∧ t.d = s.d ∧ t.stands.length = s.stands.length ∧
        ∀ (k : Nat) (st : Stand), s.stands[k]? = some st → (Names s part num sub st → t.stands[k]? = some (f st)) ∧
          (¬ Names s part num sub st → t.stands[k]? = some st))) ∧
    let due := portsChoose s = true ∨ s.d.tbDue = true ∨ s.d.bwDue = true ∨ ∃ st ∈ s.stands, binsBusy s st = true
    ∀ ns, (due → exec (.clkTick ns) s = .next s) ∧
      (¬ due → (∀ st ∈ s.stands, standOver s st = false) → s.m.devWrites = [] → ∀ p, p < 20 → p < s.d.parts.length →
        (s.d.part p).launchst.busy = true → (∀ q, q < 20 → q ≠ p → (s.d.part q).launchst.busy = false) →
        let l := (s.d.part p).launchst
        ((s.d.part p).resetting = true → ∃ t, exec (.clkTick ns) s = .next t ∧ t.m = s.m ∧
          (t.d.part p).launchst = { l with busy := false, result := 5, fprot := false, detail := 0 }) ∧
        ((s.d.part p).resetting = false → ∀ r u, launchBlock (clkOf s ns) p 0 ⟨0, p⟩ l.block.toNat none = (some r, u) →
          ∃ t, exec (.clkTick ns) s = .next t ∧ t.m = u.m ∧ t.d.clearings = u.d.clearings ∧
            (t.d.part p).launchst.busy = false ∧ (t.d.part p).launchst.result = r.result ∧
            (r.result = 0 → (t.d.part p).launchst.clnum = r.clnum))) ∧
      (¬ due → ∀ st, s.stands = [st] → standOver s st = true → st.copy.paused = false → (∀ p, p < 20 → (s.d.part p).launchst.busy = false) →
        ∃ t, exec (.clkTick ns) s = .next t ∧ t.stands = []) ∧
      (¬ due → (∀ st ∈ s.stands, standOver s st = false) → s.m.devWrites = [] →
        (∀ p, p < 20 → (s.d.part p).launchst.busy = false) →
        ∃ t, exec (.clkTick ns) s = .next t ∧ t.m = s.m ∧
        t.d.time = s.d.time.map (fun x => (x + ns) % 2 ^ 64) ∧ t.d.clkCount = s.d.clkCount + 1 ∧ t.stands.length = s.stands.length ∧
        (t.d.tbDue = true ↔ (s.d.clkCount + 1) % 1024 = 0) ∧ (t.d.bwDue = true ↔ (s.d.clkCount + 1) % 1024 = 0) ∧
        ∀ (k : Nat) (st : Stand), s.stands[k]? = some st → ∃ z,
          let runs := st.halt = none ∧ st.dbgHalt = false ∧ draining s st = false
          let full (b : Bin) : Bool := b.key.isSome && b.launching.isNone && decide (st.shape.lanes ≤ b.recs.length)
          t.stands[k]? = some z ∧ z = { st with
            groves := z.groves
            bins := z.bins
            binOrder := st.binOrder + st.bins.countP full
            preqCount := if st.preq = true ∧ st.dbgHalt = false then st.preqCount + 1 else st.preqCount } ∧
          z.bins.length = st.bins.length ∧
          (∀ (j : Nat) (b : Bin), st.bins[j]? = some b → z.bins[j]? = some { b with
            timer := if runs ∧ b.key.isSome ∧ b.launching = none then b.timer - 1 else b.timer
            launching := if full b then some (st.binOrder + (st.bins.take j).countP full) else b.launching }) ∧
          z.groves = st.groves.map (fun g => { g with age := if readyGrove s st g then g.age + 1 else g.age }))

end

/-! ## Events: translations, windows and device registers -/

namespace Sys2Proof

open Machine

/-- A write that is not taken is only counted in MDROP, which holds at 0xFFFF_FFFF. -/
def CountedInMdrop (s t : State) : Prop :=
  t = s.modMgmt (fun m => { m with mdrop := min (m.mdrop + 1) (2 ^ 32 - 1) })

/-- Partition block `p` takes writes of the owner, of running firmware and of its hypervisor function, while the partition
exists. -/
def TakesBlockWrite (s : State) (ag : Agent) (p : Nat) : Prop :=
  (s.d.part p).alive = true ∧ (isOwner s ag = true ∨ isFirmware s ag = true ∨ ag = .hv p)

/-- The page of a translation holds the address. -/
def HoldsPage (x : TlbEntry) (va : Nat) : Prop := x.base ≤ va ∧ va < x.base + x.size

/-- R40: what an operation of each SCOPE removes. -/
def RemovedBy (p : Partition) (part scope : Nat) (x : TlbEntry) : Prop :=
  x.part = part ∧ (scope = 0 ∨ (scope = 1 ∧ x.asid = p.asid ∧ x.g = false) ∨
    (scope = 2 ∧ x.asid = p.asid ∧ x.g = false ∧ HoldsPage x p.tlbiaddr.toNat) ∨ (scope = 3 ∧ HoldsPage x p.tlbiaddr.toNat))

/-- Nothing that a partition's groves and sequencers translated is still to be performed. -/
def AllPerformed (s : State) (part : Nat) : Prop :=
  ∀ st ∈ s.stands, st.part = part → (∀ o ∈ st.seq.ops, o.want = []) ∧
    ∀ g ∈ st.groves, g.prog.segs = [] ∧ g.ldx = [] ∧ g.outStores = 0 ∧ g.outWbs = 0 ∧ ∀ k, g.kept = some k → k.prog.segs = []

/-- R50: geometry that a write of EN = 1 refuses. -/
def BadGeometry (w : Window) : Prop :=
  let n := 4 ^ w.dim
  let b := 16 * w.q
  4 < w.kind ∨ w.alen = 0 ∨ ((w.kind = 0 ∨ w.kind = 4) ∧ w.at16 = 1) ∨ (w.kind = 1 ∧ w.elems % 32 ≠ 0) ∨
    (w.kind = 0 ∧ (w.dim = 0 ∨ w.q = 0 ∨ b < (if w.stype = 1 then 12 else 9) + n ∨ n * (if w.stype = 1 then 64 else 32) < b ∨
      w.elems % n ≠ 0))

/-- R50: a range of the window shares a byte with one of another window that is enabled or being disabled. -/
def OverlapsAnother (s : State) (n : Nat) (w : Window) : Prop :=
  ∃ k u, k ≠ n ∧ s.d.windows[k]? = some u ∧ (u.en = true ∨ u.busy = true) ∧
    ∃ a ∈ u.ranges, ∃ b ∈ w.ranges, a.1 < b.1 + b.2 ∧ b.1 < a.1 + a.2

/-- R50: the coded or scale range is not populated, or the alias range leaves the alias region. -/
def OutsideTheMap (s : State) (w : Window) : Prop :=
  populated s (w.cbase, w.codedBytes) = false ∨ (w.kind = 1 ∧ populated s (w.sbase, w.scaleBytes) = false) ∨
    w.abase < 0x100000000000 ∨ 0x180000000000 < w.abase + w.aliasBytes

/-- R50: the verdict on a write of EN = 1: bad geometry, overlap, range, or none. -/
def Verdict (s : State) (n : Nat) (u : Window) (e : Nat) : Prop :=
  (BadGeometry u → e = 2) ∧ (¬ BadGeometry u → OverlapsAnother s n u → e = 1) ∧
    (¬ BadGeometry u → ¬ OverlapsAnother s n u → OutsideTheMap s u → e = 3) ∧
    (¬ BadGeometry u → ¬ OverlapsAnother s n u → ¬ OutsideTheMap s u → e = 0)

/-- The answer to a register read of 8 bytes is `v`. -/
def Reads (s t : State) (v : Nat) : Prop :=
  t = s.modD (fun d => { d with hostOut := ⟨false, false, (List.range 8).map (fun k => BitVec.ofNat 8 (v / 2 ^ (8 * k)))⟩ })

end Sys2Proof

section

open Sys2Proof Sys2Proof.Machine

/-- R38 to R40, R45, R47 to R50, R53, R55 of 02, R214 of 09, R373, R376 and R380 of 18: an invalidation removes the translations of
its scope and is ignored while one is in progress; it completes when what was translated is performed (log entry 82), and then
no translation stands on a segment written before. A walk of one miss records its fault, waits for a line that is not ready or
for its tokens, or sets A, and D for a write, in the entry and installs the translation; a PTROOT of another module gives PROT 5
(log entry 94), a poisoned or lost entry POISON or OWNERLOST (log entry 125). Enabling a window checks geometry, then overlap,
then range, waits for lines in use (log entry 128), and leaves no line of its coded and scale ranges in a slice; disabling sets
BUSY until its blocks are written back. A read clears what 'RC' says, answers 0 to an agent that may not read (log entry 39 says
who may), and a register with a WO field ignores a write of 4 bytes. Firmware acts while it runs (log entry 119). -/
def Obligations.TranslationAndRegisterEvents : Prop :=
  ∀ (s : State), MemoryForm s →
    (∀ (i : Instr) (ag : Agent) (part scope : Nat), part < 20 → part < s.d.parts.length →
      (i = .tlbiAll ag part ∧ scope = 0) ∨ (i = .tlbiAsid ag part ∧ scope = 1) ∨ (i = .tlbiPage ag part ∧ scope = 2) ∨
        (i = .tlbiPageAllAsid ag part ∧ scope = 3) →
      (¬ TakesBlockWrite s ag part → ∃ t, exec i s = .next t ∧ CountedInMdrop s t) ∧
      (TakesBlockWrite s ag part → (s.d.part part).tlbi.isSome = true → exec i s = .next s) ∧
      (TakesBlockWrite s ag part → (s.d.part part).tlbi = none → ∃ t, exec i s = .next t ∧ t.m.mem = s.m.mem ∧ t.stands = s.stands ∧
        t.d.part part = { s.d.part part with tlbi := some scope } ∧ (∀ q ∈ t.m.walks, q.part = part → q.done = false) ∧
        ∀ x, x ∈ t.m.tlb ↔ x ∈ s.m.tlb ∧ ¬ RemovedBy (s.d.part part) part scope x)) ∧
    (∀ part, ((s.d.part part).tlbi = none ∨ ¬ AllPerformed s part → exec (.tlbiComplete part) s = .next s) ∧
      ((s.d.part part).tlbi.isSome = true → AllPerformed s part →
        ((s.d.part part).segNew = false → exec (.tlbiComplete part) s = .next (s.modPart part (fun p => { p with tlbi := none }))) ∧
        ((s.d.part part).segNew = true → part < s.d.parts.length → ∃ t, exec (.tlbiComplete part) s = .next t ∧
          t.m.mem = s.m.mem ∧ t.stands = s.stands ∧ t.d.part part = { s.d.part part with tlbi := none, segNew := false } ∧
          ∀ x, x ∈ t.m.tlb ↔ x ∈ s.m.tlb ∧ x.part ≠ part))) ∧
    (∀ die, (∀ q ∈ s.m.walks, q.die = die → q.done = true) → exec (.walkPage die) s = .next s) ∧
    (∀ die q k rest u, s.m.walks.filter (fun q => q.die == die && !q.done) = q :: rest → q.asks = [k] →
      let va := q.vpage * 4096
      (∀ c d, walk s q.part va q.ptroot.toNat = (.fault c d, u) → exec (.walkPage die) s =
        .next (u.modM (fun m => { m with walks := m.walks.map (fun y => if y = q then
          { q with asks := [{ k with result := some ⟨c, d, none⟩ }], done := true } else y) }))) ∧
      (∀ line mask, rest = [] → walk s q.part va q.ptroot.toNat = (.wait line mask, u) →
        exec (.walkPage die) s = .next (lineAsk u line mask false (2 * q.part))) ∧
      (∀ level a e r, walk s q.part va q.ptroot.toNat = (.leaf level a e, u) → HbmSpan u a 8 → q ∉ u.m.walks.erase q →
        leafDenies e k.acc k.user = none → segmentOf u q.part (leafFrame level e q.vpage) = .ok r → permits k.acc r = true →
        resultFault u r.1 = none → e < 2 ^ 64 → e = curNat u a 8 →
        let new := e ||| 0x40 ||| (if k.acc = accWrite then 0x80 else 0)
        resultFault (engineWrite u a (toBytes 8 new)) r.1 = none →
        ∃ t x, exec (.walkPage die) s = .next t ∧ t.m.walks = u.m.walks.erase q ∧
          Stored u t a ((List.range 8).map (fun k => BitVec.ofNat 8 (new / 2 ^ (8 * k)))) ∧
          t.m.tlb.head? = some x ∧ x.die = q.die ∧ x.part = q.part ∧ x.asid = q.asid ∧ x.vpage = q.vpage ∧ x.pa = r.1 ∧
          x.w = e.testBit 1 ∧ x.x = e.testBit 2 ∧ x.u = e.testBit 3 ∧ x.g = e.testBit 8 ∧ x.d = new.testBit 7 ∧
          (x.sr, x.sw, x.sx) = r.2)) ∧
    (∀ u va acc, canonical va = false → lookup s u va acc = .fault ⟨cPROT, 1, none⟩) ∧
    (∀ part va root, (root / 2 ^ 45 ≠ s.d.mgmt.modid → walk s part va root = (.fault cPROT 5, s)) ∧
      (root / 2 ^ 45 = s.d.mgmt.modid →
        (∀ r, segmentOf s part (root / 4096 * 4096) = .ok r → r.2.1 = false → walk s part va root = (.fault cPROT 8, s)) ∧
        ∀ r, stage2 s part (root / 4096 * 4096) accRead = .ok r →
          let a := r.1 + 8 * (va / 2 ^ 48 % 2 ^ 9)
          let mask := maskRange (a % 128) 8
          let p := prepay s (homeSlice s (a / 128)) (a / 128) part 0 (missTokens s (a / 128) part + holders s (a / 128) mask)
          let u := l2Access p.2 (a / 128) part 0 true
          let bs := curBytes u a 8
          let e := curNat u a 8
          (spanReady s a 8 part = false → walk s part va root = (.wait (a / 128) mask, s)) ∧
          (spanReady s a 8 part = true → p.1 = false → walk s part va root = (.wait (a / 128) mask, p.2)) ∧
          (spanReady s a 8 part = true → p.1 = true →
            ((∃ b ∈ bs, b.2.1 = true) → walk s part va root = (.fault cPOISON 0, u)) ∧
            ((∀ b ∈ bs, b.2.1 = false) → (∃ b ∈ bs, b.2.2 = true) → walk s part va root = (.fault cOWNERLOST 0, u)) ∧
            ((∀ b ∈ bs, b.2.1 = false ∧ b.2.2 = false) → (e % 2 = 0 → walk s part va root = (.fault cPAGE 1, u)) ∧
              (e % 2 = 1 → e.testBit 4 = true → walk s part va root = (.fault cPROT 5, u)))))) ∧
    (∀ (ag : Agent) (n : Nat) (w : Window) (v : Word), n < 64 → s.d.windows[n]? = some w →
      let may := isOwner s ag = true ∨ isFirmware s ag = true ∨ (ag = .hv w.part ∧ (s.d.part w.part).alive = true)
      let u : Window := { w with
        part := if isOwner s ag = false ∧ isFirmware s ag = false then w.part else v.toNat / 2 ^ 23 % 32
        kind := v.toNat / 2 ^ 20 % 8
        dim := v.toNat / 2 ^ 18 % 4
        stype := v.toNat / 2 ^ 17 % 2
        at16 := v.toNat / 2 ^ 16 % 2
        ovf := v.toNat / 2 ^ 15 % 2
        q := v.toNat % 512 }
      (¬ may → (∃ t, exec (.windowEnable ag n v) s = .next t ∧ CountedInMdrop s t) ∧
        (w.en = true → ∃ t, exec (.windowDisable ag n) s = .next t ∧ CountedInMdrop s t)) ∧
      (may → w.busy = true ∨ w.en = true → exec (.windowEnable ag n v) s = .next s) ∧
      (may → w.busy = true ∨ w.en = false → exec (.windowDisable ag n) s = .next s) ∧
      (may → w.busy = false → w.en = true →
        exec (.windowDisable ag n) s = .next (s.modWindow n (fun w => { w with busy := true }))) ∧
      (may → w.busy = false → w.en = false → ∀ e, Verdict s n u e →
        (e = 0 → codedFree s u = false → exec (.windowEnable ag n v) s = .next s) ∧
        (e ≠ 0 → exec (.windowEnable ag n v) s = .next (s.modWindow n (fun _ => { u with en := false, err := e }))) ∧
        (e = 0 → codedFree s u = true → ∃ t, exec (.windowEnable ag n v) s = .next t ∧ t.stands = s.stands ∧
          t.d.windows = s.d.windows.set n { u with en := true, err := 0 } ∧
          ∀ y ∈ t.m.l2, (y.line * 128 + 128 ≤ u.cbase ∨ u.cbase + u.codedBytes ≤ y.line * 128) ∧
            (u.kind = 1 → y.line * 128 + 128 ≤ u.sbase ∨ u.sbase + u.scaleBytes ≤ y.line * 128))) ∧
      (w.busy = false ∨ aliasBusy s w = true → exec (.windowDisableDone n) s = .next s) ∧
      (w.busy = true → aliasBusy s w = false → ∃ t, exec (.windowDisableDone n) s = .next t ∧ t.stands = s.stands ∧
        t.d.windows = s.d.windows.set n { w with en := false, busy := false } ∧ (∀ g ∈ t.m.groups, g.win ≠ n) ∧
        ∀ y ∈ t.m.l2, y.line * 128 < w.abase ∨ w.abase + w.aliasBytes ≤ y.line * 128)) ∧
    (∀ (ag : Agent) (part : Nat), part < 20 →
      (¬ TakesBlockWrite s ag part → (∃ t, exec (.occClear ag part) s = .next t ∧ CountedInMdrop s t) ∧
        ∀ v, ∃ t, exec (.traceptrWrite ag part v) s = .next t ∧ CountedInMdrop s t) ∧
      (TakesBlockWrite s ag part →
        (∀ v, exec (.traceptrWrite ag part v) s = .next (s.modPart part (fun p => { p with tracePtr := v.toNat, traceFull := false }))) ∧
        ∃ t, exec (.occClear ag part) s = .next t ∧ t.m = s.m ∧ t.stands = s.stands ∧ t.d.parts = s.d.parts ∧
          ∀ c x, s.d.cores[c]? = some x → t.d.cores[c]? = some (if partOfCore s c = part then { x with occ := [] } else x)) ∧
      let mayRead := (s.d.part part).alive = true ∧ (ag = .owner ∨ isFirmware s ag = true ∨ ag = .hv part)
      let l := (s.d.part part).launchst
      (¬ mayRead → (∃ t, exec (.probemisRead ag part) s = .next t ∧ Reads s t 0) ∧
        ∃ t, exec (.launchstRead ag part) s = .next t ∧ Reads s t 0) ∧
      (mayRead → (∃ t, exec (.probemisRead ag part) s = .next t ∧
          Reads (s.modPart part (fun p => { p with probemis := 0 })) t (s.d.part part).probemis) ∧
        ∃ t, exec (.launchstRead ag part) s = .next t ∧ Reads (s.modPart part (fun p => { p with launchst := { p.launchst with drop := 0 } })) t
          ((if l.busy then 2 ^ 63 else 0) + l.drop * 2 ^ 48 + l.clnum * 2 ^ 32 + (if l.fprot then 2 ^ 8 else 0) + l.detail * 2 ^ 4 + l.result))) ∧
    (∀ (ag : Agent), let mayRead := ag = .owner ∨ isFirmware s ag = true ∨ ∃ id, ag = .master id
      (¬ mayRead → ∀ i, i = .errcntRead ag ∨ i = .xfercntRead ag ∨ i = .mdropRead ag → ∃ t, exec i s = .next t ∧ Reads s t 0) ∧
      (mayRead → (∃ t, exec (.errcntRead ag) s = .next t ∧
          Reads (s.modMgmt (fun m => { m with lostCnt := 0, poisCnt := 0 })) t (s.d.mgmt.lostCnt * 2 ^ 32 + s.d.mgmt.poisCnt)) ∧
        (∃ t, exec (.xfercntRead ag) s = .next t ∧
          Reads (s.modMgmt (fun m => { m with hwdrop := 0, linkwr := 0 })) t (s.d.mgmt.hwdrop * 2 ^ 32 + s.d.mgmt.linkwr)) ∧
        ∃ t, exec (.mdropRead ag) s = .next t ∧ Reads (s.modMgmt (fun m => { m with mdrop := 0 })) t s.d.mgmt.mdrop)) ∧
    (∀ a v, (a = 0x1F0000000000 ∧ v = s.d.mgmt.modid) ∨ (a = 0x1F0000000008 ∧ v = s.d.mgmt.hostbase) →
      (∃ t, exec (.hostRead a 8) s = .next t ∧ Reads s t v) ∧
      (s.d.mgmt.fatal = none → ∀ id, Reads s (inputOf (.regRead (.master id) a 8) s) v)) ∧
    ∀ (ag : Agent) (part : Nat) (v : Word), part < 20 →
      let base := 0x1F0000100000 + 0x1000 * part
      (¬ TakesBlockWrite s ag part → ∃ t, exec (.registerWrite ag base 8 v) s = .next t ∧ CountedInMdrop s t) ∧
      (TakesBlockWrite s ag part →
        exec (.registerWrite ag base 8 v) s =
          .next (s.modPart part (fun p => { p with ptroot := v &&& 0xFFFFFFFFFFFFF000#64 })) ∧
        exec (.registerWrite ag (base + 0x08) 8 v) s = .next (s.modPart part (fun p => { p with asid := v.toNat % 2 ^ 16 })) ∧
        ((s.d.part part).rate0 < 2 ^ 12 → (s.d.part part).depth0 < 2 ^ 12 →
          exec (.registerWrite ag (base + 0x214) 4 v) s = .next (s.modPart part (fun p => { p with depth0 := v.toNat % 2 ^ 12, rate0 := p.rate0 })) ∧
          exec (.registerWrite ag (base + 0x210) 4 v) s = .next (s.modPart part (fun p => { p with depth0 := p.depth0, rate0 := v.toNat % 2 ^ 12 })))) ∧
      ∀ off, off = 0x020 ∨ off = 0x240 ∨ off = 0x250 ∨ off = 0x260 →
        (TakesBlockWrite s ag part → exec (.registerWrite ag (base + off) 4 v) s = .next s) ∧
        (¬ TakesBlockWrite s ag part → ∃ t, exec (.registerWrite ag (base + off) 4 v) s = .next t ∧ CountedInMdrop s t)

end

/-! ## Events: power-up, firmware, ownership, partitions, service, power and heat -/

namespace Sys2Proof

open Machine

/-- A core that could take over from another (18 R382; log entry 85): of its cluster and partition, not retired, with no stand. -/
def CouldReplace (s : State) (core r : Nat) : Prop :=
  r ≠ core ∧ r / 12 = core / 12 ∧ partOfCore s r = partOfCore s core ∧ partOfCore s core < 20 ∧
    (s.d.core r).retired = false ∧ ∀ st ∈ s.stands, st.core ≠ r

/-- A physical address lies in a granule whose key is number `key` (03 R79). -/
def InGranule (s : State) (key a : Nat) : Prop :=
  ∃ k ∈ s.m.keys, k.2.2 = key ∧ k.1 * 2 ^ 21 ≤ a ∧ a < k.1 * 2 ^ 21 + k.2.1 * 2 ^ 21

/-- R377 to R379: the verdict on an image, from its length and the checks of its key, signature and version. -/
def firmwareCode (len : Nat) (keyOk sigOk versionOk : Bool) : Nat :=
  if 64 * 2 ^ 20 < len then 5 else if keyOk = false then 2 else if sigOk = false then 3 else if versionOk = false then 4 else 1

end Sys2Proof

section

open Sys2Proof Sys2Proof.Machine

/-- R377 to R384 of 18, R371 of 17: a power-up starts over; FWSTART starts a verification, and a refused image starts
nothing and clears the staging window; the first claim wins, the lowest ID of one clk, and only the master that NEXT names
replaces an owner (log entry 58). A create
takes free half-clusters (of a partition that exists it does nothing: log entry 56), with the identity map and no swap (R3), zeroes the partition's granules and sets its fields; a reset or
remove stops every stand and discards every record. The mailbox recalibrates, retires and reads counters, one operation at a time
(log entries 53, 54, 55 and 85 say what each leaves). A fatal error writes the dump (log entry 57) and stops
the machine but for a new FWSTART, which keeps memory and MODID (log entry 29), and a power-up (log entry 120). Power above
PWRCEIL lowers a die's state, heat drops it to 0, the end of
the cause raises it to 15 (log entry 80); such an event opens power windows. -/
def Obligations.ManagementEvents : Prop :=
  ∀ (s : State),
    (∃ t, exec .powerUp s = .next t ∧ t.stands = [] ∧ t.d = State.reset.d ∧ t.m = { MemSys.reset with hostMem := s.m.hostMem }) ∧
    (∀ v, v.getLsbD 63 = false →
      (s.d.mgmt.fatal = none → s.d.mgmt.fwStart = true ∨ s.d.mgmt.fwRunning = true → exec (.firmwareStart v) s = .next s) ∧
      (s.d.mgmt.fatal = none → s.d.mgmt.fwStart = false → s.d.mgmt.fwRunning = false → exec (.firmwareStart v) s =
        .next (s.modMgmt (fun m => { m with fwLen := v.toNat, fwStart := true, fwLive := false, fwStat := 0 }))) ∧
      (s.d.mgmt.fatal.isSome = true → ∃ t, exec (.firmwareStart v) s = .next t ∧ t.d.mgmt.fatal = none ∧ t.d.mgmt.fwStart = true ∧
        t.d.mgmt.fwLen = v.toNat ∧ t.d.mgmt.fwRunning = false ∧ t.stands = [] ∧ t.m.mem = s.m.mem ∧
        t.d.mgmt.modid = s.d.mgmt.modid ∧ t.d.mgmt.modidLocked = s.d.mgmt.modidLocked)) ∧
    (∀ v, s.d.mgmt.fatal.isSome = true ∨ s.d.mgmt.fwStart = true ∨ s.d.mgmt.fwRunning = false → exec (.liveUpdate v) s = .next s) ∧
    (∀ v, s.d.mgmt.fatal = none → s.d.mgmt.fwStart = false → s.d.mgmt.fwRunning = true → exec (.liveUpdate v) s =
      .next (s.modMgmt (fun m => { m with fwLen := (v ||| 0x8000000000000000#64).toNat, fwStart := true, fwLive := true }))) ∧
    (∀ keyOk sigOk versionOk,
      let m := s.d.mgmt
      let code := firmwareCode (m.fwLen % 2 ^ 63) keyOk sigOk versionOk
      (m.fwStart = false → exec (.firmwareVerified keyOk sigOk versionOk) s = .next s) ∧
      let done := s.modMgmt (fun g => { g with fwStart := false, fwLive := false, fwStat := code })
      (m.fwStart = true → code ≠ 1 → exec (.firmwareVerified keyOk sigOk versionOk) s =
        .next { done with m := { s.m with staging := [] } }) ∧
      (m.fwStart = true → code = 1 → m.fwLive = true → exec (.firmwareVerified keyOk sigOk versionOk) s = .next done) ∧
      (m.fwStart = true → code = 1 → m.fwLive = false → ∃ t, exec (.firmwareVerified keyOk sigOk versionOk) s = .next t ∧ t.m = s.m ∧
        t.stands = s.stands ∧ t.d.mgmt.fwRunning = true ∧ t.d.mgmt.fwStat = 1 ∧ t.d.mgmt.maxOpen = [4, 4, 4, 4] ∧
        t.d.clusters = s.d.clusters.map (fun c => { c with en := true, delta := 16, intv := 21 }))) ∧
    (∀ ids, ids ≠ [] → (∀ i ∈ ids, i < 2 ^ 24) → ∃ t, exec (.ownerClaim ids) s = .next t ∧ t.m = s.m ∧ t.stands = s.stands ∧
      (s.d.mgmt.fwRunning = false → t.d.mgmt.held = s.d.mgmt.held ∧ t.d.mgmt.owner = s.d.mgmt.owner ∧
        t.d.mgmt.mdrop = min (s.d.mgmt.mdrop + ids.length) (2 ^ 32 - 1)) ∧
      (s.d.mgmt.fwRunning = true → s.d.mgmt.held = false →
        t.d.mgmt.held = true ∧ t.d.mgmt.owner ∈ ids ∧ ∀ i ∈ ids, t.d.mgmt.owner ≤ i) ∧
      (∀ n, s.d.mgmt.fwRunning = true → s.d.mgmt.held = true → s.d.mgmt.next = some n → n ∈ ids →
        t.d.mgmt.held = true ∧ t.d.mgmt.owner = n ∧ t.d.mgmt.next = none) ∧
      (s.d.mgmt.fwRunning = true → s.d.mgmt.held = true → (∀ n, s.d.mgmt.next = some n → n ∉ ids) →
        t.d.mgmt.held = true ∧ t.d.mgmt.owner = s.d.mgmt.owner ∧ t.d.mgmt.next = s.d.mgmt.next)) ∧
    (exec .ownerTimeout s = .next (s.modMgmt (fun m => { m with held := false }))) ∧
    (∀ (ag : Agent), isOwner s ag = false → ∀ i, (∃ n, i = .ownerNext ag n) ∨ (∃ p h, i = .partitionCreate ag p h) ∨
      (∃ p, i = .partitionReset ag p ∨ i = .partitionRemove ag p) ∨ (∃ x, i = .recalibrate ag x ∨ i = .retireCore ag x ∨
        i = .retireChannel ag x) ∨ i = .readCounters ag → ∃ t, exec i s = .next t ∧ CountedInMdrop s t) ∧
    (∀ (ag : Agent), isOwner s ag = true →
      (∀ n, exec (.ownerNext ag n) s = .next (s.modMgmt (fun m => { m with next := some (n % 2 ^ 24) }))) ∧
      ((∃ q ∈ s.d.parts, q.busy = true) → ∀ i, (∃ p h, i = .partitionCreate ag p h) ∨ (∃ p, i = .partitionReset ag p ∨
        i = .partitionRemove ag p) → ∃ t, exec i s = .next t ∧ CountedInMdrop s t) ∧
      ((∀ q ∈ s.d.parts, q.busy = false) → ∀ part halves, part < 20 → part < s.d.parts.length →
        let h := halves % 2 ^ 32
        let free := h ≠ 0 ∧ (s.d.part part).alive = false ∧ ∀ q ∈ s.d.parts, q.alive = true → q.halves &&& h = 0
        (¬ free → exec (.partitionCreate ag part halves) s = .next (s.modPart part (fun p => { p with halvesReg := h }))) ∧
        (free → ∃ t, exec (.partitionCreate ag part halves) s = .next t ∧ t.stands = s.stands ∧ t.d.mgmt.modidLocked = true ∧
          t.d.part part = { Partition.reset with
            alive := true
            halves := h
            halvesReg := h
            busy := true
            lmin := 1
            lmax := 4
            l2ways := 0xFFF
            depth0 := 256
            rate0 := 0
            depth1 := 256
            rate1 := 0 } ∧ (∀ p, p ≠ part → t.d.part p = s.d.part p) ∧
          (∀ k c, t.d.clusters[k]? = some c → (∀ p, c.pair = some p → h.testBit (p.1 / 6) = false) ∧
            ∀ (j x : Nat), c.map[j]? = some x → h.testBit ((12 * k + j) / 6) = true → x = 12 * k + j) ∧
          ∀ a, (InGranule s part a → memByte t.m.mem a = 0 ∧ a / 128 ∉ t.m.poison ∧ a / 4 ∉ t.m.lost) ∧
            (¬ InGranule s part a → memByte t.m.mem a = memByte s.m.mem a))) ∧
      ((∀ q ∈ s.d.parts, q.busy = false) → ∀ i part op, (i = .partitionReset ag part ∧ op = false) ∨
          (i = .partitionRemove ag part ∧ op = true) → (s.d.part part).alive = true →
        ∃ t, exec i s = .next t ∧ (∀ st ∈ t.stands, st.part ≠ part) ∧ (∀ st ∈ t.d.saved, st.part ≠ part) ∧
          (∀ c ∈ t.d.clearings, c.part ≠ part) ∧ (t.d.part part).busy = true ∧ (t.d.part part).resetting = true ∧
          (t.d.part part).removing = op ∧ (∀ p, p ≠ part → t.d.part p = s.d.part p) ∧
          ∀ st ∈ s.stands, st.part ≠ part → s.m.lineWaits = [] → (∀ z ∈ s.stands, z.uid = st.uid → z = st) → ∃ z ∈ t.stands, z.uid = st.uid ∧ z.groves = st.groves) ∧
      (s.d.mgmt.mboxBusy = true → ∀ x, exec (.recalibrate ag x) s = .next s ∧ exec (.retireCore ag x) s = .next s ∧
        exec (.retireChannel ag x) s = .next s ∧ exec (.readCounters ag) s = .next s) ∧
      (s.d.mgmt.mboxBusy = false → ∀ x,
        let begun (op arg : Nat) : State := s.modMgmt (fun m => { m with mboxOp := op, mboxArg := arg, mboxBusy := true })
        exec (.retireChannel ag x) s = .next (begun 3 x) ∧ exec (.readCounters ag) s = .next (begun 4 0) ∧
        (∃ t, exec (.recalibrate ag x) s = .next t ∧ t.stands = s.stands ∧ t.m.mem = s.m.mem ∧
          t.d.mgmt = { s.d.mgmt with mboxOp := 1, mboxArg := x, mboxBusy := true, heldStacks := [x] } ∧
          ∀ o, o ∈ t.m.rows ↔ o ∈ s.m.rows ∧ o.stack ≠ x) ∧
        ((∀ r, ¬ CouldReplace s x r) → exec (.retireCore ag x) s = .next (begun 2 x)) ∧
        ∀ r, CouldReplace s x r → ∃ t, exec (.retireCore ag x) s = .next t ∧ t.m = s.m ∧ t.d = (begun 2 x).d ∧
          t.stands = s.stands.map (fun st => if st.core = x then { st with preq := true, preqForce := true } else st))) ∧
    (∀ part, part < 20 → let p := s.d.part part
      (p.busy = false → exec (.partitionOpComplete part) s = .next s) ∧
      (p.busy = true → p.removing = false → exec (.partitionOpComplete part) s =
        .next (s.modPart part (fun q => { q with busy := false, resetting := false }))) ∧
      (p.busy = true → p.removing = true → ∃ t, exec (.partitionOpComplete part) s = .next t ∧ t.stands = s.stands ∧ t.m = s.m ∧
        t.d.part part = { Partition.reset with halvesReg := p.halvesReg } ∧
        ∀ c, c < 192 → p.halves.testBit (c / 6) = true → (t.d.core c).occ = [])) ∧
    (let m := s.d.mgmt;
      (m.mboxBusy = false → exec .serviceOperationComplete s = .next s) ∧
      (m.mboxBusy = true → m.mboxOp = 1 → exec .serviceOperationComplete s =
        .next (s.modMgmt (fun m => { m with heldStacks := [], mboxBusy := false, mboxStatus := 0 }))) ∧
      (m.mboxBusy = true → m.mboxOp = 3 → exec .serviceOperationComplete s =
        .next (s.modMgmt (fun g => { g with retiredChannels := m.mboxArg :: g.retiredChannels, mboxBusy := false, mboxStatus := 0 }))) ∧
      (m.mboxBusy = true → m.mboxOp = 4 → ∃ t, exec .serviceOperationComplete s = .next t ∧ t.m = s.m ∧ t.stands = s.stands ∧
        t.d.mgmt.mboxBusy = false ∧ t.d.mgmt.mboxStatus = 0 ∧ ∀ x ∈ s.m.seracCnts, x ∈ t.d.mgmt.mboxData) ∧
      (m.mboxBusy = true → m.mboxOp = 2 → (∀ r, ¬ CouldReplace s m.mboxArg r) → exec .serviceOperationComplete s =
        .next (s.modMgmt (fun m => { m with mboxBusy := false, mboxStatus := 1 }))) ∧
      ∀ r, m.mboxBusy = true → m.mboxOp = 2 → CouldReplace s m.mboxArg r → (∀ q, q < r → ¬ CouldReplace s m.mboxArg q) →
        ((∃ st ∈ s.stands, st.core = m.mboxArg) → exec .serviceOperationComplete s = .next s) ∧
        ((∀ st ∈ s.stands, st.core ≠ m.mboxArg) → ∃ t, exec .serviceOperationComplete s = .next t ∧ t.stands = s.stands ∧ t.m = s.m ∧
          t.d.mgmt.mboxBusy = false ∧ t.d.mgmt.mboxStatus = 0 ∧
          (m.mboxArg < s.d.cores.length → (t.d.core m.mboxArg).retired = true) ∧ (∀ c, c ≠ m.mboxArg → t.d.core c = s.d.core c) ∧
          ∀ k c, s.d.clusters[k]? = some c → t.d.clusters[k]? = some (if k = m.mboxArg / 12 then
            { c with map := c.map.map (fun x => if x = m.mboxArg then r else if x = r then m.mboxArg else x) } else c))) ∧
    (∀ cause, (dumpBytes s cause).length ≤ 2 ^ 64 → ∃ t, exec (.fatalError cause) s = .next t ∧ t.stands = s.stands ∧
      t.d = (s.modMgmt (fun m => { m with fatal := some cause })).d ∧ t.m = { s.m with hostMem := t.m.hostMem } ∧
      let at_ (k : Nat) : Nat := (s.d.mgmt.dumpbase.toNat + k) % 2 ^ 64
      let put (o v : Nat) : Prop := ∀ k, k < 8 → memByte t.m.hostMem (at_ (o + k)) = BitVec.ofNat 8 (v / 2 ^ (8 * k))
      put 0 cause ∧ (∀ (i x : Nat), i < 511 → s.d.time[i]? = some x → put (8 * (i + 1)) x) ∧
      put 4096 s.d.mgmt.modid ∧ put 4104 s.d.mgmt.hostbase ∧
      ∀ a, (∀ k, k < (dumpBytes s cause).length → a ≠ at_ k) → memByte t.m.hostMem a = memByte s.m.hostMem a) ∧
    (s.d.mgmt.fatal.isSome = true → (nextTurn s).1 ≠ .event .powerUp → (∀ v, (nextTurn s).1 ≠ .event (.firmwareStart v)) →
      (∀ ag a n v, (nextTurn s).1 = .event (.registerWrite ag a n v) → a / 8 * 8 ≠ 0x1F0000000100) →
      (∀ a bs, (nextTurn s).1 ≠ .input (.hostStore a bs)) → (∀ w, (nextTurn s).1 ≠ .input (.power w)) → (∀ l, (nextTurn s).1 ≠ .input (.corrupt l)) →
      step s = .next (nextTurn s).2) ∧
    (∀ part, let ended := ∀ e, (s.d.part part).powerEnd = some e → e ≤ s.d.clkCount
      (ended → exec (.powerWindowEnd part) s = .next (s.modPart part (fun p => { p with powerEnd := none }))) ∧
      (¬ ended → exec (.powerWindowEnd part) s = .next s)) ∧
    ∀ die kind new, let old := s.d.vf.getD die 15
      let n := new % 16
      let exceeds := min s.d.mgmt.pwrceil 2900 < s.d.mgmt.power
      let changes := (kind = 1 ∧ exceeds ∧ n < old) ∨ (kind = 2 ∧ n = 0 ∧ 0 < old) ∨ (kind = 3 ∧ ¬ exceeds ∧ n = 15 ∧ old ≠ 15)
      (¬ changes → exec (.throttleEvent die kind new) s = .next s) ∧
      (changes → ∃ t, exec (.throttleEvent die kind new) s = .next t ∧ t.stands = s.stands ∧ t.d.vf = s.d.vf.set die n ∧
      ∀ p, p < 20 → p < s.d.parts.length →
        let cw := (s.d.part p).traceCw
        let opens := (∃ c, c < 192 ∧ c / 48 = die ∧ partOfCore s c = p) ∧ cw ≠ 0
        (opens → (t.d.part p).powerEnd = some (s.d.clkCount + 2 ^ max 10 cw)) ∧
        (¬ opens → (t.d.part p).powerEnd = (s.d.part p).powerEnd))

end

/-! ## Steps, encodings, reset, the form of memory -/

namespace Sys2Proof

open Machine

/-- The word at an address of the stand's code is `w` for one of its groves or its sequencer, and reading it (its line comes to
its slice, 03 R71) leaves state `t`. -/
def WordAt (s : State) (st : Stand) (slot : Nat) (va : Word) (w : BitVec 32) (t : State) : Prop :=
  fetchWord s (st.mmu true slot) va = (.word w, t)

/-- The state in which a grove acts: it has the turn; a trap would not be taken now while its stand halts and it is in no
handler, or while its core is stopped for a swap. -/
def actingGrove (u : State) (st : Stand) (g : Grove) : State :=
  { u with cur := some ⟨st.uid, g.slot⟩, skidding := trapsLater u st g, skidStop := false }

/-- A grove whose next instruction has started holds a port for one clk per pass, at least one, and its age is 0 again; one
that had to wait first holds none (09 R210, R211). -/
def started (u : State) (st : Stand) (g : Grove) (port : Nat) (r : Host.Outcome State Fault Refusal) :
    Host.Outcome State Fault Refusal :=
  match r with
  | .next t => .next (if notStarted u st g t then t else (t.modCore st.core (fun c => { c with
      ports := c.ports.set port (max 1 (passesOf g))
      portGroves := c.portGroves.set port (some ⟨⟨st.uid, g.slot⟩, g.phase, passesOf g != 0⟩) })).modStand st.uid (fun z =>
        { z with groves := z.groves.map (fun h => if h.slot = g.slot then { h with age := 0 } else h) }))
  | .fault f => .fault f
  | .refused r => .refused r

/-- The bytes of some words, each least significant byte first (00 R7). -/
def wordBytes (ws : List (BitVec 32)) : List Byte :=
  ws.flatMap (fun w => [w.extractLsb' 0 8, w.extractLsb' 8 8, w.extractLsb' 16 8, w.extractLsb' 24 8])

end Sys2Proof

section

open Sys2Proof Sys2Proof.Machine

/-- R210 and R211 of 09, R215 and R221 of 10, R298 of 14: a step is `exec` of the instruction that the words at the program
counter decode to, in the turn that comes next (log entry 3), once its words are read. Around `exec`, the turn is given and taken back (`afterTurn`, which undoes an instruction whose trap is not
taken now), a `pfx` word with its literal runs in one step with the word after it, and an instruction under way is taken up
again. A grove between instructions starts one only when the lowest free port of its core takes it, and then holds the
port, but for an instruction that had to wait first (log entry 114). A device step is `exec` of the step that the turn names; before a
clk ends, it is settled which groves are ready (log entries 114 and 115). -/
def Obligations.StepRunsTheDecodedInstruction : Prop :=
  ∀ (s u : State) (st : Stand) (g : Grove), s.d.mgmt.fatal = none → u.d.mgmt.fatal = none →
    (∀ slot, nextTurn s = (.grove st.uid slot, u) → u.stand? st.uid = some st → st.grove? slot = some g → g.slot = slot →
      (runnable u st g = false → step s = .next u) ∧
      (runnable u st g = true → g.between = false → step s = groveRun u st g) ∧
      (runnable u st g = true → g.between = true →
        (pickGrove u st.core = none → step s = .next u) ∧
        (∀ port p h, pickGrove u st.core = some (port, p, h) → p.uid ≠ st.uid ∨ h.slot ≠ slot → step s = .next u) ∧
        ∀ port, pickGrove u st.core = some (port, st, g) → step s = started u st g port (groveRun u st g))) ∧
    (∀ core port, nextTurn s = (.issue core, u) → pickGrove u core = some (port, st, g) →
      step s = started u st g port (groveRun u st g)) ∧
    (g.pend = none → let a := actingGrove u st g
      (∀ i, g.held = some i → groveRun u st g = afterTurn u st.uid g.slot (exec i a)) ∧
      (g.held = none → (∃ l, l < 1024 ∧ g.live.getLsbD l = true ∧ g.parked.getLsbD l = false) →
        (∀ w i b, WordAt a st g.slot g.pc w b → w.extractLsb' 24 8 ≠ 0x01#8 → decodeGrove w 0 = .ok i →
          groveRun u st g = afterTurn u st.uid g.slot (exec i b)) ∧
        ∀ w lit w2 p i b c d e, WordAt a st g.slot g.pc w b → WordAt b st g.slot (g.pc + 4) lit c → WordAt c st g.slot (g.pc + 8) w2 d →
          w.extractLsb' 24 8 = 0x01#8 → decodeGrove w lit = .ok p → exec p d = .next e → decodeGrove w2 0 = .ok i →
          groveRun u st g = afterTurn u st.uid g.slot (exec i e))) ∧
    (nextTurn s = (.seq st.uid, u) → u.stand? st.uid = some st → seqRuns u st = true →
      ∀ w i b, WordAt u st seqSlot st.seq.mpc w b → decodeMatrix w = .ok i →
        step s = match exec i { b with cur := some ⟨st.uid, seqSlot⟩ } with
          | .next t => .next { t with cur := none }
          | .fault f => .fault f
          | .refused r => .refused r) ∧
    (∀ i, nextTurn s = (.event i, u) → (∀ ns, i ≠ .clkTick ns) → step s = if streamOf i = 2 then exec i u else .next u) ∧
    (∀ ns, nextTurn s = (.event (.clkTick ns), u) → step s = exec (.clkTick ns) (if portsChoose u then u else settleReady u)) ∧
    ∀ i, nextTurn s = (.input i, u) → step s = .next (inputOf i u)

/-- Words that the manual writes out: examples of 10, 11 R241 to R249, 12, 13, 14 R299 and R300, 15 and 17 R371. -/
def Obligations.WordsOfTheManualDecode : Prop :=
  decodeGrove 0x45023839#32 0 = .ok (.lea3 2 56 57) ∧ decodeGrove 0x20020203#32 0 = .ok (.add 2 2 3) ∧
  decodeGrove 0x1100190B#32 0 = .ok (.mode 1 1 1 0 11) ∧ decodeGrove 0x01000000#32 0x0000000D#32 = .ok (.pfx 13) ∧
  decodeGrove 0x04080002#32 0 = .ok (.brd 0 2 2) ∧ decodeGrove 0x5348443D#32 0 = .ok (.fma 0x48 0x44 61) ∧
  decodeGrove 0x99020600#32 0 = .ok (.kpop 2 6) ∧ decodeGrove 0xA10604FF#32 0 = .ok (.st 6 4 0xFF) ∧
  decodeGrove 0xA30204C3#32 0 = .ok (.ldx 2 4 1 2 3) ∧ decodeGrove 0xE8A00007#32 0 = .ok (.tlwait 5 0 0 7) ∧
  decodeGrove 0xD608090A#32 0 = .ok (.cpyx 8 9 10) ∧ decodeGrove 0xF400000C#32 0 = .ok (.samp 12) ∧
  decodeMatrix 0x2040200C#32 = .ok (.mrecLd 1 0 0 1 12) ∧ decodeMatrix 0x2C004000#32 = .ok (.mma 0 0 1) ∧
  decodeMatrix 0x41202000#32 = .ok (.xadd 2 2 0 0x2000) ∧ decodeMatrix 0x0E7FFFFA#32 = .ok (.mloop 4 0x7FFFFA)

/-- R215 to R221 and R228 of 10, R299 and R300 of 14: the bytes of an instruction of either stream decode to it and leave what
follows, and bytes that decode to an instruction are its bytes: no bit is dropped, and no two words are one instruction. -/
def Obligations.EncodeAndDecodeAgree : Prop :=
  ∀ (i : Instr) (rest : List Byte),
    (streamOf i = 0 → i.wellFormed = true → decodeBytes (wordBytes (encode i) ++ rest) = .ok (i, rest)) ∧
    (streamOf i = 1 → i.wellFormed = true → decodeMatrixBytes (wordBytes (encode i) ++ rest) = .ok (i, rest)) ∧
    (∀ bs, decodeBytes bs = .ok (i, rest) → streamOf i = 0 ∧ bs = wordBytes (encode i) ++ rest) ∧
    ∀ bs, decodeMatrixBytes bs = .ok (i, rest) → streamOf i = 1 ∧ bs = wordBytes (encode i) ++ rest

/-- R372 (TIME counts from 0 at power-up), and the Reset columns of R38 to R40, R47 to R49, R192, R355, R376, R381: what a power-up leaves; what those rules give no Reset column for (PTROOT, ASID, SEGEN, FWSTAT) is 0 by log entry 2. No stand,
copy of a line, translation or registration is there, and memory lists nothing (log entry 1 says what it reads). -/
def Obligations.ResetValues : Prop :=
  let d := State.reset.d
  State.reset.stands = [] ∧ State.reset.m.mem = [] ∧ State.reset.m.l1 = [] ∧ State.reset.m.l2 = [] ∧ State.reset.m.tlb = [] ∧
  State.reset.m.firn = [] ∧ d.time = [0, 0, 0, 0] ∧ d.clearings = [] ∧ d.saved = [] ∧ d.cores.length = 192 ∧
  d.clusters.length = 16 ∧ d.parts.length = 20 ∧ d.windows.length = 64 ∧
  (∀ w ∈ d.windows, w.en = false ∧ w.busy = false ∧ w.err = 0 ∧ w.cbase = 0 ∧ w.abase = 0 ∧ w.alen = 0 ∧ w.sbase = 0) ∧
  (∀ c ∈ d.clusters, c.swaps = 0 ∧ c.intv = 21) ∧ (∀ c ∈ d.cores, ∀ r ∈ c.rime, r.en = false ∧ r.count = 0) ∧
  (∀ p ∈ d.parts, p.alive = false ∧ p.halves = 0 ∧ p.ptroot = 0 ∧ p.asid = 0 ∧ p.segen = false ∧ p.tlbi = none ∧
    p.launchst.busy = false ∧ p.launchst.drop = 0 ∧ p.probemis = 0 ∧ p.traceEn = false ∧ p.dbgEn = false) ∧
  d.mgmt.modid = 0 ∧ d.mgmt.hostbase = 0 ∧ d.mgmt.atomics = false ∧ d.mgmt.held = false ∧ d.mgmt.next = none ∧ d.mgmt.owner = 0 ∧
  d.mgmt.lostCnt = 0 ∧ d.mgmt.poisCnt = 0 ∧ d.mgmt.hwdrop = 0 ∧ d.mgmt.linkwr = 0 ∧ d.mgmt.mdrop = 0 ∧ d.mgmt.fwStat = 0 ∧
  d.mgmt.pwrceil = 2900 ∧ MemoryForm State.reset

/-- Every step keeps every byte memory (device memory, host memory, each stand's scratch, resident or saved) and the table of the
host's halves in canonical form, so that memories that read alike are equal (the model's own form: log entry 1). -/
def Obligations.StepKeepsTheFormOfMemory : Prop :=
  ∀ (s t : State), MemoryForm s → step s = .next t → MemoryForm t

end
end

