-- ==== Sys2Proof/Tests/Slice0.lean ====
section
/-! SUPPORT. Tests. Words that the manual writes out, an ill-formed term for each check, and for each obligation states and
operands that meet its hypotheses, clause by clause. Expected words come from the manual's examples; the rule stands in each comment. -/

set_option Elab.async false

namespace Sys2Proof.Tests

open Machine

/-! ## States to test with -/

/-- A grove of 32 lanes with the type `ty` in MODE. -/
def gT (ty : Nat) : Grove := { Grove.start 0 32 56 0x10000 (laneCount 32) [0, 0, 0, 0] 0 0 [] with mode := BitVec.ofNat 13 ty }

/-- The stand of these tests: 1024 B of scratch, one tile, three floes, one bin. -/
def st0 : Stand := { Stand.start 0 0 0 0 0 0 0 0 Shape.single [0, 0, 0, 0] 0 0 0 1024 with
  floes := [⟨2, 0, 1, 0⟩, ⟨0, 0, 0, 0⟩, ⟨1, 1, 1, 2⟩] }

/-- A page of code and data at its own physical address, for every access. -/
def page0 : TlbEntry := ⟨0, 0, 0, 0x10, 0x10000, 4096, 0x10000, 0, false, true, true, true, true, true, true, true⟩

/-- One partition, one clearing, one page. -/
def s0 : State := { (State.reset.modPart 0 (fun p => { p with
    alive := true
    halves := 2 ^ 32 - 1
    lmin := 1
    lmax := 4
    l2ways := 0xFFF })).modD (fun d => { d with clearings := [Clearing.single 0 1] }) with
  nextId := 100
  m := { MemSys.reset with tlb := [page0] } }

/-- The state in which grove `g` of stand `sf` has the turn. -/
def at_ (s : State) (sf : Stand) (g : Grove) : State :=
  { s with stands := [{ sf with groves := [g] }], cur := some ⟨sf.uid, g.slot⟩ }

def withG (sf : Stand) (g : Grove) : Stand := { sf with groves := [g] }

theorem acts_at (s : State) (sf : Stand) (g : Grove) : Acts (at_ s sf g) (withG sf g) g :=
  ⟨rfl, by simp [at_, withG, State.stand?], by simp [withG, Stand.grove?]⟩

/-- The checks of 10 R223, decided. -/
def passesB (i : Instr) (st : Stand) (g : Grove) : Bool :=
  (i.always || g.enabled != 0#1024) && (i.namesImm == g.pfx.isSome) && i.wellFormed && !cvtCountBad g.type i &&
    (match i.types with | some ts => ts.contains g.type | none => true) && !geomBad g i &&
    !(i.operands.any (fun o => opdBoundBad o g.boundary (stTiles st))) && !pendingIn g (touchedRegs st i) &&
    (errorsIn g (readRegs st i)).isEmpty

theorem passes_of {i : Instr} {st : Stand} {g : Grove} (h : passesB i st g = true) : Passes i st g := by
  simp only [passesB, Bool.and_eq_true, Bool.not_eq_true', beq_iff_eq, List.isEmpty_iff] at h
  obtain ⟨⟨⟨⟨⟨⟨⟨⟨a, b⟩, c⟩, d⟩, e⟩, f⟩, k⟩, l⟩, m⟩ := h
  exact ⟨a, b, c, d, e, f, k, l, m⟩

theorem runs_at (s : State) (sf : Stand) (g : Grove) {i : Instr} (h : passesB i (withG sf g) g = true) :
    Runs i (at_ s sf g) (withG sf g) g := ⟨acts_at s sf g, passes_of h⟩

/-- The instructions run in the state `s0` with the stand `st0` and the grove. -/
def RunAll (g : Grove) (is : List Instr) : Prop := ∀ i ∈ is, Runs i (at_ s0 st0 g) (withG st0 g) g

theorem runAll {g : Grove} {is : List Instr} (h : is.all (fun i => passesB i (withG st0 g) g) = true) : RunAll g is :=
  fun _ hi => runs_at s0 st0 g (List.all_eq_true.mp h _ hi)

/-! ## Instructions that write lanes (obligations on lane results) -/

/-- No rime predicate watches the stand of these tests. -/
theorem test_unwatched (g : Grove) : Unwatched (at_ s0 st0 g) (withG st0 g) := by
  show ((s0.d.core 0).rime.any (fun r => r.watches (withG st0 g))) = false
  have h : ((s0.d.core 0).rime.all (fun r => !r.en)) = true := by decide +kernel
  rw [List.any_eq_false]
  intro r hr
  have := List.all_eq_true.mp h r hr
  simp_all [Rime.watches]

/-- Integer instructions (11 R237) with the highest registers of each width, the lane's old value and an inline source. -/
theorem test_runs_integer : RunAll (gT 2) [.add 0x76 0x76 56, .sub 55 57 60, .mul 55 0 1, .mulh 55 0 1, .mad 0xF0 0xE8 0xF0,
    .shl 55 54 53, .shr 55 54 53, .sra 0xB4 0xB0 57, .fshl 55 54 53, .fshr 55 54 53, .andV 55 0 1, .orV 55 0 1, .xorV 55 0 1,
    .andn 55 0 1, .notV 55 0, .popc 55 0, .clz 55 0, .ctz 55 0, .brev 55 0, .bfx 55 0 1, .bfi 55 0 1, .minV 55 0 1, .maxV 55 0 1,
    .absV 55 0, .negV 55 0, .movV 55 0, .sel 55 0 1, .li 55 0x8000, .lih 55 0xFFFF, .cmpEq 7 0 1, .cmpNe 7 0 1, .cmpLt 7 0 1,
    .cmpLe 7 0 1, .cmpGt 7 0 1, .cmpGe 7 0x70 0x70, .pand 7 0 1, .por 0 7 7, .pxor 7 0 1, .pnot 7 0, .add 56 0 1] :=
  runAll (by decide +kernel)

/-- 11 R242 under i64; 12 R270 to R275; 11 R240. -/
theorem test_runs_cross_lane : RunAll (gT 3) [.lea1 55 0 1, .lea2 55 0 1, .lea3 55 56 57, .shfl 55 0 1, .shflUp 55 0 1,
    .shflDn 55 0 1, .shflX 55 0 1, .bcast 55 0 1, .redSum 55 0, .redMin 55 0, .redMax 55 0, .redAnd 55 0, .redOr 55 0,
    .redXor 55 0, .perm 55 0 1, .matchV 55 0, .voteAny 7 0, .voteAll 7 0, .ballot 7 0, .kpop 31 7, .scanAdd 55 0,
    .redmi 0x76 0, .redma 0x76 0] := runAll (by decide +kernel)

/-- 12 R275 under i32 and i8. -/
theorem test_runs_rearrangement : RunAll (gT 2) [.pack 55 0 1, .unpack 0x76 0] ∧ RunAll (gT 14) [.pack 55 0 1] :=
  ⟨runAll (by decide +kernel), runAll (by decide +kernel)⟩

/-- 12 R258 to R269 under f32 and f64. -/
theorem test_runs_float : RunAll (gT 10) [.fadd 55 0 1, .fsub 55 0 1, .fmul 55 0 1, .fma 55 0 1, .fnma 55 0 1, .fmin 55 0 1,
    .fmax 55 0 1, .fabs 55 0, .fneg 55 0, .fcmpEq 7 0 1, .fcmpNe 7 0 1, .fcmpLt 7 0 1, .fcmpLe 7 0 1, .fcmpGt 7 0 1,
    .fcmpGe 7 0 1, .fcmpUn 7 0 1, .fclass 55 0, .fdiv 55 0 1, .fsqrt 55 0, .frcp 55 0, .frsq 55 0, .exp2 55 0, .log2 55 0,
    .sinpi 55 0, .cospi 55 0] ∧ RunAll (gT 11) [.fadd 0xF0 0xF0 0xF0, .fdiv 55 0 1, .fsqrt 55 0, .fmin 55 0 1] :=
  ⟨runAll (by decide +kernel), runAll (by decide +kernel)⟩

/-- A lane's first NaN and its exact operands (06 R133, R136): 1.5 and a signalling NaN with payload 1 in f32. -/
theorem test_float_operands : fpNaN 10 0x7F800001#32 = true ∧ fpSNaN 10 0x7F800001#32 = true ∧ fpNaN 10 0x7F800000#32 = false ∧
    fpValue 10 0x3FC00000#32 = some (3 / 2) ∧ fpValue 10 0x40400000#32 = some 3 ∧ (3 / 2 : Rat) + 3 / 2 = 3 := by
  decide +kernel

/-! ## Witnesses for the hypotheses of the lane obligations -/

theorem witness_LaneInstructionsKeepTheRest : ∃ i w s st g, laneWrites i = some w ∧ Runs i s st g ∧ w.flags = true ∧ Unwatched s st :=
  ⟨.fadd 55 0 1, _, _, _, gT 10, rfl, test_runs_float.1 _ (by simp), rfl, test_unwatched _⟩

/-- The form that discards its result (R237). -/
theorem witness_LaneInstructions_discard : ∃ i w s st g, laneWrites i = some w ∧ Runs i s st g ∧ w.reg = 56 :=
  ⟨.add 56 0 1, _, _, _, gT 2, rfl, test_runs_integer _ (by simp), rfl⟩

theorem witness_IntegerResultsElementByElement : ∃ i s st g d a b f,
    intFunction i (typeBits g.type) (typeSigned g.type) = some (d, a, b, f) ∧ Runs i s st g ∧ opNum d < 56 :=
  ⟨.sub 55 57 60, _, _, gT 2, 55, 57, 60, _, rfl, test_runs_integer _ (by simp), by decide⟩

theorem witness_SelectImmediateAndAddressResults : ∃ s s' st st' g g', Runs (.sel 55 0 1) s st g ∧ Runs (.li 55 0x8000) s st g ∧
    Runs (.lih 55 0xFFFF) s st g ∧ Runs (.lea1 55 0 1) s' st' g' ∧ Runs (.lea2 55 0 1) s' st' g' ∧ Runs (.lea3 55 56 57) s' st' g' :=
  ⟨_, _, _, _, gT 2, gT 3, test_runs_integer _ (by simp), test_runs_integer _ (by simp), test_runs_integer _ (by simp),
    test_runs_cross_lane _ (by simp), test_runs_cross_lane _ (by simp), test_runs_cross_lane _ (by simp)⟩

theorem witness_CompareAndPredicateResults : ∃ i s st g d a b ne rel,
    compareRelation i (typeBits g.type) (typeSigned g.type) = some (d, a, b, ne, rel) ∧ Runs i s st g ∧ Runs (.pand 7 0 1) s st g ∧
      Runs (.por 0 7 7) s st g ∧ Runs (.pxor 7 0 1) s st g ∧ Runs (.pnot 7 0) s st g :=
  ⟨.cmpGe 7 0x70 0x70, _, _, gT 2, 7, 0x70, 0x70, _, _, rfl, test_runs_integer _ (by simp), test_runs_integer _ (by simp),
    test_runs_integer _ (by simp), test_runs_integer _ (by simp), test_runs_integer _ (by simp)⟩

theorem witness_VoteAndMaskResults : ∃ s st g, Runs (.kpop 31 7) s st g ∧ Runs (.ballot 7 0) s st g ∧ Runs (.voteAny 7 0) s st g ∧
    Runs (.voteAll 7 0) s st g ∧ Runs (.matchV 55 0) s st g :=
  ⟨_, _, gT 3, test_runs_cross_lane _ (by simp), test_runs_cross_lane _ (by simp), test_runs_cross_lane _ (by simp),
    test_runs_cross_lane _ (by simp), test_runs_cross_lane _ (by simp)⟩

theorem witness_ShuffleResults : ∃ i s st g d a b own idx, shuffleIndex i = some (d, a, b, own, idx) ∧ Runs i s st g ∧ opNum d < 56 :=
  ⟨.shflUp 55 0 1, _, _, gT 3, 55, 0, 1, _, _, rfl, test_runs_cross_lane _ (by simp), by decide⟩

theorem witness_ReductionResults : ∃ s st g, Unwatched s st ∧ g.type < 8 ∧ Runs (.redAnd 55 0) s st g ∧ Runs (.redOr 55 0) s st g ∧
    Runs (.redXor 55 0) s st g ∧ Runs (.redSum 55 0) s st g ∧ Runs (.redMin 55 0) s st g ∧ Runs (.redMax 55 0) s st g :=
  ⟨_, _, gT 3, test_unwatched _, by decide, test_runs_cross_lane _ (by simp), test_runs_cross_lane _ (by simp),
    test_runs_cross_lane _ (by simp), test_runs_cross_lane _ (by simp), test_runs_cross_lane _ (by simp), test_runs_cross_lane _ (by simp)⟩

theorem witness_RearrangementResults : (∃ s st g, Runs (.perm 55 0 1) s st g) ∧
    ∃ s st g, Runs (.pack 55 0 1) s st g ∧ Runs (.unpack 0x76 0) s st g :=
  ⟨⟨_, _, gT 3, test_runs_cross_lane _ (by simp)⟩, _, _, gT 2, test_runs_rearrangement.1 _ (by simp), test_runs_rearrangement.1 _ (by simp)⟩

theorem witness_FloatSignClassAndMinMaxResults : ∃ s st g, Unwatched s st ∧ Runs (.fabs 55 0) s st g ∧ Runs (.fneg 55 0) s st g ∧
    Runs (.fclass 55 0) s st g ∧ Runs (.fmin 55 0 1) s st g ∧ Runs (.fmax 55 0 1) s st g :=
  ⟨_, _, gT 10, test_unwatched _, test_runs_float.1 _ (by simp), test_runs_float.1 _ (by simp), test_runs_float.1 _ (by simp),
    test_runs_float.1 _ (by simp), test_runs_float.1 _ (by simp)⟩

theorem witness_FloatCompareResults : ∃ i s st g d a b every anyNaN rel,
    floatCompare i g.type = some (d, a, b, every, anyNaN, rel) ∧ Runs i s st g ∧ Unwatched s st :=
  ⟨.fcmpLt 7 0 1, _, _, gT 10, 7, 0, 1, _, _, _, rfl, test_runs_float.1 _ (by simp), test_unwatched _⟩

/-- Lane 0 of a grove in f32 with 1.5 in both elements of v0 and a signalling NaN in those of v1. -/
def gF : Grove := { gT 10 with lanes := (gT 10).lanes.map (fun l =>
  { l with v := (l.v.setIfInBounds 0 0x3FC000003FC00000).setIfInBounds 1 0x7F8000017F800001 }) }

theorem witness_FirstNaNIsDelivered : ∃ i s st g d ops l j x, nanOrder i = some (d, ops) ∧ Runs i s st g ∧ Unwatched s st ∧
    opNum d < 56 ∧ l < g.lam ∧ g.enabled.getLsbD l = true ∧ j < opW d * typeCount g.type ∧
    (ops.map (fun o => elt g.type (srcRegs g o g.type (opW d) l) j)).find? (fpNaN g.type) = some x :=
  ⟨.fma 55 0 1, _, _, gF, 55, _, 31, 1, 0x7F800001#32, rfl, runs_at s0 st0 gF (by decide +kernel), test_unwatched _,
    by decide, by decide +kernel, by decide +kernel, by decide +kernel, by decide +kernel⟩

theorem witness_RepresentableResultsAreExact : ∃ i s st g d a b f l j x y z, exactResult i = some (d, a, b, f) ∧ Runs i s st g ∧
    Unwatched s st ∧ opNum d < 56 ∧ l < g.lam ∧ g.enabled.getLsbD l = true ∧ j < opW d * typeCount g.type ∧
    fpValue g.type (elt g.type (srcRegs g a g.type (opW d) l) j) = some x ∧
    fpValue g.type (elt g.type (srcRegs g b g.type (opW d) l) j) = some y ∧ fpValue g.type z = some (f x y) ∧ f x y ≠ 0 :=
  ⟨.fadd 55 0 0, _, _, gF, 55, 0, 0, _, 31, 1, 3 / 2, 3 / 2, 0x40400000#32, rfl, runs_at s0 st0 gF (by decide +kernel), test_unwatched _,
    by decide, by decide +kernel, by decide +kernel, by decide +kernel, by decide +kernel, by decide +kernel, by decide +kernel,
    by decide +kernel⟩

/-! ## Scalars, control registers, branches -/

/-- A grove with a literal behind it (10 R221). -/
def gP : Grove := { gT 3 with pfx := some 0xFFFFFFFF }

theorem test_runs_scalar : RunAll gP [.sadd 31 31 58, .ssub 31 58 56, .smul 0 58 58, .sshl 0 0 58, .sshr 0 0 58, .ssra 0 58 0,
    .sand 31 0 58, .sor 31 0 58, .sxor 31 0 58, .smov 31 58] ∧ RunAll (gT 15) [.smov 0 31, .sadd 0 56 56] :=
  ⟨runAll (by decide +kernel), runAll (by decide +kernel)⟩

theorem witness_ScalarResults : ∃ i s st g d a b f, scalarFunction i = some (d, a, b, f) ∧ Runs i s st g :=
  ⟨.ssra 0 58 0, _, _, gP, 0, 58, 0, _, rfl, test_runs_scalar.1 _ (by simp)⟩

/-- A grove with all lanes inactive but one that the guard turns off: what acts whatever the mask acts. -/
def gOff : Grove := { gT 7 with active := 1, mode := 0x1007 }

theorem test_runs_state : RunAll gOff [.nop, .pfx 0xFFFFFFFF, .phase 15, .mode 1 1 7 4 14, .csrr 31 0x40, .csrr 0 0, .csrw 56 0,
    .csrw 31 1, .csrw 31 0x31, .csrw 31 0x20, .bound 56, .bound 1, .bra 0xFFFF, .brcAny 1 7 0x8000, .brcAll 0 0 1, .brcNone 0 7 1,
    .call 0x800000, .ret, .jmpi 31, .trap 0xFFFFFF, .brk 0, .eret, .eretReplay, .yield] := runAll (by decide +kernel)

theorem witness_GroveStateResults : ∃ s st g, Runs .nop s st g ∧ Runs (.pfx 0xFFFFFFFF) s st g ∧ Runs (.phase 15) s st g ∧
    Runs (.mode 1 1 7 4 14) s st g ∧ Runs (.csrr 31 0x40) s st g ∧ Runs (.csrw 56 0) s st g ∧ Runs (.csrw 31 1) s st g ∧ Runs (.csrw 31 0x31) s st g :=
  ⟨_, _, gOff, test_runs_state _ (by simp), test_runs_state _ (by simp), test_runs_state _ (by simp), test_runs_state _ (by simp),
    test_runs_state _ (by simp), test_runs_state _ (by simp), test_runs_state _ (by simp), test_runs_state _ (by simp)⟩

/-- The ways asked for by s31 in L1WAYS (03 R61): field 5–3. -/
def gW (m : Nat) : Grove := { gT 7 with s := (gT 7).s.setIfInBounds 31 (BitVec.ofNat 64 (8 * m)) }

/-- Each clause of `WayChangeResults`: 5 ways with LMAX 4; a conversion under way; scratch that stands in the ways asked
for; the ways in force; a conversion. -/
theorem witness_WayChangeResults (m : Nat) (h : m ∈ [0, 1, 4, 5]) :
    Runs (.csrw 31 0x20) (at_ s0 st0 (gW m)) (withG st0 (gW m)) (gW m) ∧ (scalarSource (gW m) 31).toNat / 8 % 8 = m ∧
      (s0.d.part 0).lmin = 1 ∧ (s0.d.part 0).lmax = 4 ∧ (s0.d.core 0).l1cur = 1 ∧ (s0.d.core 0).conv = none := by
  fin_cases h <;> exact ⟨runs_at s0 st0 _ (by decide +kernel), by decide +kernel⟩

theorem witness_WayChangeResults_scratch : (at_ s0 { st0 with scratchBase := 12 * 262144 } (gW 4)).stands.any (fun t => t.core == 0 &&
    t.scratchSize != 0 && decide ((16 - 4) * 262144 < t.scratchBase + t.scratchSize)) = true := by decide +kernel

theorem witness_BoundResults : ∃ s st g, Runs (.bound 56) s st g ∧ pendingIn g [(56, 0)] = false ∧ st.shape.regs = 56 ∧
    Runs (.bound 57) (at_ s0 st0 gOff) (withG st0 gOff) gOff :=
  ⟨_, _, gOff, test_runs_state _ (by simp), rfl, rfl, runs_at s0 st0 gOff (by decide +kernel)⟩

theorem witness_BranchResults : ∃ s st g, Runs (.bra 0xFFFF) s st g ∧ Runs (.brcAny 1 7 0x8000) s st g ∧ Runs (.brcAll 0 0 1) s st g ∧
    Runs (.brcNone 0 7 1) s st g ∧ Runs (.call 0x800000) s st g ∧ Runs .ret s st g ∧ Runs (.jmpi 31) s st g :=
  ⟨_, _, gOff, test_runs_state _ (by simp), test_runs_state _ (by simp), test_runs_state _ (by simp), test_runs_state _ (by simp),
    test_runs_state _ (by simp), test_runs_state _ (by simp), test_runs_state _ (by simp)⟩

/-! ## Divergence, ends, traps -/

/-- Code at 0x10008: `join` with offset 3; p0 of lane 0 alone is set in `gD`, so that the lanes split on it. -/
def sJ : State := s0.modM (fun m => { m with mem := [(0x10008, 3), (0x1000B, 5)] })

/-- The tokens of a fetch, and the state in which its line has come to its slice. -/
def tokensFor (s : State) (pa part : Nat) : Bool × State :=
  prepay s (homeSlice s (pa / 128)) (pa / 128) part 0 (missTokens s (pa / 128) part + holders s (pa / 128) (maskRange (pa % 128) 4))

def lineCome (s : State) (pa part : Nat) : State := l2Access (tokensFor s pa part).2 (pa / 128) part 0 true

theorem fetch_plain {s : State} {u : Mmu} {va : Word} {q : Seg} {r : List Seg} {w : BitVec 32}
    (h : translateRun s u va.toNat 4 accFetch .fetch = .ok (q :: r)) (hr : isRemote q.pa = false) (hk : q.kind ≠ 2)
    (hl : lineReady s (q.pa / 128) u.part (maskRange (q.pa % 128) 4) = true) (hp : (tokensFor s q.pa u.part).1 = true)
    (hw : BitVec.ofNat 32 (curNat (lineCome s q.pa u.part) q.pa 4) = w) : fetchWord s u va = (.word w, lineCome s q.pa u.part) := by
  have hp' : (prepay s (homeSlice s (q.pa / 128)) (q.pa / 128) u.part 0
    (missTokens s (q.pa / 128) u.part + holders s (q.pa / 128) (maskRange (q.pa % 128) 4))).1 = true := hp
  simp only [fetchWord, h, hr, hk, hl, hp', if_true, if_false, Bool.false_eq_true]
  exact congrArg (fun x => (Fetched.word x, _)) hw

def gD : Grove := { gT 7 with lanes := (gT 7).lanes.mapIdx (fun l x => if l = 0 then { x with p := 1 } else x) }

theorem witness_DivergentBranchResults : ∃ s t st g wj, Runs (.brd 0 0 2) s st g ∧
    fetchWord s (st.mmu true g.slot) (g.pc + 4 * (2 : BitVec 16).signExtend 64) = (.word wj, t) ∧ wj.extractLsb' 24 8 = 5#8 ∧
    (lanesOf g g.enabled).any (testedLane g 0 0) = true ∧ (lanesOf g g.enabled).any (fun l => !testedLane g 0 0 l) = true ∧
    g.div.length < 16 ∧ g.redo = none :=
  ⟨at_ sJ st0 gD, _, withG st0 gD, gD, 0x05000003#32, runs_at sJ st0 gD (by decide +kernel),
    fetch_plain (q := ⟨0x10008, 4, 0⟩) (r := []) (by decide +kernel) (by decide +kernel) (by decide) (by decide +kernel)
      (by decide +kernel) (by decide +kernel),
    by decide, by decide +kernel, by decide +kernel, by decide, rfl⟩

/-- No split, a word that is no `join`, and a full stack. -/
theorem witness_DivergentBranchResults_other : ∃ g t, Runs (.brd 0 1 2) (at_ sJ st0 g) (withG st0 g) g ∧ g.div.length = 16 ∧
    (lanesOf g g.enabled).any (testedLane g 0 1) = false ∧
    fetchWord (at_ sJ st0 g) ((withG st0 g).mmu true g.slot) (g.pc + 4 * (1 : BitVec 16).signExtend 64) = (.word 0#32, t) := by
  refine ⟨{ gD with div := List.replicate 16 ⟨0x10008, 0, 0, 0, true, 0⟩ }, _, runs_at sJ st0 _ ?_, ?_, ?_,
    fetch_plain (q := ⟨0x10004, 4, 0⟩) (r := []) ?_ ?_ ?_ ?_ ?_ ?_⟩ <;> decide +kernel

/-- A grove at the join of its top entry, whose path lane 31 takes. -/
def gN (run : Bool) : Grove := { gT 7 with div := [⟨0x10000, 0xFFFFFFFF, 0x80000000, 0x10100, run, 0⟩] }

theorem witness_JoinResults : (∃ s st g i, Runs (.join i) s st g ∧ g.redo = none ∧ g.parked = 0#1024 ∧ g.div = []) ∧
    (∃ s st g i e, Runs (.join i) s st g ∧ g.redo = none ∧ g.parked = 0#1024 ∧ g.div = [e] ∧ e.join = g.pc ∧ e.deferRun = false ∧
      e.defer &&& g.live ≠ 0#1024) ∧
    ∃ s st g i e, Runs (.join i) s st g ∧ g.redo = none ∧ g.parked = 0#1024 ∧ g.div = [e] ∧ e.join = g.pc ∧ e.deferRun = true ∧
      e.rest &&& g.live ≠ 0#1024 :=
  ⟨⟨_, _, gT 7, 0xFFFFFF, runs_at s0 st0 _ (by decide +kernel), rfl, rfl, rfl⟩,
    ⟨_, _, gN false, 3, _, runs_at s0 st0 _ (by decide +kernel), rfl, rfl, rfl, by decide +kernel, rfl, by decide +kernel⟩,
    _, _, gN true, 3, _, runs_at s0 st0 _ (by decide +kernel), rfl, rfl, rfl, by decide +kernel, rfl, by decide +kernel⟩

/-- Lanes 0 to 15 active of 32 live; then the last live lanes. -/
theorem witness_ExitAndYieldResults : (∃ s st g, Runs .exitG s st g ∧ unowed g g.enabled ∧ g.redo = none ∧
      g.active &&& ~~~g.enabled ≠ 0#1024 ∧ g.live &&& ~~~g.enabled ≠ 0#1024) ∧
    (∃ s st g e rest, Runs .exitG s st g ∧ unowed g g.enabled ∧ g.redo = none ∧ g.active &&& ~~~g.enabled = 0#1024 ∧
      g.parked = 0#1024 ∧ (withoutLanes g g.enabled).div = e :: rest ∧ e.deferRun = false ∧ e.defer &&& g.live ≠ 0#1024) ∧
    (∃ s st g, Runs .exitG s st g ∧ unowed g g.enabled ∧ g.redo = none ∧ g.live &&& ~~~g.enabled = 0#1024) ∧
    ∃ s st g, Runs .yield s st g := by
  refine ⟨⟨_, _, { gD with mode := 0x1007 }, runs_at s0 st0 _ ?_, ⟨by simp [gD, gT, Grove.start], by simp [gD, gT, Grove.start]⟩, rfl, ?_, ?_⟩,
    ⟨_, _, { gN false with active := 0xFFFF }, _, _, runs_at s0 st0 _ ?_, ⟨by simp [gN, gT, Grove.start], by simp [gN, gT, Grove.start]⟩, rfl,
      ?_, rfl, rfl, rfl, ?_⟩,
    ⟨_, _, gT 7, runs_at s0 st0 _ ?_, ⟨by simp [gT, Grove.start], by simp [gT, Grove.start]⟩, rfl, ?_⟩,
    _, _, gOff, test_runs_state _ (by simp)⟩ <;> decide +kernel

theorem witness_BreakResults : ∃ s st g, Runs (.trap 0xFFFFFF) s st g ∧ Runs (.brk 0) s st g ∧ g.redo = none ∧ (s.d.part st.part).brkHalt = false :=
  ⟨_, _, gOff, test_runs_state _ (by simp), test_runs_state _ (by simp), rfl, by decide +kernel⟩

theorem witness_BreakResults_halt : ∃ s st g, Runs (.brk 0) s st g ∧ g.redo = none ∧ (s.d.part st.part).brkHalt = true ∧
    (s.d.part st.part).dbgcl ≠ st.clnum ∧ (s.d.part st.part).dbgcl ≠ 0xFFFF :=
  ⟨_, _, gOff, runs_at (s0.modPart 0 (fun p => { p with brkHalt := true, dbgcl := 1 })) st0 _ (by decide +kernel),
    rfl, by decide +kernel, by decide +kernel, by decide +kernel⟩

/-- The stand's other groves: one that runs, one in a wait of its own access, one in a wait for memory; the stand may hold a trap. -/
theorem witness_BreakResults_others (k : Nat) (h : k ∈ [0, 3]) :
    let o (n : Nat) (w : Wait) : Grove := { gT 7 with slot := n, wait := w }
    let st := { st0 with groves := [gOff, o 1 .none, o 2 .data, o 3 .memory], halt := some ⟨1, k⟩ }
    st.holdsTrap = decide (k = 0) ∧ (∀ n, n ∈ [1, 2, 3] → n ≠ gOff.slot ∧ (st.grove? n).isSome = true) ∧
      (o 1 .none).wait = .none ∧ (o 2 .data).wait.own = true ∧ ((o 3 .memory).wait ≠ .none ∧ !(o 3 .memory).wait.own) := by
  simp only [List.mem_cons, List.not_mem_nil, or_false] at h
  rcases h with rfl | rfl <;> decide +kernel

/-- A grove whose s30 names a handler. -/
def gH (h : Word) : Grove := { gT 7 with s := (gT 7).s.setIfInBounds 30 h }

/-- In no halt, or in a debugger's. -/
theorem witness_TrapEntryEffect (o : Option Halt) (ho : o ∈ [none, some ⟨5, 3⟩]) : ∃ s st g, Acts s st g ∧ s.skidding = false ∧
    st.dying = false ∧ g.single = none ∧
    (let h := vget g.s 30 0; h ≠ 0 ∧ h.toNat % 4 = 0 ∧ (h.toNat / 2 ^ 56 = 0 ∨ h.toNat / 2 ^ 56 = 255)) ∧ st.halt = o ∧
    ∀ x, st.halt = some x → x.kind = 3 := by
  refine ⟨_, _, gH 0xFFFFFFFFFFFFFFFC, acts_at s0 { st0 with halt := o } _, rfl, rfl, rfl, by decide +kernel, rfl, ?_⟩
  intro x hx
  have hx : o = some x := hx
  subst hx
  simp only [List.mem_cons, List.not_mem_nil, or_false, reduceCtorEq, false_or, Option.some.injEq] at ho
  subst ho; rfl

/-- No handler, one at an odd address, one that is not canonical, and a trap not yet ended. -/
theorem witness_TrapWithoutHandlerAborts (h : Word) (_ : h ∈ [0, 0x10002, 0x0100000000000000#64]) :
    Acts (at_ s0 st0 (gH h)) (withG st0 (gH h)) (gH h) ∧ st0.dying = false ∧
      (vget (gH h).s 30 0 = 0 ∨ (vget (gH h).s 30 0).toNat % 4 ≠ 0 ∨
        ((vget (gH h).s 30 0).toNat / 2 ^ 56 ≠ 0 ∧ (vget (gH h).s 30 0).toNat / 2 ^ 56 ≠ 255)) := by
  refine ⟨acts_at s0 st0 _, rfl, ?_⟩
  simp only [List.mem_cons, List.not_mem_nil, or_false] at *
  rename_i hh
  rcases hh with rfl | rfl | rfl <;> decide +kernel

theorem witness_TrapWithoutHandlerAborts_nested : ∃ s st g, Acts s st g ∧ s.skidding = false ∧ st.dying = false ∧ g.single = none ∧
    ∃ x, st.halt = some x ∧ x.kind ≠ 3 :=
  ⟨_, _, gH 0x10000, acts_at s0 { st0 with halt := some ⟨0, 0⟩ } _, rfl, rfl, rfl, _, rfl, by decide⟩

/-- A grove in a handler of a trap at 0x10008, with the stack as at entry, or another; k6 and k7 hold lanes 0 to 15. -/
def gR (shape : List Nat) : Grove :=
  { ((gT 7).setK 6 0xFFFF).setK 7 0xFFFF with trap := { TrapRegs.zero with hnd := true, faultPc := 0x10008 }, divShape := shape }

theorem witness_ReturnsFromTraps : (∃ s st g, Runs .eret s st g ∧ Runs .eretReplay s st g ∧ g.kept = none ∧ g.redo = none ∧ g.trap.hnd = false) ∧
    (∃ s u st g w, Runs .eret s st g ∧ Runs .eretReplay s st g ∧ g.kept = none ∧ g.redo = none ∧ g.trap.hnd = true ∧
      g.divShape = g.basePasses :: g.div.map (·.passes) ∧ vget g.k 6 0 &&& g.live &&& ~~~g.parked ≠ 0#1024 ∧
      fetchWord s (st.mmu true g.slot) g.trap.faultPc = (.word w, u) ∧ u.stands = s.stands ∧ w.extractLsb' 24 8 ≠ 1#8) ∧
    ∃ s st g, Runs .eret s st g ∧ g.kept = none ∧ g.redo = none ∧ g.trap.hnd = true ∧ g.divShape ≠ g.basePasses :: g.div.map (·.passes) := by
  refine ⟨⟨_, _, gOff, test_runs_state _ (by simp), test_runs_state _ (by simp), rfl, rfl, rfl⟩,
    ⟨_, _, _, gR [0], 0x05000003#32, runs_at sJ st0 _ ?_, runs_at sJ st0 _ ?_, rfl, rfl, rfl, rfl, ?_,
      fetch_plain (q := ⟨0x10008, 4, 0⟩) (r := []) ?_ ?_ ?_ ?_ ?_ ?_, ?_, ?_⟩,
    _, _, gR [1], runs_at s0 st0 _ ?_, rfl, rfl, rfl, ?_⟩ <;> decide +kernel

/-- Every lane of the interrupted path has ended in the handler, and the deferred path takes lane 31 (11 R249). -/
theorem witness_ReturnsFromTraps_ended : ∃ s st g e, Runs .eret s st g ∧ g.kept = none ∧ g.redo = none ∧ g.trap.hnd = true ∧
    g.divShape = g.basePasses :: g.div.map (·.passes) ∧ vget g.k 6 0 &&& g.live &&& ~~~g.parked = 0#1024 ∧ g.parked = 0#1024 ∧
    g.div = [e] ∧ e.deferRun = false ∧ e.defer &&& g.live ≠ 0#1024 :=
  ⟨_, _, { gN false with
      trap := { TrapRegs.zero with hnd := true, faultPc := 0x10008 }
      divShape := [0, 0] }, _, runs_at s0 st0 _ (by decide +kernel), rfl, rfl, rfl, rfl, by decide +kernel, rfl, rfl, rfl, by decide +kernel⟩

/-! ## Memory instructions -/

def plainB (s : State) (st : Stand) (slot acc va n pa : Nat) : Bool :=
  decide (va % 4096 + n ≤ 4096) && decide (lookup s (st.mmu true slot) va acc = .ok pa 0) &&
    (List.range n).all (fun k => decide (pa + k < 0x00B2D05E0000) && !inCoded s (pa + k) && decide (windowAt s (pa + k) = none) &&
      !inSaveArea s (pa + k))

theorem plain_of {s : State} {st : Stand} {slot acc va n pa : Nat} (h : plainB s st slot acc va n pa = true) :
    Plain s st slot acc va n pa := by
  simp only [plainB, Bool.and_eq_true, decide_eq_true_eq, List.all_eq_true, List.mem_range, Bool.not_eq_true'] at h
  exact ⟨h.1.1, h.1.2, fun k hk => ⟨(h.2 k hk).1.1.1, (h.2 k hk).1.1.2, (h.2 k hk).1.2, (h.2 k hk).2⟩⟩

def holdsB (s : State) (core a : Nat) (own : Bool) : Bool :=
  match l1Find s core (a / 128) with
  | some x => (x.own.getLsbD (a % 128) || (!own && x.valid.getLsbD (a % 128))) &&
      !(x.poison &&& ~~~x.pendMask).getLsbD (a % 128) && !(x.lost &&& ~~~x.clean).getLsbD (a % 128)
  | none => false

theorem holds_of {s : State} {core a : Nat} {own : Bool} (h : holdsB s core a own = true) : L1Holds s core a own := by
  unfold holdsB at h
  split at h
  · rename_i x hx
    simp only [Bool.and_eq_true, Bool.not_eq_true'] at h
    exact ⟨x, hx, h.1.1, h.1.2, h.2⟩
  · simp at h

theorem mem_lanes {g : Grove} {m : LaneMask} {l : Nat} (h : l < g.lam) (he : m.getLsbD l = true) : l ∈ lanesOf g m :=
  List.mem_filter.mpr ⟨List.mem_range.mpr h, he⟩

/-- A fact of every enabled lane, decided. -/
theorem lanes_all {g : Grove} {p : Nat → Bool} (h : (lanesOf g g.enabled).all p = true) {l : Nat} (hl : l < g.lam)
    (he : g.enabled.getLsbD l = true) : p l = true := List.all_eq_true.mp h l (mem_lanes hl he)

/-- Core 0 holds line 512, its low half registered and the high half a read copy. -/
def sL : State := s0.modM (fun m => { m with
  l1 := [⟨0, 512, 0, 0x0102030405060708, 0xFFFFFFFFFFFFFFFF, 0xFFFFFFFFFFFFFFFF0000000000000000, 0, 0, [], 0, []⟩] })

/-- Lanes 0 and 31 active; v4 of lane 0 names the first bytes of line 512, v4 of lane 31 its last ones (or `odd` more), v5
the length 8. -/
def gM (ty odd : Nat) : Grove := { gT ty with
  active := 0x80000001
  lanes := (gT ty).lanes.mapIdx (fun l x =>
    { x with v := (x.v.setIfInBounds 4 (if l = 31 then BitVec.ofNat 64 (0x10078 + odd) else 0x10000)).setIfInBounds 5 8 }) }

theorem test_runs_memory : RunAll (gM 7 0) [.ld 55 4 0, .ldu 55 4 0, .ldaGrove 55 4 0, .ldaStand 55 4 0, .ldaCluster 55 4 0,
    .ldaDie 55 4 0, .ldaPartition 55 4 0, .ldaDevice 55 4 0, .ldaSystem 55 4 0, .ldcGrove 55 4 0, .ldcStand 55 4 0,
    .ldcCluster 55 4 0, .ldcDie 55 4 0, .ldcPartition 55 4 0, .ldcDevice 55 4 0, .ldcSystem 55 4 0, .st 55 4 0, .stm 55 4 5,
    .stlGrove 55 4 0, .stlStand 55 4 0, .stlCluster 55 4 0, .stlDie 55 4 0, .stlPartition 55 4 0, .stlDevice 55 4 0,
    .stlSystem 55 4 0, .fence 0, .fence 6, .invRange 4 5, .wbRange 4 5, .atomAdd 55 4 5, .atomMin 55 4 5, .atomMax 55 4 5,
    .atomAnd 55 4 5, .atomOr 55 4 5, .atomXor 55 4 5, .atomXchg 55 4 5, .atomCas 55 4 0x46, .ldx 55 4 0 0 15, .ldx 6 4 1 3 0,
    .waita 0 15 0, .waita 1 0 31] := runAll (by decide +kernel)

theorem witness_LoadsPutMemoryIntoRegisters : ∃ i s st g d b o n scope tn, ∃ pa : Nat → Nat, loadForm i = some (d, b, o, n, scope, tn) ∧ Runs i s st g ∧
    g.prog = Prog.none ∧ Unwatched s st ∧ (∀ l, l < g.lam → g.enabled.getLsbD l = true → globalAddr g b o l % n = 0 →
      Plain s st g.slot 0 (globalAddr g b o l) (8 * opW d) (pa l) ∧ ∀ k, k < 8 * opW d → homeOpOut s st.core ((pa l + k) / 128) = false ∧
        L1Holds s st.core (pa l + k) ((lanesOf g g.enabled).any (baseTaint g b))) ∧
    (lanesOf g g.enabled).filter (fun l => globalAddr g b o l % n ≠ 0) = [] := by
  refine ⟨.ldaSystem 55 4 0, at_ sL st0 (gM 7 0), _, gM 7 0, 55, 4, 0, _, _, _, globalAddr (gM 7 0) 4 0, rfl, runs_at sL st0 _ ?_, rfl,
    test_unwatched _, fun l hl he _ => ?_, ?_⟩
  · decide +kernel
  · have h := lanes_all (p := fun l => plainB (at_ sL st0 (gM 7 0)) (withG st0 (gM 7 0)) 0 0 (globalAddr (gM 7 0) 4 0 l) 8 (globalAddr (gM 7 0) 4 0 l) &&
      (List.range 8).all (fun k => !homeOpOut (at_ sL st0 (gM 7 0)) 0 ((globalAddr (gM 7 0) 4 0 l + k) / 128) &&
        holdsB (at_ sL st0 (gM 7 0)) 0 (globalAddr (gM 7 0) 4 0 l + k) ((lanesOf (gM 7 0) (gM 7 0).enabled).any (baseTaint (gM 7 0) 4))))
      (by decide +kernel) hl he
    simp only [Bool.and_eq_true, List.all_eq_true, List.mem_range, Bool.not_eq_true'] at h
    exact ⟨plain_of h.1, fun k hk => ⟨(h.2 k hk).1, holds_of (h.2 k hk).2⟩⟩
  · decide +kernel

/-- A lane at an address that is no multiple of 8 (13 R276). -/
theorem witness_LoadsPutMemoryIntoRegisters_wrong : (lanesOf (gM 7 1) (gM 7 1).enabled).filter (fun l => globalAddr (gM 7 1) 4 0 l % 8 ≠ 0) =
    [31] ∧ passesB (.ld 55 4 0) (withG st0 (gM 7 1)) (gM 7 1) = true := by decide +kernel

theorem witness_StoresPutRegistersIntoL1 : ∃ i s st g d b o mask scope, ∃ pa : Nat → Nat, storeForm i = some (d, b, o, mask, scope) ∧ Runs i s st g ∧
    g.prog = Prog.none ∧ Unwatched s st ∧ isStl i = true ∧ ReleaseReady s st g scope ∧ (scope = 6 → (s.d.part st.part).scopeOn = false) ∧
    (∀ l, l < g.lam → g.enabled.getLsbD l = true → (mask = none → globalAddr g b o l % 8 = 0) ∧
      Plain s st g.slot 1 (globalAddr g b o l) (8 * opW d) (pa l) ∧ ∀ k, k < 8 * opW d → (l1Find s st.core ((pa l + k) / 128)).isSome) ∧
    ∀ l k l' k', l < g.lam → g.enabled.getLsbD l = true → k < 8 * opW d → l' < g.lam → g.enabled.getLsbD l' = true → k' < 8 * opW d →
      pa l + k = pa l' + k' → l = l' := by
  have hl : ∀ l, l < 32 → (gM 7 0).enabled.getLsbD l = true → globalAddr (gM 7 0) 4 0 l = 0x10000 + 120 * (l / 31) ∧ (l = 0 ∨ l = 31) := by
    decide +kernel
  refine ⟨.stlSystem 55 4 0, at_ sL st0 (gM 7 0), _, gM 7 0, 55, 4, 0, _, _, globalAddr (gM 7 0) 4 0, rfl, runs_at sL st0 _ ?_, rfl,
    test_unwatched _, rfl, ⟨.inr rfl, rfl, rfl, ?_⟩, ?_, fun l hl he => ?_, ?_⟩
  · decide +kernel
  · intro _; decide +kernel
  · intro _; decide +kernel
  · have h := lanes_all (p := fun l => decide (globalAddr (gM 7 0) 4 0 l % 8 = 0) &&
      plainB (at_ sL st0 (gM 7 0)) (withG st0 (gM 7 0)) 0 1 (globalAddr (gM 7 0) 4 0 l) 8 (globalAddr (gM 7 0) 4 0 l) &&
      (List.range 8).all (fun k => (l1Find (at_ sL st0 (gM 7 0)) 0 ((globalAddr (gM 7 0) 4 0 l + k) / 128)).isSome)) (by decide +kernel) hl he
    simp only [Bool.and_eq_true, List.all_eq_true, List.mem_range, decide_eq_true_eq] at h
    exact ⟨fun _ => h.1.1, plain_of h.1.2, h.2⟩
  · intro l k l' k' h1 h2 h3 h4 h5 h6 h7
    have a := hl l h1 h2
    have b := hl l' h4 h5
    rw [a.1, b.1] at h7
    have h3' : k < 8 := h3
    have h6' : k' < 8 := h6
    omega

/-- Scratch offsets: lane 0 at 0, lane 31 at the last 8 bytes of the reservation, or 8 beyond (`out`). -/
def gS (out : Nat) : Grove := { gT 7 with
  active := 0x80000001
  lanes := (gT 7).lanes.mapIdx (fun l x => { x with v := x.v.setIfInBounds 4 (if l = 31 then BitVec.ofNat 64 (1016 + out) else BitVec.ofNat 64 (out * 128)) }) }

theorem witness_ScratchLoadsAndStores (out : Nat) (h : out ∈ [0, 8]) : Unwatched (at_ s0 st0 (gS out)) (withG st0 (gS out)) ∧
    Runs (.lds 55 4 0) (at_ s0 st0 (gS out)) (withG st0 (gS out)) (gS out) ∧
    Runs (.sts 55 4 0) (at_ s0 st0 (gS out)) (withG st0 (gS out)) (gS out) ∧ Memory.wf st0.scratch = true ∧
    ∀ l, l < 32 → (gS out).enabled.getLsbD l = true → (l = 0 ∨ l = 31) ∧
      scratchAddr (gS out) 4 0 l = if out = 0 then 1016 * (l / 31) else 1024 := by
  simp only [List.mem_cons, List.not_mem_nil, or_false] at h
  rcases h with rfl | rfl <;>
    exact ⟨test_unwatched _, runs_at s0 st0 _ (by decide +kernel), runs_at s0 st0 _ (by decide +kernel), rfl, by decide +kernel⟩

theorem witness_SplitLoadsAndTheirWait : (∃ s st g, ∃ pa : Nat → Nat, Runs (.ldx 6 4 1 0 15) s st g ∧ g.prog = Prog.none ∧ Unwatched s st ∧
      g.ldx.length < 64 ∧ (∀ e ∈ g.ldx, e.counts = true ∧ e.lanes ≠ [] ∧ e.id ≠ s.nextId) ∧
      ∀ l, l < g.lam → g.enabled.getLsbD l = true → (baseVal g 4 l).toNat % 8 = 0 ∧ Plain s st g.slot 0 (baseVal g 4 l).toNat 8 (pa l) ∧
        (srcWhole g 6 true l).toNat % 2 ^ 32 + 8 ≤ st.scratchSize) ∧
    (∃ s st g, Runs (.waita 0 15 0) s st g ∧ (vget g.ac 15 0 - 0).toNat < 2 ^ 31 ∧ (∀ e ∈ g.ldxErrs, e.ac ≠ 15) ∧ g.single = none) ∧
    ∃ s st g, Runs (.waita 0 15 1) s st g ∧ 2 ^ 31 ≤ (vget g.ac 15 0 - 1).toNat ∧ g.single = none := by
  refine ⟨⟨at_ sL st0 (gM 7 0), _, gM 7 0, fun l => (baseVal (gM 7 0) 4 l).toNat, runs_at sL st0 _ ?_, rfl, test_unwatched _, ?_, ?_, fun l hl he => ?_⟩,
    ⟨_, _, gM 7 0, runs_at s0 st0 _ ?_, ?_, ?_, rfl⟩, _, _, gM 7 0, runs_at s0 st0 _ ?_, ?_, rfl⟩
  · decide +kernel
  · decide
  · intro e he; simp [gM, gT, Grove.start] at he
  · have h := lanes_all (p := fun l => decide ((baseVal (gM 7 0) 4 l).toNat % 8 = 0) &&
      plainB (at_ sL st0 (gM 7 0)) (withG st0 (gM 7 0)) 0 0 (baseVal (gM 7 0) 4 l).toNat 8 (baseVal (gM 7 0) 4 l).toNat &&
      decide ((srcWhole (gM 7 0) 6 true l).toNat % 2 ^ 32 + 8 ≤ 1024)) (by decide +kernel) hl he
    simp only [Bool.and_eq_true, decide_eq_true_eq] at h
    exact ⟨h.1.1, plain_of h.1.2, h.2⟩
  · decide +kernel
  · decide +kernel
  · intro e he; simp [gM, gT, Grove.start] at he
  · decide +kernel
  · decide +kernel

/-- All of line 512 registered. -/
def sA : State := s0.modM (fun m => { m with l1 := [⟨0, 512, 0, 0x0102030405060708, 2 ^ 128 - 1, 0, 0, 0, [], 0, []⟩] })

theorem witness_AtomicsOnRegisteredWords : ∃ i s st g d a b f, ∃ pa : Nat → Nat, atomicFunction i g.type g.rnd = some (d, a, b, f) ∧ Runs i s st g ∧
    g.prog = Prog.none ∧ Unwatched s st ∧
    (∀ l, l < g.lam → g.enabled.getLsbD l = true → (baseVal g a l).toNat % 8 = 0 ∧ pa l % 8 = 0 ∧ Plain s st g.slot 1 (baseVal g a l).toNat 8 (pa l) ∧
      ∃ x, l1Find s st.core (pa l / 128) = some x ∧ ∀ k, k < 8 → x.reg.getLsbD (pa l % 128 + k) = true ∧
        x.poison.getLsbD (pa l % 128 + k) = false ∧ x.lost.getLsbD (pa l % 128 + k) = false ∧
        (wordsOf x.pendMask).getLsbD (pa l % 128 + k) = false) ∧
    (∀ l l', l < g.lam → g.enabled.getLsbD l = true → l' < g.lam → g.enabled.getLsbD l' = true → pa l = pa l' → l = l') ∧
    typeBits g.type / 8 = 8 := by
  have hl : ∀ l, l < 32 → (gM 7 0).enabled.getLsbD l = true → (baseVal (gM 7 0) 4 l).toNat = 0x10000 + 120 * (l / 31) ∧ (l = 0 ∨ l = 31) := by
    decide +kernel
  refine ⟨.atomCas 55 4 0x46, at_ sA st0 (gM 7 0), _, gM 7 0, 55, 4, 0x46, _, fun l => (baseVal (gM 7 0) 4 l).toNat, rfl, runs_at sA st0 _ ?_, rfl,
    test_unwatched _, fun l hl he => ?_, ?_, ?_⟩
  · decide +kernel
  · have h := lanes_all (p := fun l => decide ((baseVal (gM 7 0) 4 l).toNat % 8 = 0) && decide ((baseVal (gM 7 0) 4 l).toNat / 128 = 512) &&
      plainB (at_ sA st0 (gM 7 0)) (withG st0 (gM 7 0)) 0 1 (baseVal (gM 7 0) 4 l).toNat 8 (baseVal (gM 7 0) 4 l).toNat &&
      (List.range 8).all (fun k => let x := L1Line.mk 0 512 0 0x0102030405060708 (2 ^ 128 - 1) 0 0 0 [] 0 []
        x.reg.getLsbD ((baseVal (gM 7 0) 4 l).toNat % 128 + k) && !x.poison.getLsbD ((baseVal (gM 7 0) 4 l).toNat % 128 + k) &&
          !x.lost.getLsbD ((baseVal (gM 7 0) 4 l).toNat % 128 + k) &&
          !(wordsOf x.pendMask).getLsbD ((baseVal (gM 7 0) 4 l).toNat % 128 + k))) (by decide +kernel) hl he
    simp only [Bool.and_eq_true, List.all_eq_true, List.mem_range, decide_eq_true_eq, Bool.not_eq_true'] at h
    exact ⟨h.1.1.1, h.1.1.1, plain_of h.1.2, ⟨0, 512, 0, 0x0102030405060708, 2 ^ 128 - 1, 0, 0, 0, [], 0, []⟩,
      (by show l1Find _ _ ((baseVal (gM 7 0) 4 l).toNat / 128) = _; rw [h.1.1.2]; rfl),
      fun k hk => ⟨(h.2 k hk).1.1.1, (h.2 k hk).1.1.2, (h.2 k hk).1.2, (h.2 k hk).2⟩⟩
  · intro l l' h1 h2 h3 h4 h5
    have a := hl l h1 h2
    have b := hl l' h3 h4
    simp only [a.1, b.1] at h5
    omega
  · rfl

theorem witness_FencesReleaseThenAcquire : (∃ s st g, Runs (.fence 6) s st g ∧ g.prog = Prog.none ∧ (s.d.part st.part).scopeOn = false ∧
      ReleaseReady s st g 6) ∧
    (∃ s st g, Runs (.fence 2) s st g ∧ g.prog = Prog.none ∧ g.outStores ≠ 0) ∧
    (∀ tr : Bool, ∃ s st g, Runs (.fence 6) s st g ∧ g.prog = Prog.none ∧ (s.d.part st.part).scopeOn = true ∧
      (s.d.part st.part).scopeTrap = tr ∧ ReleaseReady s st g 4) := by
  refine ⟨⟨_, _, gM 7 0, runs_at sL st0 _ ?_, rfl, ?_, .inr rfl, rfl, rfl, fun _ => ?_⟩,
    ⟨_, _, { gM 7 0 with outStores := 1 }, runs_at s0 st0 _ ?_, rfl, ?_⟩,
    fun tr => ⟨_, _, gM 7 0, runs_at (sL.modPart 0 (fun p => { p with scopeOn := true, scopeTrap := tr })) st0 _ ?_, rfl, ?_, ?_, .inr rfl, rfl, rfl, ?_⟩⟩
  any_goals decide +kernel
  all_goals first | (intro h; cases h) | (cases tr <;> decide +kernel)

theorem witness_RangeInstructions : ∃ s st g, ∃ pa : Nat → Nat, Runs (.invRange 4 5) s st g ∧ Runs (.wbRange 4 5) s st g ∧ g.ldx = [] ∧ g.outStores = 0 ∧
    ∀ l, l < g.lam → g.enabled.getLsbD l = true → (baseVal g 4 l).toNat % 4096 + (srcWhole g 5 false l).toNat % 2 ^ 32 ≤ 4096 ∧
      ∃ k, lookup s (st.mmu true g.slot) (baseVal g 4 l).toNat 0 = .ok (pa l) k ∧ pa l < 2 ^ 45 := by
  refine ⟨at_ sL st0 (gM 7 0), _, gM 7 0, fun l => (baseVal (gM 7 0) 4 l).toNat, runs_at sL st0 _ ?_, runs_at sL st0 _ ?_, rfl, rfl, fun l hl he => ?_⟩
  · decide +kernel
  · decide +kernel
  · have h := lanes_all (p := fun l => decide ((baseVal (gM 7 0) 4 l).toNat % 4096 + (srcWhole (gM 7 0) 5 false l).toNat % 2 ^ 32 ≤ 4096) &&
      decide (lookup (at_ sL st0 (gM 7 0)) ((withG st0 (gM 7 0)).mmu true 0) (baseVal (gM 7 0) 4 l).toNat 0 = .ok (baseVal (gM 7 0) 4 l).toNat 0) &&
      decide ((baseVal (gM 7 0) 4 l).toNat < 2 ^ 45)) (by decide +kernel) hl he
    simp only [Bool.and_eq_true, decide_eq_true_eq] at h
    exact ⟨h.1.1, 0, h.1.2, h.2⟩

/-- No store under way on a registered word of the range; one on the first word of the line. -/
theorem witness_RangeInstructions_ready (ask : ByteMask) (h : ask ∈ [0xFF0000000000000000#128, 1]) :
    let s := sL.modM (fun m => { m with l1 := m.l1.map (fun x => { x with pend := [⟨ask, ask, 0⟩] }) })
    spansReady (at_ s st0 (gM 7 0)) 0 ((lanesOf (gM 7 0) (gM 7 0).enabled).map (fun l =>
      ((baseVal (gM 7 0) 4 l).toNat, (srcWhole (gM 7 0) 5 false l).toNat % 2 ^ 32))) = decide (ask ≠ 1) := by
  simp only [List.mem_cons, List.not_mem_nil, or_false] at h
  rcases h with rfl | rfl <;> decide +kernel

/-! ## Launches, floes, barriers, timelines, deposits -/

/-- An accepted block at 0x10100, with a Reserved bit at 0x10200 (08 R181); nothing is mapped at 0x20000. -/
def sLn : State := (s0.modM (fun m => { m with mem := [(0x10158, 1), (0x10258, 1), (0x10280, 1)] })).modD (fun d => { d with windows := [] })

/-- A grove whose s31 names a block. -/
def gB (b : Word) : Grove := { gT 7 with s := (gT 7).s.setIfInBounds 31 b }

theorem release_at (s : State) (sf : Stand) (g : Grove) (sc : Nat) (h : g.outStores = 0) (h2 : g.outWbs = 0) (h3 : g.ldx = [])
    (h4 : s.m.l1 = []) (h5 : hostWbOut s = false) (h6 : s.m.hostQ = []) : ReleaseReady (at_ s sf g) (withG sf g) g sc :=
  ⟨.inr h, h2, h3, fun _ => ⟨by simp [at_, h4], h5, h6⟩⟩

theorem sLn_l1 : sLn.m.l1 = [] := by decide +kernel

theorem witness_LaunchResults (b : Word) (h : b ∈ [0x10108#64, 0x10100, 0x10200, 0x20000]) :
    Runs (.launch 31 31) (at_ sLn st0 (gB b)) (withG st0 (gB b)) (gB b) ∧ ReleaseReady (at_ sLn st0 (gB b)) (withG st0 (gB b)) (gB b) 5 ∧
      vget (gB b).s 31 0 = b := by
  refine ⟨runs_at sLn st0 _ ?_, release_at _ _ _ _ rfl rfl rfl sLn_l1 (by decide +kernel) rfl, ?_⟩ <;>
    (simp only [List.mem_cons, List.not_mem_nil, or_false] at h; rcases h with rfl | rfl | rfl | rfl <;> decide +kernel)

/-- Accepted, refused, and a fault of the read. -/
theorem witness_LaunchResults_clauses :
    let r (s : State) (b : Nat) : Option (Option (Nat × Nat × Nat) × Nat) :=
      (launchBlock (at_ s st0 (gT 7)) 0 0 ⟨0, 0⟩ b (clearing? (at_ s st0 (gT 7)) 0 0)).1.map (fun x => (x.fault, x.result))
    r sLn 0x10100 = some (none, 0) ∧ r sLn 0x10200 = some (none, 1) ∧ (r sLn 0x20000) = none ∧
      ((r (sLn.modM (fun m => { m with walks := [⟨0, 0, 0, 0x20, 0, [⟨⟨0, 0⟩, 0, false, some ⟨cPAGE, 1, none⟩⟩], true⟩] })) 0x20000).bind (·.1)) =
        some (3, 1, 0x20000) := by
  decide +kernel

/-- s30 an offset, s31 a size. -/
def gFl (off size : Nat) : Grove :=
  { gT 7 with s := ((gT 7).s.setIfInBounds 30 (BitVec.ofNat 64 off)).setIfInBounds 31 (BitVec.ofNat 64 size) }

/-- Floe 1 is empty, 0 ready, 2 filling; the stand has three, and units 1 and 3 of the four are free. -/
theorem witness_FloeResults (off size : Nat) (h : (off, size) ∈ [(256, 256), (768, 512), (0, 100), (0, 15361 * 256)]) (n : BitVec 6)
    (hn : n ∈ [0, 1, 2, 3, 63]) :
    Runs (.floeDef n 30 31) (at_ s0 st0 (gFl off size)) (withG st0 (gFl off size)) (gFl off size) ∧
      Runs (.floeRel n) (at_ s0 st0 (gFl off size)) (withG st0 (gFl off size)) (gFl off size) ∧
      Runs (.floeSt 31 n) (at_ s0 st0 (gFl off size)) (withG st0 (gFl off size)) (gFl off size) ∧
      scalarSource (gFl off size) 30 = BitVec.ofNat 64 off ∧ scalarSource (gFl off size) 31 = BitVec.ofNat 64 size ∧
      (gFl off size).single = none ∧ st0.floes.map (·.state) = [2, 0, 1] := by
  refine ⟨runs_at s0 st0 _ ?_, runs_at s0 st0 _ ?_, runs_at s0 st0 _ ?_, ?_, ?_, rfl, rfl⟩ <;>
    (simp only [List.mem_cons, List.not_mem_nil, or_false, Prod.mk.injEq] at h hn
     rcases h with ⟨rfl, rfl⟩ | ⟨rfl, rfl⟩ | ⟨rfl, rfl⟩ | ⟨rfl, rfl⟩ <;> rcases hn with rfl | rfl | rfl | rfl | rfl <;> decide +kernel)

/-- A grove that has met phase `last` of barrier 15, in phase `ph` of its instruction. -/
def gBar (last : Option Nat) (ph outs : Nat) : Grove :=
  { gT 7 with barLast := (List.replicate 16 none).set 15 last, prog := { Prog.none with phase := ph, barPhase := 4294967295 }, outStores := outs }

/-- Barrier 15 in phase 2^32 − 1 (the next wraps), alone in the stand or with an arrival missing; or in phase 0. -/
def stBar (phase : Nat) : Stand := { st0 with barriers := st0.barriers.set 15 ⟨phase, [], false, false, []⟩ }

theorem witness_BarrierResults (phase ph outs : Nat) (last : Option Nat) (h : phase ∈ [0, 4294967295]) (hp : ph ∈ [0, 1])
    (ho : outs ∈ [0, 1]) (hl : last ∈ [none, some 4294967295]) : let g := gBar last ph outs
    (withG (stBar phase) g).barriers[15]? = some ⟨phase, [], false, false, []⟩ ∧ g.single = none ∧ phase < 2 ^ 32 ∧
      Runs (.barArr 15) (at_ s0 (stBar phase) g) (withG (stBar phase) g) g ∧ Runs (.barSync 15) (at_ s0 (stBar phase) g) (withG (stBar phase) g) g ∧
      Runs (.barWait 15) (at_ s0 (stBar phase) g) (withG (stBar phase) g) g ∧ g.prog.phase = ph ∧ g.outStores = outs ∧ g.barLast.getD 15 none = last := by
  refine ⟨rfl, rfl, ?_, runs_at s0 _ _ ?_, runs_at s0 _ _ ?_, runs_at s0 _ _ ?_, rfl, rfl, rfl⟩ <;>
    (simp only [List.mem_cons, List.not_mem_nil, or_false] at h hp ho hl
     rcases h with rfl | rfl <;> rcases hp with rfl | rfl <;> rcases ho with rfl | rfl <;> rcases hl with rfl | rfl <;> decide +kernel)

/-- At the counter and one past it. -/
theorem witness_TimelineResults : let st := { st0 with tlc := ⟨4, 7⟩ }
    (∃ s g, Runs (.tlwait 6 0 0 4) s (withG st g) g ∧ (4 : BitVec 16).toNat ≤ (withG st g).tlc.counter) ∧
    (∃ s g, Runs (.tlwait 6 0 0 5) s (withG st g) g ∧ (withG st g).tlc.counter < (5 : BitVec 16).toNat ∧ g.single = none) ∧
    (∃ s g, Runs (.tlwait 0 1 1 31) s (withG st g) g) ∧ ∃ s g, Runs (.tlrd 1 31 1) s (withG st g) g := by
  refine ⟨⟨_, gT 7, runs_at s0 _ _ ?_, ?_⟩, ⟨_, gT 7, runs_at s0 _ _ ?_, ?_, rfl⟩, ⟨_, gT 7, runs_at s0 _ _ ?_⟩, _, gT 7, runs_at s0 _ _ ?_⟩ <;> decide +kernel

/-- A bin of key (0x10040, 5) with `n` records; s30 holds the entry address, s31 the tag. -/
def stBin (n : Nat) : Stand := { st0 with bins := [⟨some (0x10040, 5), List.replicate n [1], 4096, none⟩] }

def gBin (e : Word) (act : LaneMask) : Grove :=
  { gT 7 with s := ((gT 7).s.setIfInBounds 30 e).setIfInBounds 31 5, active := act }

/-- One lane of 32, into a bin that this fills. -/
theorem witness_DepositResults (ends : Bool) : ∃ (i : Instr) (s : State) (st : Stand) (g : Grove) (d b : BitVec 8) (r k : Nat) (bin : Bin),
    ((∃ a, i = .spawn d a b ∧ r = a.toNat % 64 ∧ ends = false) ∨ (i = .rebin d b ∧ r = 0 ∧ ends = true)) ∧ Runs i s st g ∧
      unowed g g.enabled ∧ g.redo = none ∧ st.bins[k]? = some bin ∧ bin.key = some (scalarSource g d, (scalarSource g b).setWidth 16) ∧
      (∀ j, j < k → (st.bins[j]?).bind (fun x : Bin => x.key) ≠ bin.key) ∧ bin.launching = none ∧ bin.timer ≠ 0 ∧ r + st.shape.recw ≤ 56 ∧
      r + st.shape.recw ≤ g.boundary ∧ (scalarSource g d).toNat % 4 = 0 ∧ bin.recs.length + (lanesOf g g.enabled).length = st.shape.lanes ∧
      g.prog.done = 0#1024 ∧ g.active &&& ~~~g.enabled = 0#1024 ∧ g.live &&& ~~~g.enabled ≠ 0#1024 ∧ g.outStores = 0 ∧ g.ldx = [] ∧
      binsBusy s st = false := by
  refine ⟨if ends then .rebin 30 31 else .spawn 30 55 31, at_ s0 (stBin 31) (gBin 0x10040 0x80000000), _, gBin 0x10040 0x80000000, 30, 31,
    if ends then 0 else 55, 0, ⟨some (0x10040, 5), List.replicate 31 [1], 4096, none⟩, ?_, runs_at s0 _ _ ?_,
    ⟨by simp [gBin, gT, Grove.start], by simp [gBin, gT, Grove.start]⟩, rfl, rfl, ?_, ?_, rfl, ?_, ?_, ?_, ?_, ?_, rfl, ?_, ?_, rfl, rfl, ?_⟩
  · cases ends
    · exact .inl ⟨55, rfl, rfl, rfl⟩
    · exact .inr ⟨rfl, rfl, rfl⟩
  all_goals first | (intro j hj; exact absurd hj (Nat.not_lt_zero j)) | (cases ends <;> decide +kernel)

/-- A store, a split load of the grove's own, a bin that has run out: each alone makes a deposit wait. -/
theorem witness_DepositResults_waits : let g := { gBin 0x10040 1 with outStores := 1 }
    let h := { gBin 0x10040 1 with ldx := [⟨9, 0, 0, false, 4, 1, [], true⟩] }
    let b := { st0 with bins := [⟨some (8, 9), [[1]], 0, none⟩] }
    Runs (.spawn 30 0 31) (at_ s0 (stBin 0) g) (withG (stBin 0) g) g ∧ Runs (.spawn 30 0 31) (at_ s0 (stBin 0) h) (withG (stBin 0) h) h ∧
      Runs (.spawn 30 0 31) (at_ s0 b (gBin 0x10040 1)) (withG b (gBin 0x10040 1)) (gBin 0x10040 1) ∧
      binsBusy (at_ s0 b (gBin 0x10040 1)) (withG b (gBin 0x10040 1)) = true ∧ g.single = none ∧ h.single = none ∧
      (scalarSource g 30).toNat % 4 = 0 ∧ 0 + (withG b g).shape.recw ≤ 56 ∧ 0 + (withG b g).shape.recw ≤ g.boundary :=
  ⟨runs_at s0 _ _ (by decide +kernel), runs_at s0 _ _ (by decide +kernel), runs_at s0 _ _ (by decide +kernel), by decide +kernel⟩

/-- No bins, and an entry address that is no multiple of 4; a guarded `rebin`, and the last live lanes. -/
theorem witness_DepositResults_other : (∃ s st g, Runs (.spawn 30 55 31) s st g ∧ unowed g g.enabled ∧ g.redo = none ∧ st.bins = []) ∧
    (∃ s st g, Runs (.spawn 30 55 31) s st g ∧ unowed g g.enabled ∧ g.redo = none ∧ st.bins ≠ [] ∧ 55 + st.shape.recw ≤ 56 ∧ 55 + st.shape.recw ≤ g.boundary ∧
      (scalarSource g 30).toNat % 4 ≠ 0) ∧
    (∃ s st g, Runs (.rebin 30 31) s st g ∧ unowed g g.enabled ∧ g.redo = none ∧ g.active &&& ~~~g.enabled ≠ 0#1024) ∧
    ∃ s st g, Runs (.rebin 30 31) s st g ∧ unowed g g.enabled ∧ g.redo = none ∧ g.live &&& ~~~g.enabled = 0#1024 := by
  refine ⟨⟨_, _, gBin 0x10040 1, runs_at s0 { st0 with bins := [] } _ ?_, ⟨by simp [gBin, gT, Grove.start], by simp [gBin, gT, Grove.start]⟩, rfl, rfl⟩,
    ⟨_, _, gBin 0x10042 1, runs_at s0 (stBin 0) _ ?_, ⟨by simp [gBin, gT, Grove.start], by simp [gBin, gT, Grove.start]⟩, rfl, ?_, ?_, ?_, ?_⟩,
    ⟨_, _, { gD with mode := 0x1007 }, runs_at s0 (stBin 0) _ ?_, ⟨by simp [gD, gT, Grove.start], by simp [gD, gT, Grove.start]⟩, rfl, ?_⟩,
    _, _, gBin 0x10040 0xFFFFFFFF, runs_at s0 (stBin 0) _ ?_, ⟨by simp [gBin, gT, Grove.start], by simp [gBin, gT, Grove.start]⟩, rfl, ?_⟩ <;>
    decide +kernel

/-! ## Copies, batches, conversions, the codec -/

/-- s29 destination, s30 source, s31 control of a copy. -/
def gC (d a x : Word) : Grove :=
  { gT 7 with s := (((gT 7).s.setIfInBounds 29 d).setIfInBounds 30 a).setIfInBounds 31 x, openCopies := [99] }

theorem s0_l1 : s0.m.l1 = [] := by decide +kernel

/-- The slice of s29 to s31 and s3. -/
def slC (d a x t : Word) : CopySlice := ⟨0, d, a, x, t⟩

theorem witness_CopyIssueResults (kind : Nat) (i : Instr) (h : (i, kind) ∈ [(Instr.cpy 29 30 31, 0), (.cpym 29 30 31, 1), (.cpyx 29 30 31, 2)])
    (x : Word) (hx : x ∈ [0x1100000040, 64 + 2 ^ 33, 2 ^ 40, 2 ^ 63]) : let g := gC 960 0 x
    copyForm i = some (kind, 29, 30, 31) ∧ Runs i (at_ s0 st0 g) (withG st0 g) g ∧ g.prog = Prog.none ∧
      (∀ c ∈ (withG st0 g).copy.queue, c.id < 100) ∧ (∀ l ∈ (withG st0 g).copy.supplied, ∀ k ∈ l, k < 100) ∧ (∀ k ∈ g.openCopies, k < 100) ∧
      g.slot < (withG st0 g).copy.supplied.length ∧ ((withG st0 g).copy.queue.filter (fun c => c.owner == g.slot && c.reserved)).length < 2 ∧
      ∀ sc, ReleaseReady (at_ s0 st0 g) (withG st0 g) g sc := by
  refine ⟨?_, runs_at s0 st0 _ ?_, rfl, ?_, ?_, ?_, ?_, ?_, fun sc => release_at _ _ _ _ rfl rfl rfl s0_l1 (by decide +kernel) rfl⟩ <;>
    (simp only [List.mem_cons, List.not_mem_nil, or_false, Prod.mk.injEq] at h hx
     rcases h with ⟨rfl, rfl⟩ | ⟨rfl, rfl⟩ | ⟨rfl, rfl⟩ <;> rcases hx with rfl | rfl | rfl | rfl <;> decide +kernel)

theorem fails_at {l : List (Nat × Nat × Prop)} {n c k : Nat} {p : Prop} (h : l[n]? = some (c, k, p)) (hb : ∀ q ∈ l.take n, ¬ q.2.2) (hp : p) :
    ∃ before c k p after, l = before ++ (c, k, p) :: after ∧ before.length = n ∧ (∀ q ∈ before, ¬ q.2.2) ∧ p := by
  obtain ⟨hn, he⟩ := List.getElem?_eq_some_iff.mp h
  exact ⟨l.take n, c, k, p, l.drop (n + 1), by rw [← he, ← List.drop_eq_getElem_cons hn, List.take_append_drop],
    by rw [List.length_take]; omega, hb, hp⟩

/-- A slice that each check of 15 R335 is the first to refuse: Reserved bits of the control, of `cpym`'s, of a floe end; a kind, a
transform, no receiver; a length; no such floe; an empty one; bytes beyond a floe; a byte beyond the reservation. -/
theorem witness_CopyIssueResults_fails (n kind : Nat) (d a x t : Word) (h : (n, kind, d, a, x, t) ∈ [
      (0, 2, 0, 0, 2 ^ 40, 0), (0, 1, 0, 0, 2 ^ 22 + 2 ^ 33, 0), (0, 2, 0, 64, 2 ^ 33, 0), (1, 2, 0, 0, 3 * 2 ^ 32, 0), (1, 0, 0, 0, 0, 6),
      (1, 1, 0, 0, 64, 0), (2, 2, 0, 0, 8, 0x82), (3, 0, 0, 3, 2 ^ 33, 0), (4, 2, 0, 1, 2 ^ 33, 0), (5, 2, 0, 193 * 2 ^ 32, 2 ^ 33 + 64, 0),
      (6, 2, 961, 0, 2 ^ 36 + 64, 0)]) :
    ∃ before c k p after, copyChecks st0 (slC d a x t) kind = before ++ (c, k, p) :: after ∧ before.length = n ∧
      (∀ q ∈ before, ¬ q.2.2) ∧ p := by
  have h1 : st0.floes = [⟨2, 0, 1, 0⟩, ⟨0, 0, 0, 0⟩, ⟨1, 1, 1, 2⟩] := rfl
  have h2 : st0.scratchSize = 1024 := rfl
  simp only [List.mem_cons, List.not_mem_nil, or_false, Prod.mk.injEq] at h
  rcases h with ⟨rfl, rfl, rfl, rfl, rfl, rfl⟩ | ⟨rfl, rfl, rfl, rfl, rfl, rfl⟩ | ⟨rfl, rfl, rfl, rfl, rfl, rfl⟩ |
      ⟨rfl, rfl, rfl, rfl, rfl, rfl⟩ | ⟨rfl, rfl, rfl, rfl, rfl, rfl⟩ | ⟨rfl, rfl, rfl, rfl, rfl, rfl⟩ | ⟨rfl, rfl, rfl, rfl, rfl, rfl⟩ |
      ⟨rfl, rfl, rfl, rfl, rfl, rfl⟩ | ⟨rfl, rfl, rfl, rfl, rfl, rfl⟩ | ⟨rfl, rfl, rfl, rfl, rfl, rfl⟩ | ⟨rfl, rfl, rfl, rfl, rfl, rfl⟩
  all_goals refine fails_at rfl ?_ ?_ <;> simp [copyChecks, copyEnds, bitsOf, slC, h1, h2]

/-- Slices that pass: scratch at its end, two floes of which one takes a fill and one is not ready for a drain, `cpym` with SIG. -/
theorem witness_CopyIssueResults_passes (kind : Nat) (d a x : Word) (h : (kind, d, a, x) ∈ [(2, 960, 0, 0x1100000040), (0, 960, 0, 0x1100000040),
      (0, 192 * 2 ^ 32, 2, 2 ^ 37 + 2 ^ 33 + 64), (1, 960, 0x10000, 64 + 2 ^ 33 + 2 ^ 49)]) :
    (∀ q ∈ copyChecks st0 (slC d a x 0) kind, ¬ q.2.2) ∧ ((floesNamed (slC d a x 0) kind).map (·.2)).Nodup := by
  have h1 : st0.floes = [⟨2, 0, 1, 0⟩, ⟨0, 0, 0, 0⟩, ⟨1, 1, 1, 2⟩] := rfl
  have h2 : st0.scratchSize = 1024 := rfl
  simp only [List.mem_cons, List.not_mem_nil, or_false, Prod.mk.injEq] at h
  rcases h with ⟨rfl, rfl, rfl, rfl⟩ | ⟨rfl, rfl, rfl, rfl⟩ | ⟨rfl, rfl, rfl, rfl⟩ | ⟨rfl, rfl, rfl, rfl⟩ <;>
    exact ⟨by simp [copyChecks, copyEnds, bitsOf, slC, h1, h2], by decide⟩

/-- A copy of the queue that gathers, the second entry of a stand of two groves. -/
def kC : Copy := { Copy.new 51 0 1 true false with slices := [{ slC 0 64 0x1000000040 0 with slot := 1 }] }
def stK : Stand := { st0 with copy := { st0.copy with queue := [Copy.new 50 2 1 true true, kC], supplied := st0.copy.supplied.set 1 [51] } }

/-- What an issue looks for: the scope of its release, receivers, entries left and none left, a copy that gathers. -/
theorem witness_CopyIssueResults_entries :
    let g := gC 960 0x10000 0x1000000040
    let s := at_ s0 st0 g
    (issueScope s (withG st0 g) (slC 960 0x10000 0x1000000040 0) [] 0).1 = some 5 ∧
      receivers s (withG st0 g) (slC 960 0x10000 (64 + 2 ^ 33 + 2 ^ 49) 0) = [0] ∧ (slC 960 0x10000 (64 + 2 ^ 33 + 2 ^ 49) 0).x.getLsbD 49 = true ∧
      (let q := List.replicate 2 (Copy.new 1 2 0 true true) ++ List.replicate 62 (Copy.new 2 2 0 false true)
      ¬ ((q.filter (fun c => c.owner == g.slot && c.reserved)).length < 2 ∨ (q.filter (fun c => !c.reserved)).length < 64 - 2 * st0.shape.groves)) ∧
      kC.kind = 0 ∧ kC.started = false ∧ kC.id ∉ stK.copy.supplied.getD g.slot [] ∧ stK.copy.queue = [Copy.new 50 2 1 true true] ++ kC :: [] ∧
      (Copy.new 50 2 1 true true).kind ≠ 0 ∧ (∀ c ∈ stK.copy.queue, c.id = kC.id → c = kC) ∧ kC.id ∉ g.openCopies ∧
      (issueScope (at_ s0 stK g) (withG stK g) (slC 960 0x10000 0x1000000040 0) kC.slices 0).1 = some 5 ∧
      (∀ x ∈ (issueScope (at_ s0 stK g) (withG stK g) (slC 960 0x10000 0x1000000040 0) kC.slices 0).2.m.l1, x.k01 = []) := by
  decide +kernel

theorem witness_CopyIssueResults_dict (a : Word) (h : a ∈ [0x10040#64, 0x10020]) : Runs (.dictLd 1 30) (at_ s0 st0 (gC 0 a 0)) (withG st0 (gC 0 a 0)) (gC 0 a 0) ∧
    scalarSource (gC 0 a 0) 30 = a ∧ (withG st0 (gC 0 a 0)).batches = [] ∧
    ∃ b ∈ ({ st0 with batches := [⟨5, [4], false, 1⟩] } : Stand).batches, b.conversion = false ∧ b.bank = 1 := by
  simp only [List.mem_cons, List.not_mem_nil, or_false] at h
  rcases h with rfl | rfl <;> exact ⟨runs_at s0 st0 _ (by decide +kernel), by decide +kernel, rfl, by decide +kernel⟩

/-- The walks of a table load find no page of KIND 0b01. -/
theorem witness_CopyIssueResults_table : (rangeHost (at_ s0 st0 (gC 0 0x10000 0)) (withG st0 (gC 0 0x10000 0)) 0x10000 32768).1 = some false := by
  decide +kernel

/-- A stand with one incomplete batch, an open copy of the grove, and a paused context, in a halt or outside one. -/
def stQ (p : Bool) (h : Option Halt) : Stand := { st0 with
  batches := [⟨5, [4], false, 0⟩]
  tlc := ⟨4, 5⟩
  halt := h
  copy := { st0.copy with queue := [{ Copy.new 99 2 0 true true with faulted := true }], paused := p } }

theorem witness_BatchAndResumeResults (p : Bool) (h : Option Halt) (hh : h ∈ [none, some ⟨0, 2⟩]) :
    let g := { gC 0 0 0 with batches := [5] }
    Runs .seal (at_ s0 (stQ p h) g) (withG (stQ p h) g) g ∧ Runs (.waitb 6 1) (at_ s0 (stQ p h) g) (withG (stQ p h) g) g ∧
      Runs (.waitb 1 0) (at_ s0 (stQ p h) g) (withG (stQ p h) g) g ∧ (g.batches.filter (fun n => (stQ p h).batches.any (fun b => b.num == n))).length = 1 ∧
      Runs .cpyRes (at_ s0 (stQ p h) g) (withG (stQ p h) g) g ∧ Runs .cpyResAbandon (at_ s0 (stQ p h) g) (withG (stQ p h) g) g ∧
      g.single = none ∧ ∃ c ∈ (stQ p h).copy.queue, c.id ∈ g.openCopies ∧ c.batch = none := by
  simp only [List.mem_cons, List.not_mem_nil, or_false] at hh
  rcases hh with rfl | rfl <;> cases p <;>
    exact ⟨runs_at s0 _ _ (by decide +kernel), runs_at s0 _ _ (by decide +kernel), runs_at s0 _ _ (by decide +kernel), by decide +kernel,
      runs_at s0 _ _ (by decide +kernel), runs_at s0 _ _ (by decide +kernel), rfl, _, List.mem_singleton_self _, by decide +kernel, rfl⟩

/-- Lane 31 at the last slots of the tile, or one further. -/
def gCv (v : Nat) : Grove := { gT 11 with
  active := 0x80000000
  lanes := (gT 11).lanes.map (fun x => { x with v := x.v.setIfInBounds 4 (BitVec.ofNat 64 v) }) }

theorem witness_AccumulatorConversions (v : Nat) (h : v ∈ [12287, 12288]) : Runs (.cvtaSat 55 0 4) (at_ s0 st0 (gCv v)) (withG st0 (gCv v)) (gCv v) ∧
    Runs (.cvtaInf 55 0 4) (at_ s0 st0 (gCv v)) (withG st0 (gCv v)) (gCv v) ∧ Unwatched (at_ s0 st0 (gCv v)) (withG st0 (gCv v)) ∧
    (withG st0 (gCv v)).seq.ops = [] ∧ ∀ l, l < 32 → (gCv v).enabled.getLsbD l = true → (srcWhole (gCv v) 4 false l).toNat = v := by
  simp only [List.mem_cons, List.not_mem_nil, or_false] at h
  rcases h with rfl | rfl <;>
    exact ⟨runs_at s0 st0 _ (by decide +kernel), runs_at s0 st0 _ (by decide +kernel), test_unwatched _, rfl, by decide +kernel⟩

/-- s2 holds a geometry of dimension 2 with 18 half-words a block (07 R168). -/
def gG : Grove := { gT 10 with s := (gT 10).s.setIfInBounds 2 0x80012 }

theorem witness_SeracCodecResults : ∃ s st g b, Runs (.sdec 55 54 b) s st g ∧ Runs (.senc 55 54 b) s st g ∧ Runs (.serr 55 54 b) s st g ∧
    Runs (.sblk 55 54 b) s st g ∧ Unwatched s st ∧ geomOf g b = ⟨2, false, 18⟩ :=
  ⟨_, _, gG, 62, runs_at s0 st0 _ (by decide +kernel), runs_at s0 st0 _ (by decide +kernel), runs_at s0 st0 _ (by decide +kernel),
    runs_at s0 st0 _ (by decide +kernel), test_unwatched _, by decide +kernel⟩

/-! ## Debugging -/

/-- The target: stand 7 of clearing 3, index 0, halted by debugging. -/
def stY (dh : Bool) : Stand := { st0 with uid := 7, clnum := 3, dbgHalt := dh, groves := [{ gT 3 with live := 0x7FFFFFFF }] }

/-- s29 names the target, s30 the item, s31 the slot and lane. -/
def gDb (tgt sel lane : Nat) : Grove :=
  { gT 7 with s := (((gT 7).s.setIfInBounds 29 (BitVec.ofNat 64 tgt)).setIfInBounds 30 (BitVec.ofNat 64 sel)).setIfInBounds 31 (BitVec.ofNat 64 lane) }

def dDb (en : Bool) : Dev :=
  { (s0.modPart 0 (fun p => { p with dbgEn := en, dbgcl := 0xFFFF })).d with
    clearings := [Clearing.single 0 1, { Clearing.single 0 50 with num := 3 }] }

theorem gDb_scalars (t sel lane : Nat) : vget (gDb t sel lane).s 29 0 = BitVec.ofNat 64 t ∧
    vget (gDb t sel lane).s 30 0 = BitVec.ofNat 64 sel ∧ vget (gDb t sel lane).s 31 0 = BitVec.ofNat 64 lane := by
  simp [vget, gDb]

def sDb (dh en : Bool) (g : Grove) : State :=
  { s0 with
    d := dDb en
    stands := [withG st0 g, stY dh]
    cur := some ⟨0, 0⟩ }

theorem runs_db (dh en : Bool) (g : Grove) (hs : g.slot = 0) {i : Instr} (h : passesB i (withG st0 g) g = true) : Runs i (sDb dh en g) (withG st0 g) g :=
  { cur := by rw [hs]; rfl
    stand := rfl
    grove := by simp [withG, Stand.grove?]
    toPasses := passes_of h }

/-- No right to debug; the right, and no such clearing. -/
theorem witness_DebugIsPrivileged : (∃ i s st g w, debugForm g i = some w ∧ Runs i s st g ∧ g.prog = Prog.none ∧ ¬ MayDebug s st) ∧
    ∃ i s st g w, debugForm g i = some w ∧ Runs i s st g ∧ g.prog = Prog.none ∧ MayDebug s st ∧ ¬ ∃ y, Targets s st w y := by
  refine ⟨⟨.peek 31 29 30, sDb true false (gDb 0 0 0), _, gDb 0 0 0, _, rfl, runs_db _ _ _ rfl ?_, rfl, ?_⟩,
    .rimew 3 15 31 29, sDb true true (gDb (9 * 2 ^ 48) 0 0), _, gDb (9 * 2 ^ 48) 0 0, _, rfl, runs_db _ _ _ rfl ?_, rfl, ?_, ?_⟩
  · decide +kernel
  · unfold MayDebug; decide +kernel
  · decide +kernel
  · unfold MayDebug; decide +kernel
  · rintro ⟨y, ⟨⟨c, hc, -, hn, -⟩, -⟩⟩
    revert c
    decide +kernel

/-- The premises of `DebugResults`, and its items at their boundaries: registers 0 and 55 of lanes 0 and 31, scalar 31, the pc,
MODE, floe 2, FAULTPC, a register that no poke reaches, and lane 31 of the target. -/
theorem witness_DebugResults (sel lane : Nat) (h : sel ∈ [0, 55 * 2 ^ 48 + 31, 2 ^ 56 + 31 * 2 ^ 48, 3 * 2 ^ 56, 3 * 2 ^ 56 + 2 ^ 48, 5 * 2 ^ 56 + 2 * 2 ^ 48,
    3 * 2 ^ 56 + 6 * 2 ^ 48, 3 * 2 ^ 56 + 5 * 2 ^ 48]) (hl : lane ∈ [0, 30, 31]) (dh : Bool) :
    let g := gDb (3 * 2 ^ 48) sel lane
    MayDebug (sDb dh true g) (withG st0 g) ∧ g.prog = Prog.none ∧ g.single = none ∧ (withG st0 g).uid ≠ (stY dh).uid ∧ (stY dh).dbgHalt = dh ∧
      Targets (sDb dh true g) (withG st0 g) (scalarSource g 29) (stY dh) ∧ vget g.s 29 0 = scalarSource g 29 ∧ (scalarSource g 30).toNat = sel ∧
      (vget g.s 31 0).toNat = lane ∧
      (∀ i ∈ [Instr.peek 31 29 30, .poke 56 29 30, .stepHalt 29 31, .stepRun 29 31, .stepLane 29 31, .rimew 3 15 31 29, .rimew 0 0 31 29, .samp 20],
        Runs i (sDb dh true g) (withG st0 g) g) ∧
      (sDb dh true g).stand? 7 = some (stY dh) ∧ (stY dh).holdsTrap = false ∧ (stY dh).floes[2]?.isSome = true ∧
      (∀ z ∈ (sDb dh true g).stands, z.uid = (stY dh).uid → z = stY dh) ∧ swapping (sDb dh true g) (stY dh).core = false ∧
      ∀ k ∈ (stY dh).groves, (stY dh).grove? k.slot = some k ∧ k.slot < 16 ∧ k.ldx = [] ∧ k.skidLeft = 0 ∧ k.single = none ∧ k.supp = 0#1024 := by
  have e := gDb_scalars (3 * 2 ^ 48) sel lane
  have hs : sel < 2 ^ 64 := by
    simp only [List.mem_cons, List.not_mem_nil, or_false] at h
    omega
  have hl' : lane < 2 ^ 64 := by
    simp only [List.mem_cons, List.not_mem_nil, or_false] at hl
    omega
  have e29 : scalarSource (gDb (3 * 2 ^ 48) sel lane) 29 = BitVec.ofNat 64 (3 * 2 ^ 48) := e.1
  have e30 : scalarSource (gDb (3 * 2 ^ 48) sel lane) 30 = BitVec.ofNat 64 sel := e.2.1
  refine ⟨⟨?_, .inl ?_⟩, rfl, rfl, Nat.zero_ne_add_one 6, rfl, ⟨⟨{ Clearing.single 0 50 with num := 3 }, ?_, rfl, ?_, rfl⟩, ?_⟩, rfl, ?_, ?_, ?_, rfl,
    rfl, rfl, ?_, ?_, ?_⟩
  · show ((dDb true).part 0).dbgEn = true
    decide +kernel
  · show ((dDb true).part 0).dbgcl = 0xFFFF
    decide +kernel
  · simp [sDb, dDb]
  · rw [e29]; rfl
  · rw [e29]; rfl
  · rw [e30, BitVec.toNat_ofNat, Nat.mod_eq_of_lt hs]
  · rw [e.2.2, BitVec.toNat_ofNat, Nat.mod_eq_of_lt hl']
  · intro i hi
    refine runs_db _ _ _ rfl ?_
    simp only [List.mem_cons, List.not_mem_nil, or_false] at hi
    rcases hi with rfl | rfl | rfl | rfl | rfl | rfl | rfl | rfl <;> rfl
  · intro z hz hu
    simp only [sDb, List.mem_cons, List.not_mem_nil, or_false] at hz
    rcases hz with rfl | rfl
    · exact absurd hu (Nat.zero_ne_add_one 6)
    · rfl
  · have h : ∀ t : State, t.d = dDb true → swapping t 0 = false := fun t ht => by
      simp only [swapping, ht]; decide +kernel
    exact h _ rfl
  · cases dh <;> decide +kernel

/-- Control words of a predicate that its fields admit, and one of each that they do not (17 R354, R355). -/
theorem test_rime_control : let p := Rime.reset
    rimeWritten p 0 0x8000000000000005#64 = { p with en := true, cdown := 5 } ∧ rimeWritten p 0 (4 * 2 ^ 60) = p ∧
      rimeWritten p 0 (5 * 2 ^ 57) = p ∧ rimeWritten p 0 (15 * 2 ^ 53) = p ∧ rimeWritten p 3 7 = { p with count := 7 } := by decide +kernel

/-! ## The matrix sequencer and unit -/

def rec0 : Record := ⟨0, false, 0, false, 0, 0, false, false, 0⟩

/-- An operation on tile `t` that names record 15; `started`: with its bytes. -/
def opT (t : Nat) (started : Bool) : MatOp :=
  ⟨80, 2, t, rec0, rec0, rec0, [15], [], started, [], [], [], [], none, 0, Vector.replicate 8 0, Vector.replicate 16 rec0, 12, 0, 0⟩

/-- The stand with the sequencer's operations `ops` and records: 0 and 1 valid parts of floe 0, 2 an i4x part without scales, 3 not
valid, 4 in global memory, 5 in floe 9. Scalar 7 holds 2^32. -/
def stS (ops : List MatOp) (w : Option Nat) : Stand := { st0 with
  floes := [⟨2, 0, 64, 0⟩, ⟨0, 0, 0, 0⟩, ⟨2, 0, 1, 2⟩]
  seq := { (Seqr.start (some 0x10000) [0, 0, 0, 0]) with
    ops := ops
    wait := w
    x := (Vector.replicate 8 0).setIfInBounds 7 0x100000000
    q := ((((((Vector.replicate 16 rec0).setIfInBounds 0 ⟨0, true, 12, false, 64, 0, false, false, 0⟩).setIfInBounds 1
      ⟨0, true, 13, false, 96, 0, false, false, 0⟩).setIfInBounds 2 ⟨0, true, 14, false, 64, 0, false, false, 0⟩).setIfInBounds 4
      ⟨0x10000, true, 12, true, 64, 0, false, false, 0⟩).setIfInBounds 5 ⟨9, true, 12, false, 64, 0, false, false, 0⟩).setIfInBounds 6
      ⟨2, true, 12, false, 64, 0, false, false, 0⟩ } }

/-- The state in which the sequencer of the stand has the turn. -/
def atS (sf : Stand) : State := { s0 with stands := [sf], cur := some ⟨sf.uid, 16⟩ }

theorem seq_runs (sf : Stand) {i : Instr} (h : i.wellFormed = true) : SeqRuns i (atS sf) sf :=
  { cur := rfl
    stand := by simp [atS, State.stand?]
    wellFormed := h }

theorem witness_SequencerScalarsAndJumps : ∃ s st, SeqRuns (.xadd 7 7 1 7) s st ∧ SeqRuns (.xsub 0 7 0 0x7FFFF) s st ∧ SeqRuns (.xmul 0 7 0 0x40000) s st ∧
    SeqRuns (.xshl 0 7 0 63) s st ∧ SeqRuns (.xshr 0 7 0 64) s st ∧ SeqRuns (.xand 0 7 0 0) s st ∧ SeqRuns (.xior 0 7 0 0) s st ∧
    SeqRuns (.xxor 0 7 0 0) s st ∧ SeqRuns (.xli 7 0x400000) s st ∧ SeqRuns .mnop s st ∧ SeqRuns (.mjmp 0x400000) s st ∧
    SeqRuns (.mloop 0 0x7FFFFA) s st ∧ SeqRuns (.mmode 14) s st ∧ SeqRuns (.mmode 7) s st ∧ ∀ o ∈ st.seq.ops, o.arrived = true :=
  ⟨_, stS [] none, seq_runs _ rfl, seq_runs _ rfl, seq_runs _ rfl, seq_runs _ rfl, seq_runs _ rfl, seq_runs _ rfl, seq_runs _ rfl,
    seq_runs _ rfl, seq_runs _ rfl, seq_runs _ rfl, seq_runs _ rfl, seq_runs _ rfl, seq_runs _ rfl, seq_runs _ rfl, by simp [stS]⟩

/-- Floe 2 the last that the stand has and 3 none; floe 1 not ready; pitches to 2^32, odd ones; a record in use. -/
theorem witness_OperandRecords (i : Instr) (h : i ∈ [Instr.mrecLd 15 0 0 2 0x1FFF, .mrecLd 0 0 0 3 0, .mrecLd 0 0 0 1 0, .mrecLd 0 0 1 0 7,
    .mrecLd 0 1 0 7 1, .mrecSc 15 0 0 2 0x1FFF, .mrecSc 0 1 0 0 1]) (ops : List MatOp) : ∃ r k x n p unit,
      recordWord i = some (r, k, x, n, p, unit) ∧ SeqRuns i (atS (stS ops none)) (stS ops none) := by
  simp only [List.mem_cons, List.not_mem_nil, or_false] at h
  rcases h with rfl | rfl | rfl | rfl | rfl | rfl | rfl <;> exact ⟨_, _, _, _, _, _, rfl, seq_runs _ rfl⟩

theorem witness_OperandRecords_busy : (∃ o ∈ (stS [opT 0 false] none).seq.ops, (15 : BitVec 4).toNat ∈ o.qs ∧ o.arrived = false) ∧
    (stS [] none).floes.map (·.state) = [2, 0, 2] ∧ (vget (stS [] none).seq.x 7 0).toNat = 2 ^ 32 := by
  refine ⟨⟨opT 0 false, by simp [stS], ?_, ?_⟩, ?_, ?_⟩ <;> decide +kernel

/-- Tile 0 is the last that the stand has. -/
theorem witness_OperationsAreHandedOver (i : Instr) (h : i ∈ [Instr.mma 0 0 1, .mma 1 0 1, .mma 0 3 1, .mma 0 2 2, .mma 0 0 2, .mma 0 5 1, .mma 0 6 1, .mmaSp 0 0 1 6,
    .mmaSp 0 0 1 4, .mzero 0, .mzero 15]) (ops : List MatOp) : ∃ kind c l, operationWord i = some (kind, c, l) ∧
      SeqRuns i (atS (stS ops none)) (stS ops none) ∧ (stS ops none).shape.tiles = 1 := by
  simp only [List.mem_cons, List.not_mem_nil, or_false] at h
  rcases h with rfl | rfl | rfl | rfl | rfl | rfl | rfl | rfl | rfl | rfl | rfl <;> exact ⟨_, _, _, rfl, seq_runs _ rfl, rfl⟩

/-- The parts of `mma 0 0 1` fit their floe and those of record 6 do not; e4m3 with e5m2 is a pair, with i4x none. -/
theorem witness_OperationsAreHandedOver_parts : admittedPair 12 13 ∧ ¬ admittedPair 12 14 ∧
    (let q := (stS [] none).seq.q
    floeParts 0 (vget q 0 rec0) (vget q 1 rec0) rec0 = [(0, 128, 64, 64), (0, 64, 96, 96)] ∧ 127 * 64 + 64 ≤ 64 * 256 ∧ 63 * 96 + 96 ≤ 64 * 256 ∧
      (floeParts 0 (vget q 6 rec0) (vget q 1 rec0) rec0).head? = some (2, 128, 64, 64) ∧ 1 * 256 < 127 * 64 + 64) := by
  unfold admittedPair
  decide +kernel

theorem witness_StreamBatches (started : Bool) : let st := withG (stS [opT 0 started] none) (gT 7)
    SeqRuns .mend (atS st) st ∧ SeqRuns .mendGo (atS st) st ∧ st.groves ≠ [] ∧ (∀ o ∈ st.seq.ops, o.arrived = started) ∧ ∃ o ∈ st.seq.ops, o.batch = none :=
  ⟨seq_runs _ rfl, seq_runs _ rfl, by simp [withG], by
    intro o ho
    have : o = opT 0 started := by simpa [withG, stS] using ho
    subst this
    cases started <;> decide +kernel, opT 0 started, by simp [withG, stS], rfl⟩

theorem witness_SequencerFenceAndBarriers (ops : List MatOp) (w : Option Nat) : let st := stS ops w
    st.barriers[15]? = some ⟨0, [], false, false, []⟩ ∧ SeqRuns .mfence (atS st) st ∧ SeqRuns (.mbarArr 15) (atS st) st ∧
      (15 : BitVec 4).toNat < st.seq.barLast.length ∧ SeqRuns (.mbarWait 15) (atS st) st ∧ st.seq.wait = w ∧ st.seq.ops = ops :=
  ⟨rfl, seq_runs _ rfl, seq_runs _ rfl, by simp [stS, Seqr.start], seq_runs _ rfl, rfl, rfl⟩

/-- An `mzero` at work, and an `mma`. -/
theorem witness_OperationsComplete (kind : Nat) (h : kind ∈ [0, 2]) : let o := { opT 0 true with kind := kind, started := true, batch := some 1 }
    let st := stS [o] none
    let s := (atS st).modCore 191 (fun c => { c with mxOp := some ⟨0, 80⟩ })
    (s.d.core 191).mxOp = some ⟨st.uid, o.id⟩ ∧ 191 < s.d.cores.length ∧ s.stand? st.uid = some st ∧
      st.seq.ops.find? (fun k => k.id == o.id) = some o ∧ o.started = true ∧ o.want = [] ∧ o.dataFault = none := by
  simp only [List.mem_cons, List.not_mem_nil, or_false] at h
  rcases h with rfl | rfl <;> refine ⟨?_, ?_, rfl, rfl, rfl, rfl, ?_⟩ <;> decide +kernel

/-! ## Events of the memory system -/

theorem form_of (s : State) (h : (Memory.wf s.m.mem && Memory.wf s.m.hostMem && Memory.wf s.m.staging && spWf 0 s.m.halves &&
    (s.stands ++ s.d.saved).all (fun st => Memory.wf st.scratch)) = true) : MemoryForm s := by
  simp only [Bool.and_eq_true, List.all_eq_true] at h
  exact ⟨h.1.1.1.1, h.1.1.1.2, h.1.1.2, h.1.2, h.2⟩

/-- One grove with stores and write-backs under way; no window; some bytes of line 512 and of host memory are not 0. -/
def sE : State := ((at_ s0 st0 { gT 7 with outStores := 3, outWbs := 2 }).modM (fun m => { m with
  mem := [(0x10000, 1), (0x1007F, 2), (0x10080, 3)]
  hostMem := [(0x700, 4), (0x77F, 5)] })).modD (fun d => { d with windows := [] })

theorem test_form : MemoryForm sE ∧ MemoryForm State.reset := ⟨form_of _ (by decide +kernel), form_of _ (by decide +kernel)⟩

/-- The home slice of line 512 is 80, and holds it. -/
def y512 : L2Line := ⟨80, 2, 512, 0, false, 0, 0, none⟩

/-- A line of core 0 with two stores under way, the first of bytes 8 to 15 with a pull of bytes 16 to 23. -/
def x512 : L1Line := ⟨0, 512, 0, 7, 0xFF, 2 ^ 127, 0, 0, [⟨0xFFFF00, 0xFF00, 0x0900⟩, ⟨0xF000000, 0xF000000, 0⟩], 0, []⟩

/-- A message of core 0 about line 512 that its home has accepted, beside one of another core. -/
def msg (r : Req) : ToSlice := ⟨0, 512, r, 0, 0, 0, 1⟩
def up (r : Req) : State := sE.modM (fun m => { m with toSlice := [⟨4, 512, .read 3 0, 0, 0, 0, 1⟩, msg r], l2 := [y512] })

/-- A message of the home to core 0. -/
def dn (r : Rep) : State := sE.modM (fun m => { m with
  toCore := [⟨4, 512, .wbAck []⟩, ⟨0, 512, r⟩]
  fills := [⟨31, 0, 0, 512, false, true, 0, none, false, false, none⟩]
  firn := [⟨3, 512, 0, 0, 0xFFFFFF⟩]
  l1 := [x512] })

/-- A REG with no other registrant, and one whose word core 7 holds. -/
theorem witness_RegistrationProtocol_reg (fs : List FirnEntry) (h : fs ∈ [[], [⟨3, 512, 7, 0, 0xF⟩]]) :
    let s := (up (.reg 1 ⟨0, 0⟩)).modM (fun m => { m with firn := fs })
    MemoryForm s ∧ AtHome s (msg (.reg 1 ⟨0, 0⟩)) ∧ HbmLine s 512 ∧ (l2Home s 512).isSome ∧ homeSlice s 512 = 80 ∧ s.m.firn.length < 8192 ∧
      s.m.firn.filter (fun e => e.line == 512) = fs ∧ ∀ e ∈ fs, e.core ≠ 0 ∧ wordsOf e.mask &&& wordsOf 1 ≠ 0#128 := by
  simp only [List.mem_cons, List.not_mem_nil, or_false] at h
  unfold HbmLine
  rcases h with rfl | rfl <;>
    exact ⟨form_of _ (by decide +kernel), ⟨by decide +kernel, by decide, by decide +kernel, by decide +kernel⟩, by decide +kernel⟩

/-- The grant of a store with a pull beside it, a forward, and a recall of registered bytes; a reply with a read copy. -/
theorem witness_RegistrationProtocol_core : MemoryForm (dn (.grant 0xFFFF00 ⟨0, 0⟩)) ∧ AtCore (dn (.grant 0xFFFF00 ⟨0, 0⟩)) 0 512 (.grant 0xFFFF00 ⟨0, 0⟩) ∧
    AtCore (dn (.fwd 0xF)) 0 512 (.fwd 0xF) ∧ AtCore (dn (.recall 0xF)) 0 512 (.recall 0xF) ∧
    AtCore (dn (.fill 31 ⟨9, 1, 1, 4, 4⟩)) 0 512 (.fill 31 ⟨9, 1, 1, 4, 4⟩) ∧
    AtCore (dn (.atomDone ⟨0, 0⟩ 31 5 1)) 0 512 (.atomDone ⟨0, 0⟩ 31 5 1) ∧ AtCore (dn (.atomBad ⟨0, 0⟩ 31 true 4)) 0 512 (.atomBad ⟨0, 0⟩ 31 true 4) ∧
    AtCore (dn (.wbAck [⟨0, 0⟩])) 0 512 (.wbAck [⟨0, 0⟩]) ∧
    l1Find (dn (.fwd 0)) 0 512 = some x512 ∧ windowAt (dn (.fwd 0)) (512 * 128) = none ∧
    (∀ i, 16 ≤ i → i < 24 → (0xFFFF00 : ByteMask).getLsbD i = true ∧ (0xFF00 : ByteMask).getLsbD i = false ∧ x512.reg.getLsbD i = false ∧
      (inFlight (dn (.fwd 0)) 0 512).getLsbD i = false) ∧
    (0xFF : ByteMask) &&& 0xF ≠ 0#128 ∧
    (dn (.fwd 0)).m.fills.find? (fun f => f.id == 31) = some ⟨31, 0, 0, 512, false, true, 0, none, false, false, none⟩ := by
  unfold AtCore
  exact ⟨form_of _ (by decide +kernel), by decide +kernel⟩

/-- The first of two answers awaited, to a read and to a recall of the registrant; a write-back of it, waited for or not. -/
theorem witness_RegistrationProtocol_answers (fw : Bool) (ws : List Who) (h : ws ∈ [[], [⟨0, 0⟩]]) :
    let lw : LineWait := ⟨512, 5, .reg 1 ⟨0, 0⟩, 0, [0, 9], [], 0, 0, 0⟩
    let s := (up (.data fw 0xF 9 0xF)).modM (fun m => { m with lineWaits := [lw], firn := [⟨3, 512, 0, 0, 0xFF⟩] })
    let r := (up (.wb 0xFF 9 0xFF ws)).modM (fun m => { m with firn := [⟨3, 512, 0, 0, 0xFF⟩] })
    MemoryForm s ∧ AtHome s (msg (.data fw 0xF 9 0xF)) ∧ s.m.lineWaits.find? (fun w => w.line == 512) = some lw ∧ [0, 9].erase 0 ≠ [] ∧
      s.m.firn.filter (fun e => e.line == 512) = [⟨3, 512, 0, 0, 0xFF⟩] ∧ (0xF : ByteMask) &&& ~~~wordsOf 0xFF = 0#128 ∧
      wordsOf lw.req.mask &&& wordsOf 0xFF &&& ~~~wordsOf 0xF = 0#128 ∧
      MemoryForm r ∧ AtHome r (msg (.wb 0xFF 9 0xFF ws)) ∧ r.m.firn.filter (fun e => e.line == 512) = [⟨3, 512, 0, 0, 0xFF⟩] := by
  simp only [List.mem_cons, List.not_mem_nil, or_false] at h
  rcases h with rfl | rfl <;> cases fw <;>
    exact ⟨form_of _ (by decide +kernel), ⟨by decide +kernel, by decide, by decide +kernel, by decide +kernel⟩, by decide +kernel, by decide,
      by decide +kernel, by decide +kernel, by decide +kernel, form_of _ (by decide +kernel),
      ⟨by decide +kernel, by decide, by decide +kernel, by decide +kernel⟩, by decide +kernel⟩

/-- A write-back of a line that no slice holds, whose stack is held for a recalibration, or not. -/
theorem witness_RegistrationProtocol_held (b : Bool) :
    let u := (up (.wb 0xFF 9 0xFF [])).modM (fun m => { m with firn := [⟨3, 512, 0, 0, 0xFF⟩], l2 := [] })
    let s := u.modMgmt (fun m => { m with heldStacks := if b then [stackOf 0x10000] else [] })
    MemoryForm s ∧ AtHome s (msg (.wb 0xFF 9 0xFF [])) ∧ (l2Home s 512).isNone = true ∧ stackHeld s 512 = b := by
  cases b <;> exact ⟨form_of _ (by decide +kernel), ⟨by decide +kernel, by decide, by decide +kernel, by decide +kernel⟩, by decide +kernel⟩

/-- The lost core 0 has registered words of a line that no group decodes from. -/
theorem witness_RegistrationProtocol_lost : let s := (up (.read 55 0)).modM (fun m => { m with firn := [⟨3, 512, 0, 0, 0xFF⟩] })
    MemoryForm s ∧ 0 < s.d.cores.length ∧ s.m.lineWaits = [] ∧ windowAt s (512 * 128) = none ∧ s.m.groups = [] ∧
      (wordsOf 0xFF).getLsbD (4 * 1) = true := by
  exact ⟨form_of _ (by decide +kernel), by decide +kernel⟩

/-- A read, and an atomic on the last word. -/
theorem witness_RegistrationProtocol_home (r : Req) (h : r ∈ [.read 55 0, .atom ⟨0, 0x1007C, 4, 1, 0, 6, 0, 31⟩ ⟨0, 0⟩]) :
    MemoryForm (up r) ∧ AtHome (up r) (msg r) ∧ HbmLine (up r) 512 ∧ (l2Home (up r) 512).isSome ∧ (up r).m.firn = [] ∧ (up r).m.lost = [] ∧
      (up r).m.poison = [] ∧
      0x1007C / 128 = 512 ∧ 0x1007C % 128 + 4 ≤ 128 ∧ 0 < sE.d.cores.length ∧ sE.m.lineWaits = [] := by
  simp only [List.mem_cons, List.not_mem_nil, or_false] at h
  unfold HbmLine
  rcases h with rfl | rfl <;>
    exact ⟨form_of _ (by decide +kernel), ⟨by decide +kernel, by decide, by decide +kernel, by decide +kernel⟩, by decide +kernel⟩

/-- The stand 7 of partition 0, with `used` transfers in this refill interval of BWTOK `bw`. -/
def stP (bw used : Nat) : Stand := { withG st0 (gT 7) with uid := 7, shape := { Shape.single with bwtok := bw }, bwUsed := used }

/-- A waiting read, with the context unmetered, with a token, with one of the spare pool, and with none; BWTOK left, at its end
or unmetered. -/
theorem witness_MemoryAgents_port (rate level sp bw used : Nat) (h : (rate, level, sp, bw, used) ∈ [(0, 0, 0, 9, 8), (5, 1, 0, 9, 8),
      (5, 0, 1, 0xFFFF, 0x10000), (5, 0, 0, 9, 8), (5, 1, 0, 9, 9)]) :
    let m : ToSlice := ⟨0, 512, .read 31 0, 7, 0, 0, 3⟩
    let s := { sE.modM (fun m => { m with
      toSlice := [⟨0, 512, .read 31 0, 7, 0, 0, 3⟩]
      l2 := [y512]
      tbNow := spSet 0 [] 0 (4096 * rate + 5)
      buckets := [⟨80, 0, 0, level⟩]
      spare := [(80, sp)] }) with stands := [stP bw used] }
    MemoryForm s ∧ s.m.toSlice.find? (fun t => t.core == m.core && t.line == m.line && unpaid s t) = some m ∧ m.arr ≠ 0 ∧ firstOfCtx s m = true ∧
      m.paid = 0 ∧ (s.stand? 7).map (fun st => (st.shape.bwtok, st.bwUsed)) = some (bw, used) ∧ ctxOf s m = some 0 ∧ (tbNow s 0 0).1 = rate ∧
      bucketLevel s (homeSlice s 512) 0 0 = level ∧ spareLevel s (homeSlice s 512) = sp ∧ carries m.req = true ∧ spareForMsg s m = true := by
  simp only [List.mem_cons, List.not_mem_nil, or_false, Prod.mk.injEq] at h
  rcases h with ⟨rfl, rfl, rfl, rfl, rfl⟩ | ⟨rfl, rfl, rfl, rfl, rfl⟩ | ⟨rfl, rfl, rfl, rfl, rfl⟩ | ⟨rfl, rfl, rfl, rfl, rfl⟩ | ⟨rfl, rfl, rfl, rfl, rfl⟩ <;>
    exact ⟨form_of _ (by decide +kernel), by decide +kernel⟩

/-- A message that carries no line needs no BWTOK; an older message of another context takes the spare token first. -/
theorem witness_MemoryAgents_spare (old : Bool) :
    let m : ToSlice := ⟨0, 512, .reg 1 ⟨0, 0⟩, 7, 0, 0, 3⟩
    let o : ToSlice := ⟨4, 512, .read 31 0, 0, 0, 0, if old then 2 else 9⟩
    let s := { sE.modM (fun k => { k with
      toSlice := [m, o]
      l2 := []
      tbNow := spSet 0 [] 0 (4096 * 5 + 5)
      buckets := [⟨80, 0, 0, 0⟩]
      spare := [(80, 1)] }) with stands := [stP 9 9, { stP 9 0 with uid := 0 }] }
    MemoryForm s ∧ s.m.toSlice.find? (fun t => t.core == m.core && t.line == m.line && unpaid s t) = some m ∧ carries m.req = false ∧
      ctxOf s m = some 0 ∧ homeSlice s 512 = 80 ∧ (tbNow s 0 0).1 = 5 ∧ bucketLevel s 80 0 0 = 0 ∧ spareLevel s 80 = 1 := by
  cases old <;> exact ⟨form_of _ (by decide +kernel), by decide +kernel⟩

/-- The refill and the new count of BWTOK, due and not. -/
theorem witness_MemoryAgents_due (b : Bool) : let s := sE.modD (fun d => { d with tbDue := b, bwDue := b })
    MemoryForm s ∧ s.d.tbDue = b ∧ s.d.bwDue = b ∧ (s.d.part 0).alive = true ∧ (s.d.part 0).depth0 < 4096 ∧ (s.d.part 0).depth1 < 4096 := by
  cases b <;> exact ⟨form_of _ (by decide +kernel), by decide +kernel⟩

/-- A conversion of core 191 with an older fill under way, with a younger one, and without. -/
theorem witness_MemoryAgents_conversion (fs : List Fill) (h : fs ∈ [[], [⟨31, 0, 191, 512, false, false, 0, none, false, false, none⟩],
      [⟨32, 0, 191, 512, false, false, 0, none, false, false, none⟩]]) :
    let s := (sE.modM (fun m => { m with fills := fs, l1 := [{ x512 with core := 191, way := 3 }] })).modCore 191 (fun c => { c with conv := some ⟨0, 5, 4, 32⟩ })
    MemoryForm s ∧ (s.d.core 191).conv = some ⟨0, 5, 4, 32⟩ ∧ 191 < s.d.cores.length ∧ s.m.fills = fs ∧ ∀ y ∈ s.m.l1, y.core = 191 → y.way < 4 := by
  simp only [List.mem_cons, List.not_mem_nil, or_false] at h
  rcases h with rfl | rfl | rfl <;> exact ⟨form_of _ (by decide +kernel), by decide +kernel⟩

/-- A group of the window 0 at its base, filling or full, with its last block written; all its lines allocated. Its fill is on
account of no context, of one that is unmetered, or of one with a bucket that holds, or lacks, the tokens for its coded lines. -/
theorem witness_MemoryAgents_group (filling : Bool) (wr : List Nat) (ctx lvl : Nat) (h : wr ∈ [[], [7]])
    (hc : (ctx, lvl) ∈ [(40, 0), (2, 0), (0, 1), (0, 0)]) :
    let w : Window := { Window.reset with en := true, kind := 0, dim := 1, q := 4, cbase := 0x20000, abase := 0x100000000000, alen := 16 }
    let u := sE.modD (fun d => { d with windows := [w] })
    let s := u.modM (fun m => { m with
      groups := [⟨0, 0x100000000000, filling, List.replicate 128 1, wr, [], ctx⟩]
      tbNow := spSet 0 [] 0 (4096 * 5 + 9)
      buckets := [⟨homeSlice u (0x100000000000 / 128), 0, 0, lvl⟩]
      l2 := (List.range (w.groupBytes / 128)).map (fun l => ⟨0, 0, 0x100000000000 / 128 + l, 0, false, 0, 0, none⟩) })
    MemoryForm s ∧ findGroup s 0x100000000000 = some ⟨0, 0x100000000000, filling, List.replicate 128 1, wr, [], ctx⟩ ∧ s.m.lineWaits = [] ∧
      s.d.mgmt.heldStacks = [] ∧ (∀ l, l < w.groupBytes / 128 → (l2Home s (0x100000000000 / 128 + l)).isSome) ∧
      s.m.firn = [] ∧ (∀ y ∈ s.m.l2, y.pins = 0) ∧ s.m.lost = [] ∧ 7 * (w.geom.n * w.e) + w.geom.n * w.e ≤ w.groupBytes ∧
      ((w.groupBlocks 0x100000000000).flatMap w.codeLines).eraseDups.length = 1 ∧ (40 ≤ ctx ∨ (tbNow s (ctx / 2) (ctx % 2)).1 = 0 ∨ ctx = 0) ∧
      bucketLevel s (homeSlice s (0x100000000000 / 128)) 0 0 = lvl := by
  simp only [List.mem_cons, List.not_mem_nil, or_false, Prod.mk.injEq] at h hc
  rcases h with rfl | rfl <;> rcases hc with ⟨rfl, rfl⟩ | ⟨rfl, rfl⟩ | ⟨rfl, rfl⟩ | ⟨rfl, rfl⟩ <;> cases filling <;> exact ⟨form_of _ (by decide +kernel), by decide +kernel⟩

/-- A pin on a line with 254 pins, and on one with none. -/
theorem witness_MemoryAgents_pin (n : Nat) (h : n ∈ [0, 254]) : let s := sE.modM (fun m => { m with
      pinQueue := [⟨512, 0, 9⟩]
      l2 := [{ y512 with pins := n }] })
    MemoryForm s ∧ s.m.pinQueue = [⟨512, 0, 9⟩] ∧ (s.stand? 0).isSome = true ∧ groupReady s 512 = true ∧
      l2Home s 512 = some { y512 with pins := n } ∧ s.d.mgmt.heldStacks = [] ∧ (n = 0 → ∀ z ∈ s.m.l2, z.pins = 0) := by
  simp only [List.mem_cons, List.not_mem_nil, or_false] at h
  rcases h with rfl | rfl <;> refine ⟨form_of _ ?_, rfl, ?_, ?_, ?_, rfl, ?_⟩ <;> decide +kernel

/-- An operation to start: on a unit whose operation still reads, on one that has read, on a free one. -/
theorem witness_MemoryAgents_start (x : Option Who) (h : x ∈ [none, some ⟨1, 3⟩, some ⟨0, 80⟩]) :
    let o := { opT 0 false with id := 81 }
    let st := stS [opT 0 true, o] none
    let s := (atS st).modCore 0 (fun c => { c with mxOp := x })
    MemoryForm s ∧ s.stands = [st] ∧ (st.core == 0 && st.seq.ops.any (fun o => !o.started)) = true ∧
      st.seq.ops.find? (fun o => !o.started) = some o ∧ (s.d.core 0).quarantined = false ∧ swapping s 0 = false ∧
      s.stand? 0 = some st ∧ (s.d.core 0).mxOp = x ∧ unitTakes s 0 = decide (x ≠ some ⟨1, 3⟩) ∧ ∀ p ∈ o.parts, p.src = false := by
  simp only [List.mem_cons, List.not_mem_nil, or_false] at h
  rcases h with rfl | rfl | rfl <;> exact ⟨form_of _ (by decide +kernel), rfl, rfl, rfl, by decide +kernel, by decide +kernel, rfl, rfl, by decide +kernel⟩

/-- The last lane of a split load into v48 to v55: before it is sent, and with its line. -/
theorem witness_MemoryAgents_ldx (sent : Bool) (val : Option Nat) :
    let l : LdxLane := ⟨31, 0x10000, [⟨0x10000, 64, 0⟩], 0, true, sent, [], if sent then [(512, ⟨9, 0, 0, 0, 0⟩)] else [], val⟩
    let e : LdxExec := ⟨44, 0, 15, false, 0xF0, 8, [l], true⟩
    let g := { gT 7 with ldx := [e] }
    let s := at_ sL st0 g
    MemoryForm s ∧ s.stand? 0 = some (withG st0 g) ∧ (withG st0 g).grove? 0 = some g ∧ opNum e.dst + e.size ≤ 56 ∧ 31 < g.lam ∧
      (∀ k, k < 64 → homeOpOut s 0 ((0x10000 + k) / 128) = false ∧ L1Holds s 0 (0x10000 + k) true) ∧
      l.val = val ∧ (sent = true → ∀ k, k < 64 → removedAt s (0x10000 + k) = false ∧ ∃ d, l.got.find? (fun y => y.1 == (0x10000 + k) / 128) = some ((0x10000 + k) / 128, d) ∧
        d.poison.getLsbD ((0x10000 + k) % 128) = false ∧ d.lost.getLsbD ((0x10000 + k) % 128) = false) := by
  refine ⟨form_of _ (by cases sent <;> cases val <;> rfl), rfl, rfl, (show opNum 0xF0 + 8 ≤ 56 by decide), (show 31 < 32 by decide),
    fun k hk => ⟨?_, holds_of ?_⟩, rfl, fun hs k hk => ?_⟩
  · rfl
  · have h : (List.range 64).all (fun k => holdsB (at_ sL st0 (gT 7)) 0 (0x10000 + k) true) = true := by decide +kernel
    exact List.all_eq_true.mp h k (List.mem_range.mpr hk)
  · subst hs
    refine ⟨?_, ⟨9, 0, 0, 0, 0⟩, ?_, by simp, by simp⟩
    · have h : (List.range 64).all (fun k => !removedAt sL (0x10000 + k)) = true := by decide +kernel
      exact (Bool.not_eq_true' _).mp (List.all_eq_true.mp h k (List.mem_range.mpr hk))
    rw [show (0x10000 + k) / 128 = 512 by omega]
    rfl

/-! ## The host and other modules -/

def spanB (s : State) (a n : Nat) : Bool := decide (0 < n) &&
  (List.range n).all (fun k => decide (a + k < 0x00B2D05E0000) && !hostBarred s (a + k) && decide (windowAt s (a + k) = none) &&
    decide (windowAt s ((a + k) / 128 * 128) = none) &&
    s.m.lineWaits.all (fun w => w.line != (a + k) / 128) && s.m.firn.all (fun e => e.line != (a + k) / 128) && (l2Home s ((a + k) / 128)).isSome)

theorem span_of {s : State} {a n : Nat} (h : spanB s a n = true) : HbmSpan s a n := by
  simp only [spanB, Bool.and_eq_true, decide_eq_true_eq, List.all_eq_true, List.mem_range, Bool.not_eq_true', bne_iff_ne] at h
  exact ⟨h.1, fun k hk => ⟨(h.2 k hk).1.1.1.1.1.1, (h.2 k hk).1.1.1.1.1.2, (h.2 k hk).1.1.1.1.2, (h.2 k hk).1.1.1.2⟩,
    fun k hk => ⟨(h.2 k hk).1.1.2, (h.2 k hk).1.2⟩, fun k hk => (h.2 k hk).2⟩

/-- The slices hold the lines of these accesses. -/
def sH : State := sE.modM (fun m => { m with
  l2 := [(80, 512), (81, 513), (47, 0x00B2D05DFFFF / 128)].map (fun l => ⟨l.1, 0, l.2, 0, false, 0, 0, none⟩) })

/-- Bytes across two lines, the last of HBM, a half, an element; the first address beyond. -/
theorem witness_HostAndModuleRequests_span : MemoryForm sH ∧ HbmSpan sH 0x1007F 2 ∧ HbmSpan sH 0x00B2D05DFFFF 1 ∧ HbmSpan sH (64 * 1024) 64 ∧
    HbmSpan sH 0x10078 8 ∧ (∀ h, HostLeaves sH h 9) ∧ regionOf sH 0x00B2D05E0000 = .hole ∧ halfState sH 1024 = 0 :=
  ⟨form_of _ (by decide +kernel), span_of (by decide +kernel), span_of (by decide +kernel), span_of (by decide +kernel), span_of (by decide +kernel),
    fun h k hk => by show spGet 0 [] _ ≠ 2; simp [spGet], by decide +kernel⟩

/-- A barred address of a coded range (02 R55); a half that the host holds; its data awaited; a probe of the owner's tag. -/
theorem witness_HostAndModuleRequests_other :
    (let s := sE.modD (fun d => { d with windows := [{ Window.reset with en := true, kind := 2, cbase := 0x20000, abase := 0x100000000000, alen := 1 }] })
    MemoryForm s ∧ hostBarred s 0x20000 = true) ∧
    (let s := sH.modM (fun m => { m with halves := [(1025, 2)] })
    MemoryForm s ∧ halfState s 1025 = 2 ∧ HbmSpan s (64 * 1025) 64) ∧
    (let lw : LineWait := ⟨512, 5, .read 4 0, 0, [3], [1025], 0, 0, 0⟩
    let s := sE.modM (fun m => { m with halves := [(1025, 2)], lineWaits := [lw] })
    MemoryForm s ∧ s.m.lineWaits.find? (fun w => w.line == 1025 / 2 && w.halves.contains 1025) = some lw ∧
      s.m.lineWaits.find? (fun w => w.line == 1025 / 2) = some lw ∧ lw.need ≠ []) ∧
    partOfCore sE 0 = 0 ∧ l1Find (dn (.fwd 0)) 0 512 = some x512 ∧ x512.reg ≠ 0#128 ∧ x512.asked &&& wordsOf x512.reg = 0#128 ∧
    { x512 with pend := [⟨1, 1, 0⟩] }.asked &&& wordsOf x512.reg ≠ 0#128 := by
  refine ⟨⟨form_of _ ?_, ?_⟩, ⟨form_of _ ?_, ?_, span_of ?_⟩, ⟨form_of _ ?_, ?_⟩, ?_⟩ <;> decide +kernel

/-- A push and an AtomicOp at the head of the link's queue. -/
theorem witness_HostAndModuleRequests_link (p : HostPend) (h : p ∈ [.push 0x3000000000 3 9 [⟨0, 0⟩], .push 0x3000000000 3 9 [],
      .atom ⟨6, 0x180000000000, 4, 1, 0, 6, 0, 31⟩ ⟨0, 0⟩]) :
    let s := (sE.modM (fun m => { m with hostQ := [p] })).modMgmt (fun m => { m with hostbase := 0x700 })
    MemoryForm s ∧ s.m.hostQ = [p] ∧ ((s.stand? 0).bind (fun st => st.grove? 0)).isSome = true := by
  simp only [List.mem_cons, List.not_mem_nil, or_false] at h
  rcases h with rfl | rfl | rfl <;> exact ⟨form_of _ (by decide +kernel), rfl, by decide +kernel⟩

/-- A store of the host with no device word registered or under way to it. -/
theorem witness_HostAndModuleRequests_store : MemoryForm sE ∧ sE.m.firn = [] ∧ sE.m.hostQ = [] := ⟨form_of _ (by decide +kernel), rfl, rfl⟩

/-- Firmware that runs, on a module without a fatal error. -/
theorem witness_HostAndModuleRequests_firmware (on : Bool) : let s := sH.modMgmt (fun m => { m with fwRunning := on })
    MemoryForm s ∧ s.d.mgmt.fatal = none ∧ s.d.mgmt.fwRunning = on ∧ HbmSpan s 0x1007F 2 := by
  cases on <;> exact ⟨form_of _ (by decide +kernel), rfl, rfl, span_of (by decide +kernel)⟩

/-! ## Stands, bins, copies, traps, pre-emption, drift -/

/-- No window, so that memory is read fast. -/
def sN : State := s0.modD (fun d => { d with windows := [] })

theorem sN_form (sf : Stand) (g : Grove) (h : Memory.wf sf.scratch = true) : MemoryForm (at_ sN sf g) :=
  ⟨rfl, rfl, rfl, rfl, by
    intro st hs
    have : st = withG sf g := by simpa [at_, sN, s0, withG, State.modD, State.modPart, State.reset, Dev.reset] using hs
    subst this; exact h⟩

theorem at_stand (s : State) (sf : Stand) (g : Grove) : (at_ s sf g).stand? sf.uid = some (withG sf g) := (acts_at s sf g).stand
theorem at_has (s : State) (sf : Stand) (g : Grove) : Has (at_ s sf g) sf.uid g.slot (withG sf g) g := ⟨(acts_at s sf g).stand, (acts_at s sf g).grove⟩

/-- A `spawn` of the last lane waits for the last place of its bin. -/
theorem witness_StandEvents_deposit : let g := { gBin 0x10040 0x80000000 with held := some (.spawn 30 55 31), wait := .deposit }
    let s := at_ sN (stBin 31) g
    let st := withG (stBin 31) g
    MemoryForm s ∧ Has s 0 0 st g ∧ runnable s st g = true ∧ lanesOf g g.enabled = [31] ∧ g.prog.done = 0#1024 ∧ g.outStores = 0 ∧
      st.bins = [⟨some (scalarSource g 30, (scalarSource g 31).setWidth 16), List.replicate 31 [1], 4096, none⟩] ∧
      (55 : BitVec 8).toNat % 64 + st.shape.recw ≤ 56 ∧ 55 + st.shape.recw ≤ g.boundary ∧ (scalarSource g 30).toNat % 4 = 0 ∧ 31 < st.shape.lanes ∧
      g.ldx = [] ∧ binsBusy s st = false ∧ g.prog = Prog.none ∧ g.single = none :=
  ⟨sN_form _ _ rfl, at_has _ _ _, by decide +kernel⟩

/-- The second lane of two, the first of which has deposited; and a stand with a bin that has run out. -/
theorem witness_StandEvents_deposit_last : let g := { gBin 0x10040 0xC0000000 with
      held := some (.spawn 30 55 31)
      wait := .deposit
      prog := { Prog.none with done := 0x40000000 } }
    let b := { stBin 30 with bins := (stBin 30).bins ++ [⟨some (8, 9), [[1]], 0, none⟩] }
    MemoryForm (at_ sN (stBin 31) g) ∧ runnable (at_ sN (stBin 31) g) (withG (stBin 31) g) g = true ∧
      (lanesOf g g.enabled).filter (fun l => !g.prog.done.getLsbD l) = [31] ∧ g.prog ≠ Prog.none ∧ binsBusy (at_ sN (stBin 31) g) (withG (stBin 31) g) = false ∧
      binsBusy (at_ sN b g) (withG b g) = true :=
  ⟨sN_form _ _ rfl, by decide +kernel⟩

/-- A bin whose timer has run out, and the second of two that launch, into the slot above the running grove's. -/
theorem witness_StandEvents_bins : let b : Bin := ⟨some (0x10040, 5), List.replicate 32 [7], 0, none⟩
    let sf := { st0 with shape := { Shape.single with groves := 2 }, bins := [⟨some (8, 9), [[1]], 3, some 6⟩, { b with launching := some 4 }] }
    let st := withG sf (gT 7)
    let s := at_ sN sf (gT 7)
    MemoryForm (at_ sN { st0 with bins := [b] } (gT 7)) ∧ (at_ sN { st0 with bins := [b] } (gT 7)).stand? 0 = some (withG { st0 with bins := [b] } (gT 7)) ∧
      b.key.isSome ∧ b.recs ≠ [] ∧
      MemoryForm s ∧ s.stand? 0 = some st ∧ draining s st = false ∧ (1, s.d.clkCount) ∉ st.freed ∧
      (∀ (j : Nat) (x : Bin) (p : Nat), j ≠ 1 → st.bins[j]? = some x → x.launching = some p → 4 < p) ∧ 1 < st.shape.groves ∧
      (∀ h ∈ st.groves, h.slot ≠ 1) ∧ (∀ j, j < 1 → ∃ h ∈ st.groves, h.slot = j) ∧ b.recs.length ≤ st.shape.lanes ∧
      ∀ x ∈ st.bins, x.expired = false := by
  refine ⟨sN_form _ _ rfl, at_stand _ _ _, rfl, by decide, sN_form _ _ rfl, at_stand _ _ _, by decide +kernel, by decide +kernel, ?_, by decide, ?_, ?_, by decide, by decide⟩
  · rintro (_ | _ | j) x p hj hx hp
    · have hx : some _ = some x := hx
      cases hx; cases hp; decide
    · exact absurd rfl hj
    · cases hx
  · intro h hh
    have : h = gT 7 := by simpa [withG] using hh
    subst this; decide
  · intro j hj
    exact ⟨gT 7, by simp [withG], by simp only [gT, Grove.start]; omega⟩

/-- A copy of scratch to scratch: 100 bytes from 0, the second chunk the last, into the last bytes of the reservation. -/
def cp0 (ch : Nat) : Copy := { Copy.new 33 2 0 true true with slices := [⟨0, 924, 0, BitVec.ofNat 64 (100 + 2 ^ 32 + 2 ^ 36), 0⟩], chunk := ch }
def stC (c : Copy) : Stand := { st0 with scratch := [(3, 1), (99, 2)], copy := { st0.copy with queue := [Copy.new 32 0 0 true false, c] } }

theorem witness_StandEvents_chunk (ch : Nat) (h : ch ∈ [0, 1]) : let c := cp0 ch
    let st := withG (stC c) (gT 7)
    let s := at_ sN (stC c) (gT 7)
    ∃ sl, MemoryForm s ∧ s.stand? 0 = some st ∧ st.copy? 33 = some c ∧ c.kind = 2 ∧ c.slices = [sl] ∧ c.cur = 0 ∧ c.started = true ∧
      c.landing = false ∧ c.abandoned = false ∧ contextRuns s st = true ∧ sl.dk 2 = 1 ∧ sl.sk 2 = 1 ∧ sl.xf = 0 ∧ c.recvs = [] ∧
      c.batch = none ∧ c.counted = [] ∧ s.m.hostQ = [] ∧ st.groves ≠ [] ∧ 64 * c.chunk < sl.len 2 ∧
      sl.s.toNat % 2 ^ 32 + 64 * c.chunk + min 64 (sl.len 2 - 64 * c.chunk) ≤ st.scratchSize := by
  simp only [List.mem_cons, List.not_mem_nil, or_false] at h
  rcases h with rfl | rfl <;> exact ⟨⟨0, 924, 0, BitVec.ofNat 64 (100 + 2 ^ 32 + 2 ^ 36), 0⟩, sN_form _ _ (by decide), at_stand _ _ _, by decide +kernel⟩

/-- Two stands; the copy of the first lands in both. -/
theorem witness_StandEvents_landing :
    let sl : CopySlice := ⟨0, 512, 0x10000, 100, 0⟩
    let c : Copy := { Copy.new 33 1 0 true true with
      slices := [sl]
      chunk := 1
      landing := true
      buf := [7, 8]
      recvs := [⟨7, true, false⟩, ⟨0, true, false⟩] }
    let y := { st0 with uid := 7 }
    let s := { sN with stands := [stC c, y] }
    MemoryForm s ∧ s.stand? 0 = some (stC c) ∧ (stC c).copy? 33 = some c ∧ s.stand? 7 = some y ∧
      (∃ r ∈ c.recvs, r.uid = 7 ∧ r.pending = true) ∧ (∃ r ∈ c.recvs, r.uid ≠ 7 ∧ r.pending = true ∧ recvAlive s r.uid = true) ∧
      c.next.isSome ∧ c.slices[c.cur]? = some sl :=
  ⟨form_of _ (by decide +kernel), rfl, rfl, rfl, by decide +kernel⟩

/-- A copy that leaves the reservation (ENGINE 0x0C), and the grove of the lowest slot. -/
theorem witness_StandEvents_fault :
    let c : Copy := { Copy.new 33 2 0 true true with slices := [⟨0, 0, 1020, BitVec.ofNat 64 (100 + 2 ^ 32 + 2 ^ 36), 0⟩] }
    let st := withG (stC c) (gT 7)
    let s := at_ sN (stC c) (gT 7)
    MemoryForm s ∧ s.stand? 0 = some st ∧ st.copy? 33 = some c ∧ contextRuns s st = true ∧
      copyFails s st c = some (.fault 12 0) ∧ st.groves = [gT 7] ∧ c.started = true ∧ c.landing = false ∧ c.abandoned = false :=
  ⟨sN_form _ _ (by decide), at_stand _ _ _, rfl, by decide +kernel, by decide +kernel, rfl, rfl, rfl, rfl⟩

/-- A table load whose 256 lines have come. -/
def cT (k : Nat) : Copy := { Copy.new 33 3 0 true true with
  slices := [⟨0, 0, 0x10000, 0, 0⟩]
  bank := k
  fetched := (List.range 256).map (fun i => (512 + i, false)) }

/-- Eight pages, whose lines their slices hold. -/
def sT : State := sN.modM (fun m => { m with
  l2 := (List.range 256).map (fun i => ⟨0, 0, 512 + i, 0, false, 0, 0, none⟩)
  tlb := (List.range 8).map (fun i =>
  { page0 with vpage := 16 + i, base := 0x10000 + 4096 * i, pa := 0x10000 + 4096 * i }) })

theorem mapM_ok {α β ε : Type} {f : α → Except ε β} {g : α → β} {l : List α} (h : ∀ x ∈ l, f x = .ok (g x)) :
    l.mapM f = .ok (l.map g) := by
  induction l with
  | nil => rfl
  | cons x l ih =>
    rw [List.mapM_cons, h x (by simp), ih (fun y hy => h y (by simp [hy]))]
    rfl

theorem maskOf_false : maskOf (fun _ => false) = 0#128 := by decide +kernel

theorem curLine_clean {s : State} {line : Nat} (h : line * 128 < 0x00B2D05E0000) (h1 : s.m.poison = []) (h2 : s.m.lost = [])
    (h3 : s.m.firn = []) : (curLine s line).poison = 0#128 ∧ (curLine s line).lost = 0#128 := by
  have hr : regionOf s (line * 128) = .hbm := if_pos h
  have hv : removedAt s (line * 128) = false := by simp only [removedAt, hr]
  have hh : homeLine s line = ⟨bytesAsLine 0 (memBytes s.m.mem (line * 128) 128), 0, 0#128, s.stamp, s.stamp⟩ := by
    simp only [homeLine, hr, linePoisoned, h1, h2, hv, List.contains_nil, Bool.or_self, Bool.false_eq_true, if_false, maskOf_false]
  have hc : curLine s line = ⟨bytesAsLine 0 (memBytes s.m.mem (line * 128) 128), 0, 0#128, s.stamp, s.stamp⟩ := by
    simp only [curLine, hr, hh, hv, firnOf, h3, List.filter_nil, List.foldl_nil, Bool.false_eq_true, if_false]
  rw [hc]
  exact ⟨rfl, rfl⟩

theorem ctx_clean {s : State} {q : Seg} (h : isRemote q.pa = false)
    (hl : ((List.range ((q.pa + q.len - 1) / 128 - q.pa / 128 + 1)).all (fun i =>
      (curLine s (q.pa / 128 + i)).poison == 0#128 && (curLine s (q.pa / 128 + i)).lost == 0#128)) = true) :
    (ctxBytes s q).length = q.len ∧ ∀ b ∈ ctxBytes s q, ¬ ((b.2.1 || b.2.2) = true) := by
  rw [ctxBytes, if_neg (by simp [h]), curBytes]
  refine ⟨by simp, fun b hb => ?_⟩
  obtain ⟨i, -, rfl⟩ := List.mem_map.mp hb
  dsimp only
  split
  · rename_i x hx
    obtain ⟨k, hk, rfl⟩ := List.mem_map.mp (List.mem_of_find?_eq_some hx)
    have := List.all_eq_true.mp hl k hk
    simp only [Bool.and_eq_true, beq_iff_eq] at this
    simp [this.1, this.2]
  · simp

theorem tableRead_cons {s : State} {st : Stand} {c : Copy} {sl : CopySlice} {r : List CopySlice} (h : c.slices = sl :: r) :
    tableRead s st c = ctxRead s st c sl.s.toNat 32768 := by rw [tableRead, h]

theorem ctxRead_ok {s : State} {st : Stand} {c : Copy} {va n : Nat} {segs : List Seg} (h : ctxRuns s st c va n accRead = .ok segs)
    (hu : unfetched s st c false segs = none)
    (hb : ∀ b ∈ segs.flatMap (ctxBytes s), ¬ ((b.2.1 || b.2.2) = true)) : ctxRead s st c va n = .ok ((segs.flatMap (ctxBytes s)).map (·.1)) := by
  rw [ctxRead, h]
  dsimp only
  rw [hu]
  dsimp only
  rw [List.findIdx?_eq_none_iff.mpr]
  simpa using hb

/-- A table of 32 KiB in eight pages. -/
theorem witness_StandEvents_table : let st := withG (stC (cT 1)) (gT 7)
    let s := at_ sT (stC (cT 1)) (gT 7)
    ∃ bs, MemoryForm s ∧ s.stand? 0 = some st ∧ st.copy? 33 = some (cT 1) ∧ (cT 1).kind = 3 ∧ contextRuns s st = true ∧
      (cT 1).abandoned = false ∧ (cT 1).counted = [] ∧ st.groves ≠ [] ∧ tableRead s st (cT 1) = .ok bs ∧ bs.length = 32768 := by
  have hn : ∀ a, inCoded (at_ sT (stC (cT 1)) (gT 7)) a = false := fun a => by
    unfold inCoded; rfl
  have hr : ctxRuns (at_ sT (stC (cT 1)) (gT 7)) (withG (stC (cT 1)) (gT 7)) (cT 1) 0x10000 32768 accRead =
      .ok ((List.range 8).map (fun i => ⟨0x10000 + 4096 * i, 4096, 0⟩)) := by
    have hp : pageRuns (32768 / 4096 + 2) (0x10000 % 2 ^ 64) 32768 = (List.range 8).map (fun i => (0x10000 + 4096 * i, 4096)) := by decide +kernel
    have hl : ∀ i ∈ List.range 8, lookup (at_ sT (stC (cT 1)) (gT 7)) ((cT 1).mmu (withG (stC (cT 1)) (gT 7))) (0x10000 + 4096 * i) accRead =
        .ok (0x10000 + 4096 * i) 0 := by decide +kernel
    have hg : ∀ i ∈ List.range 8, isRemote (0x10000 + 4096 * i) = false ∧ regionOf (at_ sT (stC (cT 1)) (gT 7)) (0x10000 + 4096 * i) = .hbm ∧
        resultFault (at_ sT (stC (cT 1)) (gT 7)) (0x10000 + 4096 * i) = none := by decide +kernel
    rw [ctxRuns, hp, mapM_ok (g := fun r => ⟨r.1, r.2, 0⟩), List.map_map]
    · rfl
    · intro r hr
      obtain ⟨i, hi, rfl⟩ := List.mem_map.mp hr
      have h1 : ctxRun _ _ _ (0x10000 + 4096 * i, 4096) accRead = _ := ctxRun.eq_1 (at_ sT (stC (cT 1)) (gT 7)) (withG (stC (cT 1)) (gT 7)) (cT 1) _ _
      have h2 : lookup (at_ sT (stC (cT 1)) (gT 7)) ((cT 1).mmu (withG (stC (cT 1)) (gT 7))) (0x10000 + 4096 * i) accRead = _ := hl i hi
      have h3 : regionOf (at_ sT (stC (cT 1)) (gT 7)) (0x10000 + 4096 * i) = .hbm := (hg i hi).2.1
      rw [h1, h2]
      simp only [ctxCheck, (hg i hi).1, (hg i hi).2.2, h3, hn]
      rw [List.find?_eq_none.mpr (by simp)]
      simp
  have hc : ∀ i ∈ List.range 8, (ctxBytes (at_ sT (stC (cT 1)) (gT 7)) ⟨0x10000 + 4096 * i, 4096, 0⟩).length = 4096 ∧
      ∀ b ∈ ctxBytes (at_ sT (stC (cT 1)) (gT 7)) ⟨0x10000 + 4096 * i, 4096, 0⟩, ¬ ((b.2.1 || b.2.2) = true) := by
    intro i hi
    have h1 : ∀ i ∈ List.range 8, isRemote (0x10000 + 4096 * i) = false := by decide +kernel
    refine ctx_clean (h1 i hi) ?_
    rw [show (0x10000 + 4096 * i + 4096 - 1) / 128 - (0x10000 + 4096 * i) / 128 + 1 = 32 by omega,
      show (0x10000 + 4096 * i) / 128 = 512 + 32 * i by omega]
    refine List.all_eq_true.mpr fun j hj => ?_
    have hi := List.mem_range.mp hi
    have hj := List.mem_range.mp hj
    have := curLine_clean (s := at_ sT (stC (cT 1)) (gT 7)) (line := 512 + 32 * i + j) (by omega) rfl rfl rfl
    simp [this.1, this.2]
  refine ⟨(((List.range 8).map (fun i => (⟨0x10000 + 4096 * i, 4096, 0⟩ : Seg))).flatMap (ctxBytes (at_ sT (stC (cT 1)) (gT 7)))).map (·.1),
    sN_form _ _ (by decide : Memory.wf (stC (cT 1)).scratch = true), at_stand _ _ _, rfl, rfl,
    ?_, rfl, rfl, by simp [withG], ?_, ?_⟩
  · decide +kernel
  · have ht := tableRead_cons (s := at_ sT (stC (cT 1)) (gT 7)) (st := withG (stC (cT 1)) (gT 7)) (c := cT 1) rfl
    have hu : unfetched (at_ sT (stC (cT 1)) (gT 7)) (withG (stC (cT 1)) (gT 7)) (cT 1) false
        ((List.range 8).map (fun i => ⟨0x10000 + 4096 * i, 4096, 0⟩)) = none := by decide +kernel
    refine ht.trans (ctxRead_ok hr hu fun b hb => ?_)
    obtain ⟨q, hq, hb⟩ := List.mem_flatMap.mp hb
    obtain ⟨i, hi, rfl⟩ := List.mem_map.mp hq
    exact (hc i hi).2 b hb
  · rw [List.length_map, List.length_flatMap, List.map_map]
    exact (congrArg List.sum (List.map_congr_left (g := fun _ => 4096) (fun i hi => (hc i hi).1))).trans (by simp)

/-- An engine trap waits, and the handler is at 0x10040. -/
theorem witness_StandEvents_trap : let g := { gBin 0x10040 0xFFFF with pend := some ⟨cENGINE, 3, 1, 0x1234, 2⟩ }
    let s := at_ sN st0 g
    MemoryForm s ∧ Has s 0 0 (withG st0 g) g ∧ g.pend.isSome ∧ g.single = none ∧ runnable s (withG st0 g) g = true ∧ g.held = none ∧ g.redo = none ∧
      vget g.s 30 0 = 0x10040 ∧ (withG st0 g).groves = [g] ∧ g.trap.hnd = false :=
  ⟨sN_form _ _ rfl, at_has _ _ _, rfl, rfl, by decide +kernel, rfl, rfl, by decide +kernel, rfl, rfl⟩

/-- A requested stand with room for a record, and with none. -/
theorem witness_StandEvents_save (n : Nat) (h : n ∈ [0, 1]) : let sf := { st0 with saving := true, preq := true, preqCount := 9 }
    let s := (at_ sN sf (gT 7)).modPart 0 (fun p => { p with saveLen := n })
    MemoryForm s ∧ s.stand? 0 = some (withG sf (gT 7)) ∧ sf.saving = true ∧ sf.dbgHalt = false ∧ swapping s 0 = false ∧
      standDrained s (withG sf (gT 7)) = true ∧ sf.seq.ops = [] ∧ saveRoom s (withG sf (gT 7)) = decide (n = 1) := by
  simp only [List.mem_cons, List.not_mem_nil, or_false] at h
  rcases h with rfl | rfl <;> exact ⟨form_of _ (by decide +kernel), rfl, rfl, rfl, by decide +kernel⟩

/-- The second of two saved stands. -/
theorem witness_StandEvents_restore : let z := { st0 with uid := 50 }
    let s := (at_ sN st0 (gT 7)).modD (fun d => { d with saved := [{ z with uid := 49 }, z] })
    MemoryForm s ∧ s.d.saved.find? (fun x => x.uid == 50) = some z ∧ restoreCore? s z = some (Clearing.single 0 1, 0) ∧
      scratchBase? s 0 z.shape.scratchBytes (standsOn s 0) = some 1024 ∧ (nextCandidate s).map (·.id) = some 1 :=
  ⟨form_of _ (by decide +kernel), rfl, by decide +kernel⟩

/-- The one core that is left is full of a stand of lower PRIO; the clearing waits for 65,536 clk, or for one more. -/
theorem witness_StandEvents_request (n : Nat) (h : n ∈ [65536, 65537]) :
    let c := { Clearing.single 0 1 with skipped := n, shape := { Shape.single with prio := 2, groves := 17 } }
    let s := ((at_ sN { st0 with shape := { Shape.single with prio := 1, groves := 16 } } (gT 7)).modD (fun d => { d with
      clearings := [c]
      cores := d.cores.mapIdx (fun i x => { x with retired := i != 0 }) })).modPart 0 (fun p => { p with halves := 1 })
    MemoryForm s ∧ clearing? s 0 0 = some c ∧ c.skipped = n ∧ chooseRequest s 0 c.shape = some [0] := by
  simp only [List.mem_cons, List.not_mem_nil, or_false] at h
  rcases h with rfl | rfl <;> exact ⟨form_of _ (by decide +kernel), by decide +kernel⟩

/-- One clk before the end of an interval, and at it, without permission. -/
theorem witness_StandEvents_interval (n : Nat) (h : n ∈ [2 ^ 21 - 1, 2 ^ 21]) :
    let s := (at_ sN st0 (gT 7)).modD (fun d => { d with clkCount := n })
    MemoryForm s ∧ s.d.clusters[0]? = some (Cluster.reset 0) ∧ s.d.clkCount = n ∧ (Cluster.reset 0).last + (Cluster.reset 0).interval = 2 ^ 21 ∧
      (Cluster.reset 0).en = false := by
  simp only [List.mem_cons, List.not_mem_nil, or_false] at h
  rcases h with rfl | rfl <;> exact ⟨form_of _ (by decide +kernel), by decide +kernel⟩

/-- The interval's end with permission: cores 2 and 7 are the hottest and the coolest, by more than DELTA or by less. -/
theorem witness_StandEvents_interval_swap (hot : Nat) (h : hot ∈ [16, 15]) :
    let c := { Cluster.reset 0 with en := true, delta := 16 }
    let s := sN.modD (fun d => { d with clkCount := 2 ^ 21, clusters := d.clusters.set 0 c })
    let temps := [5, 5, hot, 5, 5, 5, 5, 0, 5, 5, 5, 5]
    MemoryForm s ∧ s.d.clusters[0]? = some c ∧ c.last + c.interval ≤ s.d.clkCount ∧ c.en = true ∧ c.pair = none ∧
      (SwapPair s 0 c.delta temps 2 7 ↔ hot = 16) := by
  have hx : ∀ x, (x / 12 = 0 ∧ driftEligible (sN.modD (fun d => { d with
      clkCount := 2 ^ 21
      clusters := d.clusters.set 0 { Cluster.reset 0 with en := true, delta := 16 } })) x = true) → x < 12 := fun x h => by omega
  simp only [List.mem_cons, List.not_mem_nil, or_false] at h
  rcases h with rfl | rfl
  · refine ⟨form_of _ (by decide +kernel), by decide +kernel, by decide +kernel, rfl, rfl, ⟨fun _ => rfl, fun _ => ?_⟩⟩
    refine ⟨by decide +kernel, by decide +kernel, by decide, fun x h => ?_, fun x h => ?_, by decide +kernel, by decide, by decide +kernel, by decide +kernel⟩
    all_goals
      have hx := hx x h
      clear h
      revert x
      decide
  · refine ⟨form_of _ (by decide +kernel), by decide +kernel, by decide +kernel, rfl, rfl, ⟨fun h => ?_, fun h => ?_⟩⟩
    · exact absurd h.2.2.2.2.2.2.1 (by decide)
    · exact absurd h (by decide)

/-- Cores 2 and 7, with stands on both. -/
theorem witness_StandEvents_swap : let c := { Cluster.reset 0 with pair := some (2, 7), swaps := 0xFFFF }
    let s := { (sN.modD (fun d => { d with clusters := d.clusters.set 0 c })) with
      stands := [{ st0 with core := 2, uid := 3 }, { st0 with core := 7, uid := 4 }, { st0 with core := 7, uid := 5, scratchBase := 1024 }] }
    MemoryForm s ∧ s.d.clusters[0]? = some c ∧ 2 / 12 = 0 ∧ 7 / 12 = 0 ∧ coreDrained s 2 = true ∧ coreDrained s 7 = true ∧
      (s.stands.map (·.uid)).Nodup :=
  ⟨form_of _ (by decide +kernel), by decide +kernel⟩

/-! ## Launches, dispatch, pre-emption requests, the clock -/

/-- Firmware runs. -/
def sNf : State := sN.modMgmt (fun m => { m with fwRunning := true })

/-- Firmware writes, with BUSY and without; the owner may not while none holds the module (18 R380). -/
theorem witness_DispatchEvents_launch (b : Bool) : let s := sNf.modPart 0 (fun p => { p with launchst := { p.launchst with busy := b } })
    mayWriteBlock s .firmware 0 = true ∧ mayWriteBlock s .owner 0 = false ∧ (s.d.part 0).launchst.busy = b ∧ 0 < s.d.parts.length := by
  cases b <;> decide +kernel

/-- A clearing with stands 4 to 99 to send, and 900; the die 0 has reported. -/
theorem witness_DispatchEvents_send : let c := { Clearing.single 0 1 with remaining := [(4, 100), (900, 901)] }
    let s := sN.modD (fun d => { d with clearings := [c], reports := [⟨0, 0, 48, 4096, 32, 262144, 3932160, 64⟩] })
    c.isLive = true ∧ c.shape.prio < 8 ∧ s.d.clearings.filter (fun k => k.isLive && (k.remaining != [] || hasSaved s k)) = [c] ∧ restoreFirst s c = false ∧
      tryCandidate s c = .send 0 := by decide +kernel

/-- A batch of stands 3 and 4, or of 3 alone, on die 3; and its return one clk early and in time. -/
theorem witness_DispatchEvents_place (rest : List Nat) (h : rest ∈ [[], [4]]) (t : Nat) (ht : t ∈ [1023, 1024]) :
    let s := sN.modD (fun d => { d with batches := [⟨3, 1, 3 :: rest, 0⟩], clkCount := t })
    s.d.batches = [⟨3, 1, 3 :: rest, 0⟩] ∧ s.d.clearings.find? (fun k => k.id == 1) = some (Clearing.single 0 1) ∧
      chooseCore s 3 (Clearing.single 0 1) = some 144 ∧ scratchBase? s 144 (Clearing.single 0 1).shape.scratchBytes (standsOn s 144) = some 0 ∧
      s.d.clkCount = t := by
  simp only [List.mem_cons, List.not_mem_nil, or_false] at h ht
  rcases h with rfl | rfl <;> rcases ht with rfl | rfl <;> exact ⟨rfl, by decide +kernel⟩

/-- PREEMPT of clearing 0 names its stand and not that of clearing 4. -/
theorem witness_DispatchEvents_preempt : mayWriteBlock sNf .firmware 0 = true ∧ Names (at_ sN st0 (gT 7)) 0 0 false st0 ∧
    ¬ Names (at_ sN st0 (gT 7)) 0 0 false { st0 with clnum := 4 } ∧ ∀ p, p < 20 → (sN.d.part p).launchst.busy = false := by
  unfold Names
  decide +kernel

/-- A ready grove that a port has yet to take, and one that waits; a stand without groves is over. -/
theorem witness_DispatchEvents_clk : let s := at_ sN st0 { gT 7 with wait := .memory, held := some (.waita 0 15 0) }
    let e := { sN with stands := [{ st0 with groves := [] }] }
    portsChoose (at_ sN st0 (gT 7)) = true ∧ portsChoose s = false ∧ (∀ st ∈ s.stands, standOver s st = false) ∧ s.m.devWrites = [] ∧
      (∀ p, p < 20 → (s.d.part p).launchst.busy = false) ∧
      standOver e { st0 with groves := [] } = true ∧ st0.copy.paused = false ∧ (∀ p, p < 20 → (e.d.part p).launchst.busy = false) ∧
      s.d.tbDue = false ∧ s.d.bwDue = false ∧ (∀ st ∈ s.stands, binsBusy s st = false) ∧ ∀ st ∈ e.stands, binsBusy e st = false := by decide +kernel

/-- What falls due holds a clk up, each alone; full bins at its end, the second and the third of three. -/
theorem witness_DispatchEvents_clk_bins : let bin (n : Nat) : Bin := ⟨some (8, 9), List.replicate n [1], 7, none⟩
    let full := { st0 with bins := [bin 1, bin 32, bin 32], groves := [] }
    let late := { st0 with bins := [{ bin 1 with timer := 0 }], groves := [] }
    (sN.modD (fun d => { d with tbDue := true })).d.tbDue = true ∧ (sN.modD (fun d => { d with bwDue := true })).d.bwDue = true ∧
      binsBusy { sN with stands := [late] } late = true ∧ binsBusy { sN with stands := [full] } full = false ∧
      (full.bins.countP (fun b => b.key.isSome && b.launching.isNone && decide (full.shape.lanes ≤ b.recs.length))) = 2 := by decide +kernel

/-- A host launch of the block at 0x10100 that has all it reads, in a partition reset or not. -/
theorem witness_DispatchEvents_hostLaunch (b : Bool) : let s := sLn.modPart 0 (fun p => { p with
      launchst := { p.launchst with busy := true, block := 0x10100 }
      resetting := b })
    portsChoose s = false ∧ s.d.tbDue = false ∧ s.d.bwDue = false ∧ s.stands = [] ∧ s.m.devWrites = [] ∧ (s.d.part 0).launchst.busy = true ∧ (s.d.part 0).resetting = b ∧
      (∀ q, q < 20 → q ≠ 0 → (s.d.part q).launchst.busy = false) ∧ (launchBlock (clkOf s 1) 0 0 ⟨0, 0⟩ 0x10100 none).1.isSome = true := by
  cases b <;> decide +kernel

/-! ## Translations, windows, device registers -/

/-- Firmware, the owner while one holds the module, and the partition's own hypervisor may write; another partition's may not. -/
theorem witness_TranslationAndRegisterEvents_agents (o : Option Nat) (h : o ∈ [none, some 2]) (s : State)
    (hs : s = (sNf.modPart 0 (fun p => { p with tlbi := o })).modMgmt (fun m => { m with held := true })) :
    MemoryForm s ∧ 0 < s.d.parts.length ∧ (s.d.part 0).tlbi = o ∧ TakesBlockWrite s .firmware 0 ∧ TakesBlockWrite s .owner 0 ∧
      TakesBlockWrite s (.hv 0) 0 ∧ ¬ TakesBlockWrite s (.hv 1) 0 ∧ (s.d.part 0).rate0 < 2 ^ 12 ∧ (s.d.part 0).depth0 < 2 ^ 12 := by
  unfold TakesBlockWrite
  subst hs
  simp only [List.mem_cons, List.not_mem_nil, or_false] at h
  rcases h with rfl | rfl <;> exact ⟨form_of _ (by decide +kernel), by decide +kernel⟩

/-- Nothing under way, and one store. -/
theorem witness_TranslationAndRegisterEvents_performed (n : Nat) (h : n ∈ [0, 1]) : let s := at_ sN st0 { gT 7 with outStores := n }
    MemoryForm s ∧ (AllPerformed s 0 ↔ n = 0) := by
  refine ⟨sN_form _ _ rfl, ?_⟩
  have hs (st : Stand) : st ∈ (at_ sN st0 { gT 7 with outStores := n }).stands ↔ st = withG st0 { gT 7 with outStores := n } := by
    simp [at_, withG]
  have hg (g : Grove) : g ∈ (withG st0 { gT 7 with outStores := n }).groves ↔ g = { gT 7 with outStores := n } := by simp [withG]
  unfold AllPerformed
  constructor
  · intro h
    exact (((h _ ((hs _).mpr rfl) rfl).2 _ ((hg _).mpr rfl)).2.2.1 : n = 0)
  · rintro rfl st h -
    rw [(hs st).mp h]
    refine ⟨fun o ho => ?_, fun g h => ?_⟩
    · simp [withG, st0, Stand.start, Seqr.start] at ho
    · rw [(hg g).mp h]
      exact ⟨rfl, rfl, rfl, rfl, fun k hk => by simp [gT, Grove.start] at hk⟩

/-- An invalidation in progress, with a segment written before or without. -/
theorem witness_TranslationAndRegisterEvents_segment (b : Bool) : let s := sN.modPart 0 (fun p => { p with tlbi := some 1, segNew := b })
    MemoryForm s ∧ AllPerformed s 0 ∧ (s.d.part 0).tlbi.isSome = true ∧ (s.d.part 0).segNew = b ∧ 0 < s.d.parts.length := by
  refine ⟨by cases b <;> exact form_of _ (by decide +kernel), ?_, by cases b <;> decide +kernel⟩
  intro st hs
  exact absurd hs (by show st ∉ []; simp)

/-- The bytes of a table entry that are not 0. -/
def pte (a v : Nat) : List Host.Cell := ((List.range 8).map (fun k => (a + k, BitVec.ofNat 8 (v / 2 ^ (8 * k))))).filter (fun c => c.2 != 0)

/-- A miss of the grove 0 of stand 0 on page `vp` of ASID 2. -/
def qW (acc vp : Nat) : WalkReq := ⟨1, 0, 2, vp, 0x20000, [⟨⟨0, 0⟩, acc, true, none⟩], false⟩

/-- The tables of page 5 of ASID 2, on lines that their slices hold; a walk of page `vp`, beside one of another die and a finished one. -/
def sW (acc vp : Nat) : State := sN.modM (fun m => { m with
  mem := pte 0x20000 0x21001 ++ pte 0x21000 0x22001 ++ pte 0x22000 0x23001 ++ pte 0x23000 0x24001 ++ pte 0x24028 0x5511F
  l2 := [1024, 1056, 1088, 1120, 1152].map (fun l => ⟨0, 0, l, 0, false, 0, 0, none⟩)
  walks := [⟨2, 0, 2, 5, 0x20000, [⟨⟨0, 0⟩, acc, true, none⟩], false⟩,
    ⟨1, 0, 2, 9, 0x20000, [⟨⟨0, 1⟩, acc, true, some ⟨1, 2, none⟩⟩], true⟩, qW acc vp] })

theorem fst_pair {α β : Type} {p : α × β} {a : α} (h : p.1 = a) : p = (a, p.2) := by rw [← h]

theorem witness_TranslationAndRegisterEvents_leaf (acc : Nat) (h : acc ∈ [accRead, accWrite, accFetch]) :
    let s := sW acc 5
    let q := qW acc 5
    ∃ u, MemoryForm s ∧ s.m.walks.filter (fun q => q.die == 1 && !q.done) = [q] ∧
      walk s 0 (5 * 4096) q.ptroot.toNat = (.leaf 0 0x24028 0x5511F, u) ∧ HbmSpan u 0x24028 8 ∧ q ∉ u.m.walks.erase q ∧
      leafDenies 0x5511F acc true = none ∧ segmentOf u 0 (leafFrame 0 0x5511F 5) = .ok (0x55000, true, true, true) ∧
      permits acc (0x55000, true, true, true) = true ∧ resultFault u 0x55000 = none ∧ curNat u 0x24028 8 = 0x5511F ∧
      resultFault (engineWrite u 0x24028 (toBytes 8 (0x5511F ||| 0x40 ||| (if acc = accWrite then 0x80 else 0)))) 0x55000 = none := by
  simp only [List.mem_cons, List.not_mem_nil, or_false] at h
  rcases h with rfl | rfl | rfl <;>
    exact ⟨_, form_of _ (by decide +kernel), by decide +kernel, fst_pair (by decide +kernel),
      span_of (by decide +kernel), by decide +kernel, by decide, by decide +kernel, by decide, by decide +kernel, by decide +kernel, by decide +kernel⟩

/-- A page without an entry; a root table in a half that the host owns; a die with no walk to perform. -/
theorem witness_TranslationAndRegisterEvents_fault : (sW 0 6).m.walks.filter (fun q => q.die == 1 && !q.done) = [qW 0 6] ∧
    (walk (sW 0 6) 0 (6 * 4096) 0x20000).1 = .fault cPAGE 1 ∧
    (walk ((sW 0 6).modM (fun m => { m with halves := [(2048, 2)] })) 0 (6 * 4096) 0x20000).1 = .wait 1024 (maskRange 0 8) ∧
    (∀ q ∈ (sW 0 6).m.walks, q.die = 3 → q.done = true) ∧ MemoryForm (sW 0 6) ∧ MemoryForm ((sW 0 6).modM (fun m => { m with halves := [(2048, 2)] })) :=
  ⟨by decide +kernel, by decide +kernel, by decide +kernel, by decide +kernel, form_of _ (by decide +kernel), form_of _ (by decide +kernel)⟩

/-- The tokens of the read of a root table's first entry, and the state in which its line has come. -/
def rootTokens (s : State) : Bool × State :=
  prepay s (homeSlice s (0x20000 / 128)) (0x20000 / 128) 0 0 (missTokens s (0x20000 / 128) 0 + holders s (0x20000 / 128) (maskRange (0x20000 % 128) 8))

def rootCome (s : State) : State := l2Access (rootTokens s).2 (0x20000 / 128) 0 0 true

/-- A segment that may not be read; a root entry that is not valid, and one that is a leaf. -/
theorem witness_TranslationAndRegisterEvents_root (sr : Bool) (e : Nat) (h : e ∈ [0, 1, 0x11]) :
    let s := ((sW 0 5).modM (fun m => { m with mem := pte 0x20000 e })).modPart 0 (fun p => { p with
      segen := true
      segs := [⟨1, 0, sr, true, true, 0⟩] })
    MemoryForm s ∧ canonical 0 = true ∧ canonical (2 ^ 56) = false ∧ 0x20000 / 2 ^ 45 = s.d.mgmt.modid ∧
      segmentOf s 0 (0x20000 / 4096 * 4096) = .ok (0x20000, sr, true, true) ∧
      (sr = true → stage2 s 0 (0x20000 / 4096 * 4096) accRead = .ok (0x20000, sr, true, true)) ∧
      0x20000 + 8 * (0 / 2 ^ 48 % 2 ^ 9) = 0x20000 ∧ spanReady s 0x20000 8 0 = true ∧ (rootTokens s).1 = true ∧
      (∀ b ∈ curBytes (rootCome s) 0x20000 8, b.2.1 = false ∧ b.2.2 = false) ∧ curNat (rootCome s) 0x20000 8 = e := by
  simp only [List.mem_cons, List.not_mem_nil, or_false] at h
  rcases h with rfl | rfl | rfl <;> cases sr <;>
    exact ⟨form_of _ (by decide +kernel), by decide +kernel, by decide +kernel, by decide +kernel, by rfl, fun h => by first | (cases h; done) | decide +kernel,
      by decide +kernel⟩

/-- A root table in a half that the host owns, whose read waits for a token, whose entry is poisoned, or lost. -/
theorem witness_TranslationAndRegisterEvents_root_bad :
    spanReady ((sW 0 5).modM (fun m => { m with halves := [(2048, 2)] })) 0x20000 8 0 = false ∧
    (let s := (sW 0 5).modM (fun m => { m with l2 := [], tbNow := spSet 0 [] 0 (4096 * 5 + 9), buckets := [⟨homeSlice sN 1024, 0, 0, 0⟩], spare := [(homeSlice sN 1024, 0)] })
    spanReady s 0x20000 8 0 = true ∧ (rootTokens s).1 = false) ∧
    (let s := (sW 0 5).modM (fun m => { m with poison := [1024] })
    spanReady s 0x20000 8 0 = true ∧ (rootTokens s).1 = true ∧ ∃ b ∈ curBytes (rootCome s) 0x20000 8, b.2.1 = true) ∧
    (let s := (sW 0 5).modM (fun m => { m with lost := [0x8001] })
    (rootTokens s).1 = true ∧ (∀ b ∈ curBytes (rootCome s) 0x20000 8, b.2.1 = false) ∧ ∃ b ∈ curBytes (rootCome s) 0x20000 8, b.2.2 = true) := by
  decide +kernel

/-- Window 0 in a state of EN and BUSY, window 1 enabled on 16 bytes from 0x2000. -/
def w0 (en busy : Bool) (cb al : Nat) : Window := { Window.reset with en := en, busy := busy, cbase := cb, abase := 0x100000010000, alen := al }
def w1 : Window := { Window.reset with en := true, kind := 2, cbase := 0x2000, abase := 0x100000000000, alen := 1 }
def sWin (en busy : Bool) (cb al : Nat) : State := sN.modD (fun d => { d with windows := [w0 en busy cb al, w1] })

theorem witness_TranslationAndRegisterEvents_window (en busy : Bool) (cb al : Nat) (h : (cb, al) ∈ [(0x2000, 0), (0x2000, 1), (0x00B2D05E0000, 1), (0x4000, 1)]) :
    let s := sWin en busy cb al
    MemoryForm s ∧ s.d.windows[0]? = some (w0 en busy cb al) ∧ isOwner s .owner = false ∧ (w0 en busy cb al).part ≠ 1 ∧
      aliasBusy s (w0 en busy cb al) = false := by
  simp only [List.mem_cons, List.not_mem_nil, or_false, Prod.mk.injEq] at h
  rcases h with ⟨rfl, rfl⟩ | ⟨rfl, rfl⟩ | ⟨rfl, rfl⟩ | ⟨rfl, rfl⟩ <;> cases en <;> cases busy <;>
    exact ⟨form_of _ (by decide +kernel), by decide +kernel⟩

/-- An enabled window of kind 2: without blocks it is malformed; over window 1, beyond HBM, and well placed. -/
theorem witness_TranslationAndRegisterEvents_err : let u (cb al : Nat) : Window := { w0 false false cb al with kind := 2 }
    BadGeometry (u 0x2000 0) ∧ ¬ BadGeometry (u 0x2000 1) ∧ OverlapsAnother (sWin false false 0x2000 1) 0 (u 0x2000 1) ∧
      ¬ BadGeometry (u 0x00B2D05E0000 1) ∧ ¬ OverlapsAnother (sWin false false 0x00B2D05E0000 1) 0 (u 0x00B2D05E0000 1) ∧
      OutsideTheMap (sWin false false 0x00B2D05E0000 1) (u 0x00B2D05E0000 1) ∧
      ¬ BadGeometry (u 0x4000 1) ∧ ¬ OverlapsAnother (sWin false false 0x4000 1) 0 (u 0x4000 1) ∧ ¬ OutsideTheMap (sWin false false 0x4000 1) (u 0x4000 1) := by
  have hw (cb : Nat) (u : Window) (ha : ∀ a ∈ w1.ranges, ∀ b ∈ u.ranges, ¬ (a.1 < b.1 + b.2 ∧ b.1 < a.1 + a.2)) : ¬ OverlapsAnother (sWin false false cb 1) 0 u := by
    rintro ⟨k, x, hk, hx, hb, a, haa, b, hbb, h⟩
    have hx : [w0 false false cb 1, w1][k]? = some x := hx
    rcases k with _ | _ | k
    · exact hk rfl
    · have : w1 = x := Option.some.inj hx
      subst this; exact ha a haa b hbb h
    · cases hx
  dsimp only
  refine ⟨?_, ?_, ⟨1, w1, by decide, rfl, .inl rfl, ?_⟩, ?_, hw _ _ ?_, ?_, ?_, hw _ _ ?_, ?_⟩ <;> (try unfold BadGeometry) <;> (try unfold OutsideTheMap) <;> decide +kernel

/-- Each verdict is some number; a line of the coded range is pinned in its slice, or none is. -/
theorem witness_TranslationAndRegisterEvents_coded (n : Nat) (h : n ∈ [0, 1]) :
    let u : Window := { w0 false false 0x4000 1 with kind := 2 }
    let s := (sWin false false 0x4000 1).modM (fun m => { m with l2 := [⟨homeSlice sN 128, 0, 128, 0, false, n, 0, none⟩] })
    MemoryForm s ∧ codedFree s u = decide (n = 0) ∧ u.codedBytes ≠ 0 := by
  simp only [List.mem_cons, List.not_mem_nil, or_false] at h
  rcases h with rfl | rfl <;> exact ⟨form_of _ (by decide +kernel), by decide +kernel⟩

/-- OCC of a core of the partition and of one of none. -/
theorem witness_TranslationAndRegisterEvents_reads : let s := (sN.modPart 0 (fun p => { p with halves := 1, probemis := 9 })).modCore 5 (fun c => { c with occ := [(3, 9)] })
    MemoryForm s ∧ partOfCore s 5 = 0 ∧ partOfCore s 6 ≠ 0 ∧ s.d.cores[5]? = some (s.d.core 5) ∧ (s.d.part 0).alive = true :=
  ⟨form_of _ (by decide +kernel), by decide +kernel, by decide +kernel, by rfl, by decide +kernel⟩

/-! ## Power-up, firmware, ownership, partitions, service -/

/-- Every state of the firmware's verification, of a fatal error and of the mailbox; each verdict on an image. -/
theorem witness_ManagementEvents_firmware (fatal next : Option Nat) (start live running held busy : Bool) (len op : Nat) : ∃ s : State,
    s.d.mgmt.fatal = fatal ∧ s.d.mgmt.fwStart = start ∧ s.d.mgmt.fwLive = live ∧ s.d.mgmt.fwRunning = running ∧ s.d.mgmt.held = held ∧
      s.d.mgmt.next = next ∧ s.d.mgmt.fwLen = len ∧ s.d.mgmt.mboxBusy = busy ∧ s.d.mgmt.mboxOp = op ∧ isOwner s .owner = held ∧
      isOwner s .firmware = false :=
  ⟨sN.modMgmt (fun m => { m with
    fatal := fatal
    fwStart := start
    fwLive := live
    fwRunning := running
    held := held
    next := next
    fwLen := len
    mboxBusy := busy
    mboxOp := op }), rfl, rfl, rfl, rfl, rfl, rfl, rfl, rfl, rfl, by cases held <;> rfl, by cases held <;> rfl⟩

/-- An image of 64 MiB, and of a byte more. -/
theorem test_firmware_code : firmwareCode (64 * 2 ^ 20) true true true = 1 ∧ firmwareCode (64 * 2 ^ 20 + 1) true true true = 5 := by decide

/-- Partition 0 holds the half-clusters 0 to 15 or all, 1 is to be created; one operation may be in progress. -/
theorem witness_ManagementEvents_partitions (busy removing : Bool) :
    let s := (((at_ sN st0 (gT 7)).modMgmt (fun m => { m with held := true })).modPart 0 (fun p => { p with
      halves := 0xFFFF
      busy := busy
      removing := removing })).modM (fun m => { m with keys := [(0, 1, 1)], mem := [(0x10000, 7), (0x200000, 7)] })
    isOwner s .owner = true ∧ ((∃ q ∈ s.d.parts, q.busy = true) ↔ busy = true) ∧ 1 < s.d.parts.length ∧ (s.d.part 1).alive = false ∧
      (∀ q ∈ s.d.parts, q.alive = true → q.halves &&& 0xFFFF0000 = 0) ∧ (s.d.part 0).alive = true ∧ (s.d.part 0).halves &&& 0x8000 ≠ 0 ∧
      (s.d.part 0).busy = busy ∧ (s.d.part 0).removing = removing ∧ InGranule s 1 0x10000 ∧ ¬ InGranule s 1 0x200000 := by
  unfold InGranule
  cases busy <;> cases removing <;> decide +kernel

/-- Core 0 has a stand and core 1 may take over; nothing may, of a partition without cores. -/
theorem witness_ManagementEvents_retire : let s := at_ sN st0 (gT 7)
    CouldReplace s 0 1 ∧ CouldReplace s 3 1 ∧ (∃ st ∈ s.stands, st.core = 0) ∧ (∀ st ∈ s.stands, st.core ≠ 3) ∧
      (∀ q, q < 1 → ¬ CouldReplace s 0 q) ∧ ∀ r, ¬ CouldReplace (s.modPart 0 (fun p => { p with halves := 0 })) 0 r := by
  refine ⟨?_, ?_, ?_, ?_, ?_, fun r h => ?_⟩
  any_goals ((try unfold CouldReplace); decide +kernel)
  exact absurd h.2.2.2.1 (by decide +kernel)

/-- A turn that a fatal error leaves without effect. -/
theorem witness_ManagementEvents_fatal : let s := { sN.modMgmt (fun m => { m with fatal := some 2 }) with agenda := [.grove 0 0] }
    s.d.mgmt.fatal.isSome = true ∧ (nextTurn s).1 ≠ .event .powerUp ∧ (∀ v, (nextTurn s).1 ≠ .event (.firmwareStart v)) ∧
      (∀ ag a n v, (nextTurn s).1 = .event (.registerWrite ag a n v) → a / 8 * 8 ≠ 0x1F0000000100) ∧
      (∀ a bs, (nextTurn s).1 ≠ .input (.hostStore a bs)) ∧ (∀ w, (nextTurn s).1 ≠ .input (.power w)) ∧
      ∀ l, (nextTurn s).1 ≠ .input (.corrupt l) := by
  refine ⟨rfl, fun h => ?_, fun _ h => ?_, fun _ _ _ _ h => ?_, fun _ _ h => ?_, fun _ h => ?_, fun _ h => ?_⟩
  all_goals
    have h : (Turn.grove 0 0) = _ := h
    cases h

/-- The dump of a device without stands and registrations is shorter than host memory. -/
theorem witness_ManagementEvents_dump (cause : Nat) : (dumpBytes sN cause).length ≤ 2 ^ 64 := by
  have h8 (l : List Nat) (f : Nat → Nat) : (l.flatMap (fun i => toBytes 8 (f i))).length = 8 * l.length := by
    induction l with
    | nil => rfl
    | cons a l ih => rw [List.flatMap_cons, List.length_append, ih]; simp [toBytes]; omega
  have hr : (dumpRegisters sN).length = 8 * (registerBlocks.map (·.2)).sum := by
    simp only [dumpRegisters, registerBlocks, List.flatMap_cons, List.flatMap_nil, List.length_append, h8, List.length_range,
      List.length_nil, List.map_cons, List.map_nil, List.sum_cons, List.sum_nil, Nat.mul_add, Nat.mul_zero]
  have hh (recs : Nat) : (dumpHeader sN cause recs).length ≤ 4096 := by simp only [dumpHeader, List.length_take]; omega
  have hd : dumpRecords sN = [] := by rfl
  have hf : (List.range 192).flatMap (dumpFirn sN) = [] := by
    rw [List.flatMap_eq_nil_iff]; intro x _; rfl
  have hs : (dumpRegisters sN).length = 420296 := hr.trans (by decide)
  have := hh (dumpRegisters sN).length
  simp only [dumpBytes, List.length_append, hd, hf, List.length_nil]
  omega

/-- The first die's changes of state (18 R384): power above the ceiling lowers it, heat drops it to 0, and without excess 15 returns;
and what is no change. -/
theorem witness_ManagementEvents_throttle (power vf : Nat) (h : (power, vf) ∈ [(2901, 15), (2901, 0), (2900, 9), (2900, 15)]) :
    let s := (State.reset.modD (fun d => { d with vf := [vf, 0, 0, 0] })).modMgmt (fun m => { m with power := power })
    s.d.vf.getD 0 15 = vf ∧ (min s.d.mgmt.pwrceil 2900 < s.d.mgmt.power ↔ power = 2901) := by
  simp only [List.mem_cons, List.not_mem_nil, or_false, Prod.mk.injEq] at h
  rcases h with ⟨rfl, rfl⟩ | ⟨rfl, rfl⟩ | ⟨rfl, rfl⟩ | ⟨rfl, rfl⟩ <;> decide

/-! ## A step, encodings, the form of memory -/

/-- Words at the program counter. -/
def sF (ws : List (BitVec 32)) (g : Grove) (sf : Stand) (t : Turn) : State := { at_ sN sf g with
  agenda := [t]
  m := { sN.m with mem := memSetBytes [] 0x10000 (wordBytes ws) } }

/-- The word of `add 2 2 3` at the program counter, and port 0 free. -/
theorem witness_StepRuns_grove : ∃ b, let s := sF [0x20020203#32] (gT 2) st0 (.grove 0 0)
    let st := withG st0 (gT 2)
    let u := (nextTurn s).2
    s.d.mgmt.fatal = none ∧ nextTurn s = (.grove st.uid 0, u) ∧ u.stand? st.uid = some st ∧ st.grove? 0 = some (gT 2) ∧
      u.d.mgmt.fatal = none ∧ runnable u st (gT 2) = true ∧ (gT 2).between = true ∧ pickGrove u 0 = some (0, st, gT 2) ∧
      (gT 2).pend = none ∧ (gT 2).held = none ∧
      (∃ l, l < 1024 ∧ (gT 2).live.getLsbD l = true ∧ (gT 2).parked.getLsbD l = false) ∧
      WordAt (actingGrove u st (gT 2)) st 0 (gT 2).pc 0x20020203#32 b ∧ (0x20020203#32).extractLsb' 24 8 ≠ 0x01#8 ∧
      decodeGrove 0x20020203#32 0 = .ok (.add 2 2 3) := by
  refine ⟨_, rfl, rfl, rfl, rfl, rfl, ?_, ?_, ?_, rfl, rfl, ⟨0, ?_⟩, fetch_plain (q := ⟨0x10000, 4, 0⟩) (r := []) ?_ ?_ ?_ ?_ ?_ ?_, ?_, rfl⟩ <;>
    decide +kernel

/-- Every port held, and one that takes an older grove of another stand. -/
theorem witness_StepRuns_ports : let s := sF [] (gT 2) st0 (.grove 0 0)
    let u := (nextTurn s).2
    pickGrove (u.modCore 0 (fun c => { c with ports := [1, 2, 3, 4] })) 0 = none ∧
      (pickGrove { u with stands := u.stands ++ [{ withG st0 { gT 2 with age := 9 } with uid := 7, sslot := 1 }] } 0).map (·.2.1.uid) = some 7 := by
  decide +kernel

theorem witness_StepRuns_held : let g := { gT 7 with held := some (.waita 0 15 0) }
    let s := sF [] g st0 (.grove 0 0)
    runnable (nextTurn s).2 (withG st0 g) g = true ∧ g.pend = none ∧ g.held = some (.waita 0 15 0) ∧
      ({ g with wait := .memory, prog := { g.prog with phase := 1 } } : Grove).between = false ∧
      ∃ l, l < 1024 ∧ g.live.getLsbD l = true ∧ g.parked.getLsbD l = false :=
  ⟨by decide +kernel, rfl, rfl, by decide +kernel, 0, by decide +kernel⟩

/-- A literal before the last word (10 R221). -/
theorem witness_StepRuns_pfx : let s := sF [0x01000000#32, 13#32, 0x2002023A#32] (gT 2) st0 (.grove 0 0)
    let st := withG st0 (gT 2)
    let a := actingGrove (nextTurn s).2 st (gT 2)
    ∃ b c d e, WordAt a st 0 (gT 2).pc 0x01000000#32 b ∧ WordAt b st 0 ((gT 2).pc + 4) 13#32 c ∧ WordAt c st 0 ((gT 2).pc + 8) 0x2002023A#32 d ∧
      (0x01000000#32).extractLsb' 24 8 = 0x01#8 ∧ decodeGrove 0x01000000#32 13#32 = .ok (.pfx 13) ∧ exec (.pfx 13) d = .next e ∧
      decodeGrove 0x2002023A#32 0 = .ok (.add 2 2 0x3A) := by
  refine ⟨_, _, _, _, fetch_plain (q := ⟨0x10000, 4, 0⟩) (r := []) ?_ ?_ ?_ ?_ ?_ ?_, fetch_plain (q := ⟨0x10004, 4, 0⟩) (r := []) ?_ ?_ ?_ ?_ ?_ ?_,
    fetch_plain (q := ⟨0x10008, 4, 0⟩) (r := []) ?_ ?_ ?_ ?_ ?_ ?_, ?_, rfl, rfl, rfl⟩ <;> decide +kernel

/-- A sequencer at `mma 0 0 1`. -/
theorem witness_StepRuns_seq : ∃ b, let s := sF [0x2C004000#32] (gT 7) (stS [] none) (.seq 0)
    let st := withG (stS [] none) (gT 7)
    let u := (nextTurn s).2
    s.d.mgmt.fatal = none ∧ nextTurn s = (.seq st.uid, u) ∧ u.d.mgmt.fatal = none ∧ u.stand? st.uid = some st ∧ seqRuns u st = true ∧
      WordAt u st seqSlot st.seq.mpc 0x2C004000#32 b ∧ decodeMatrix 0x2C004000#32 = .ok (.mma 0 0 1) := by
  refine ⟨_, rfl, rfl, rfl, rfl, ?_, fetch_plain (q := ⟨0x10000, 4, 0⟩) (r := []) ?_ ?_ ?_ ?_ ?_ ?_, rfl⟩ <;> decide +kernel

/-- A ready grove on core 0; a device step; a clk; an input. -/
theorem witness_StepRuns_other : (let s := sF [] (gT 7) st0 (.issue 0)
    nextTurn s = (.issue 0, (nextTurn s).2) ∧ pickGrove (nextTurn s).2 0 = some (0, withG st0 (gT 7), gT 7)) ∧
    (let s := sF [] (gT 7) st0 (.event .powerUp)
    nextTurn s = (.event .powerUp, (nextTurn s).2) ∧ (nextTurn s).2.d.mgmt.fatal = none ∧ streamOf .powerUp = 2) ∧
    (∀ ns, let s := sF [] (gT 7) st0 (.event (.clkTick ns)); nextTurn s = (.event (.clkTick ns), (nextTurn s).2)) ∧
    ∀ i, let s := sF [] (gT 7) st0 (.input i); nextTurn s = (.input i, (nextTurn s).2) :=
  ⟨⟨rfl, by decide +kernel⟩, ⟨rfl, rfl, rfl⟩, fun _ => rfl, fun _ => rfl⟩

/-! ## Words of the encoding tables (10 R216 to R220, 14 R299) -/

def decodes (ws : List (BitVec 32 × Instr)) (dec : BitVec 32 → Except DecErr Instr) : Bool :=
  ws.all (fun p => decide (dec p.1 = .ok p.2) && decide (encode p.2 = [p.1]) && p.2.wellFormed)

theorem test_words_scalar_and_control : decodes [
    (0x00000000#32, .nop), (0x02000021#32, .bra 0x21), (0x032C0021#32, .brcAny 1 3 0x21), (0x036C0021#32, .brcAll 1 3 0x21),
    (0x03AC0021#32, .brcNone 1 3 0x21), (0x042C0021#32, .brd 1 3 0x21), (0x05123456#32, .join 0x123456),
    (0x06923456#32, .call 0x923456), (0x07000000#32, .ret), (0x08000400#32, .jmpi 4), (0x09000000#32, .exitG),
    (0x0A000000#32, .yield), (0x0B923456#32, .brk 0x923456), (0x0C923456#32, .trap 0x923456), (0x0D000000#32, .eret),
    (0x0E000000#32, .eretReplay), (0x0F060400#32, .launch 6 4), (0x10000009#32, .phase 9), (0x1100134A#32, .mode 1 0 3 4 10),
    (0x12020040#32, .csrr 2 0x40), (0x13020031#32, .csrw 2 0x31), (0x1C000028#32, .bound 0x28)] (decodeGrove · 0) = true := by decide +kernel

theorem test_words_integer : decodes [
    (0x20060405#32, .add 6 4 5), (0x21060405#32, .sub 6 4 5), (0x22060405#32, .mul 6 4 5), (0x23060405#32, .mulh 6 4 5),
    (0x24060405#32, .mad 6 4 5), (0x25060405#32, .shl 6 4 5), (0x26060405#32, .shr 6 4 5), (0x27060405#32, .sra 6 4 5),
    (0x28060405#32, .fshl 6 4 5), (0x29060405#32, .fshr 6 4 5), (0x2A060405#32, .andV 6 4 5), (0x2B060405#32, .orV 6 4 5),
    (0x2C060405#32, .xorV 6 4 5), (0x2D060405#32, .andn 6 4 5), (0x2E060400#32, .notV 6 4), (0x2F060400#32, .popc 6 4),
    (0x30060400#32, .clz 6 4), (0x31060400#32, .ctz 6 4), (0x32060400#32, .brev 6 4), (0x33060405#32, .bfx 6 4 5),
    (0x34060405#32, .bfi 6 4 5), (0x35060405#32, .minV 6 4 5), (0x36060405#32, .maxV 6 4 5), (0x37060400#32, .absV 6 4),
    (0x38060400#32, .negV 6 4), (0x39060405#32, .sel 6 4 5), (0x3A060405#32, .cmpEq 6 4 5), (0x3B060405#32, .cmpNe 6 4 5),
    (0x3C060405#32, .cmpLt 6 4 5), (0x3D060405#32, .cmpLe 6 4 5), (0x3E060405#32, .cmpGt 6 4 5), (0x3F060405#32, .cmpGe 6 4 5),
    (0x40069234#32, .li 6 0x9234), (0x41069234#32, .lih 6 0x9234), (0x42060400#32, .movV 6 4), (0x43060405#32, .lea1 6 4 5),
    (0x44060405#32, .lea2 6 4 5), (0x45060405#32, .lea3 6 4 5)] (decodeGrove · 0) = true := by decide +kernel

theorem test_words_scalar_unit : decodes [
    (0x46060405#32, .sadd 6 4 5), (0x47060405#32, .ssub 6 4 5), (0x48060405#32, .smul 6 4 5), (0x49060405#32, .sshl 6 4 5),
    (0x4A060405#32, .sshr 6 4 5), (0x4B060405#32, .ssra 6 4 5), (0x4C060405#32, .sand 6 4 5), (0x4D060405#32, .sor 6 4 5),
    (0x4E060405#32, .sxor 6 4 5), (0x4F060400#32, .smov 6 4)] (decodeGrove · 0) = true := by decide +kernel

theorem test_words_float : decodes [
    (0x50060405#32, .fadd 6 4 5), (0x51060405#32, .fsub 6 4 5), (0x52060405#32, .fmul 6 4 5), (0x53060405#32, .fma 6 4 5),
    (0x54060405#32, .fnma 6 4 5), (0x55060405#32, .fmin 6 4 5), (0x56060405#32, .fmax 6 4 5), (0x57060400#32, .fabs 6 4),
    (0x58060400#32, .fneg 6 4), (0x59060405#32, .fcmpEq 6 4 5), (0x5A060405#32, .fcmpNe 6 4 5), (0x5B060405#32, .fcmpLt 6 4 5),
    (0x5C060405#32, .fcmpLe 6 4 5), (0x5D060405#32, .fcmpGt 6 4 5), (0x5E060405#32, .fcmpGe 6 4 5),
    (0x5F060405#32, .fcmpUn 6 4 5), (0x60060400#32, .fclass 6 4), (0x61060405#32, .fdiv 6 4 5), (0x62060400#32, .fsqrt 6 4),
    (0x63060400#32, .frcp 6 4), (0x64060400#32, .frsq 6 4), (0x65060400#32, .exp2 6 4), (0x66060400#32, .log2 6 4),
    (0x67060400#32, .sinpi 6 4), (0x68060400#32, .cospi 6 4), (0x69060409#32, .cvtF 6 4 9), (0x6A06040A#32, .cvtI 6 4 10),
    (0x6B060409#32, .cvt8Sat 6 4 9), (0x6C060409#32, .cvt8Inf 6 4 9), (0x6D48C03D#32, .cvtq 0x48 0xC0 0x3D),
    (0x6E060405#32, .cvtaSat 6 4 5), (0x6F060405#32, .cvtaInf 6 4 5), (0x70060405#32, .fdot 6 4 5), (0x71060405#32, .fdot8 6 4 5)] (decodeGrove · 0) = true := by decide +kernel

theorem test_words_cross_lane : decodes [
    (0x80060405#32, .shfl 6 4 5), (0x81060405#32, .shflUp 6 4 5), (0x82060405#32, .shflDn 6 4 5), (0x83060405#32, .shflX 6 4 5),
    (0x84060405#32, .bcast 6 4 5), (0x85060400#32, .voteAny 6 4), (0x86060400#32, .voteAll 6 4), (0x87060400#32, .ballot 6 4),
    (0x88060400#32, .matchV 6 4), (0x89060400#32, .redSum 6 4), (0x8A060400#32, .redMin 6 4), (0x8B060400#32, .redMax 6 4),
    (0x8C060400#32, .redAnd 6 4), (0x8D060400#32, .redOr 6 4), (0x8E060400#32, .redXor 6 4), (0x8F460400#32, .redmi 0x46 4),
    (0x90460400#32, .redma 0x46 4), (0x91060400#32, .scanAdd 6 4), (0x92060405#32, .perm 6 4 5), (0x93060405#32, .pack 6 4 5),
    (0x94460400#32, .unpack 0x46 4), (0x95060405#32, .pand 6 4 5), (0x96060405#32, .por 6 4 5), (0x97060405#32, .pxor 6 4 5),
    (0x98060400#32, .pnot 6 4), (0x99060400#32, .kpop 6 4)] (decodeGrove · 0) = true := by decide +kernel

theorem test_words_memory : decodes [
    (0xA0060521#32, .ld 6 5 0x21), (0xA1060521#32, .st 6 5 0x21), (0xA2060521#32, .ldu 6 5 0x21), (0xA30605C9#32, .ldx 6 5 1 2 9),
    (0xA4890015#32, .waita 1 9 0x15), (0xA5060405#32, .stm 6 4 5), (0xA6060521#32, .lds 6 5 0x21), (0xA7060521#32, .sts 6 5 0x21),
    (0xBD060405#32, .atomAdd 6 4 5), (0xBE060405#32, .atomMin 6 4 5), (0xBF060405#32, .atomMax 6 4 5),
    (0xC0060405#32, .atomAnd 6 4 5), (0xC1060405#32, .atomOr 6 4 5), (0xC2060405#32, .atomXor 6 4 5),
    (0xC3060405#32, .atomXchg 6 4 5), (0xC4060446#32, .atomCas 6 4 0x46), (0xC5060405#32, .atomFadd 6 4 5),
    (0xC6050000#32, .fence 5), (0xC7000405#32, .invRange 4 5), (0xC8000405#32, .wbRange 4 5)] (decodeGrove · 0) = true := by decide +kernel

theorem test_words_ordered : decodes [
    (0xA8060521#32, .ldaGrove 6 5 0x21), (0xA9060521#32, .ldaStand 6 5 0x21), (0xAA060521#32, .ldaCluster 6 5 0x21),
    (0xAB060521#32, .ldaDie 6 5 0x21), (0xAC060521#32, .ldaPartition 6 5 0x21), (0xAD060521#32, .ldaDevice 6 5 0x21),
    (0xAE060521#32, .ldaSystem 6 5 0x21), (0xAF060521#32, .stlGrove 6 5 0x21), (0xB0060521#32, .stlStand 6 5 0x21),
    (0xB1060521#32, .stlCluster 6 5 0x21), (0xB2060521#32, .stlDie 6 5 0x21), (0xB3060521#32, .stlPartition 6 5 0x21),
    (0xB4060521#32, .stlDevice 6 5 0x21), (0xB5060521#32, .stlSystem 6 5 0x21), (0xB6060521#32, .ldcGrove 6 5 0x21),
    (0xB7060521#32, .ldcStand 6 5 0x21), (0xB8060521#32, .ldcCluster 6 5 0x21), (0xB9060521#32, .ldcDie 6 5 0x21),
    (0xBA060521#32, .ldcPartition 6 5 0x21), (0xBB060521#32, .ldcDevice 6 5 0x21), (0xBC060521#32, .ldcSystem 6 5 0x21)] (decodeGrove · 0) = true := by decide +kernel

theorem test_words_engines : decodes [
    (0xD006043D#32, .sdec 6 4 0x3D), (0xD106043D#32, .senc 6 4 0x3D), (0xD206043D#32, .serr 6 4 0x3D),
    (0xD306043D#32, .sblk 6 4 0x3D), (0xD4060405#32, .cpy 6 4 5), (0xD5060405#32, .cpym 6 4 5), (0xD6060405#32, .cpyx 6 4 5),
    (0xD7000000#32, .seal), (0xD8051234#32, .waitb 5 0x1234), (0xD9010400#32, .dictLd 1 4), (0xDA000000#32, .cpyRes),
    (0xDA000001#32, .cpyResAbandon), (0xE0060405#32, .spawn 6 4 5), (0xE1060005#32, .rebin 6 5),
    (0xE2210405#32, .floeDef 0x21 4 5), (0xE3210000#32, .floeRel 0x21), (0xE4062100#32, .floeSt 6 0x21),
    (0xE5090000#32, .barArr 9), (0xE6090000#32, .barWait 9), (0xE7090000#32, .barSync 9), (0xE8A80015#32, .tlwait 5 0 1 0x15),
    (0xE9290001#32, .tlrd 1 9 1), (0xF0060405#32, .peek 6 4 5), (0xF1060405#32, .poke 6 4 5),
    (0xF2130015#32, .stepLane 0x13 0x15), (0xF2138015#32, .stepRun 0x13 0x15), (0xF2134015#32, .stepHalt 0x13 0x15),
    (0xF3290405#32, .rimew 2 9 4 5), (0xF400000C#32, .samp 12)] (decodeGrove · 0) = true := by decide +kernel

theorem test_words_matrix : decodes [
    (0x00000000#32, .mnop), (0x04000000#32, .mend), (0x04000001#32, .mendGo), (0x08123456#32, .mjmp 0x123456),
    (0x0D7FFFFA#32, .mloop 2 0x7FFFFA), (0x10000009#32, .mbarArr 9), (0x14000009#32, .mbarWait 9), (0x18000000#32, .mfence),
    (0x1C000007#32, .mmode 7), (0x21F0C005#32, .mrecLd 7 1 1 6 5), (0x25F0C005#32, .mrecSc 7 1 1 6 5), (0x2A400000#32, .mzero 9),
    (0x2D668000#32, .mma 5 9 10), (0x3166B000#32, .mmaSp 5 9 10 12), (0x43480005#32, .xadd 6 4 1 5),
    (0x47480005#32, .xsub 6 4 1 5), (0x4B480005#32, .xmul 6 4 1 5), (0x4F480005#32, .xshl 6 4 1 5),
    (0x53480005#32, .xshr 6 4 1 5), (0x57480005#32, .xand 6 4 1 5), (0x5B480005#32, .xior 6 4 1 5),
    (0x5F480005#32, .xxor 6 4 1 5), (0x63123456#32, .xli 6 0x123456)] decodeMatrix = true := by decide +kernel

/-! ## A term that each check of 10 R222 refuses -/

def refusedWith (d : Nat) (is : List Instr) : Bool := is.all (fun i => i.illegalDetail == some d && !i.wellFormed)

/-- A Reserved field that depends on another field (13 R282, R285, R295; 14 R303, R317). -/
theorem test_reserved_refused : refusedWith 2 [.ldx 2 4 0 1 0, .waita 1 0 32, .tlwait 0 0 1 32, .mrecLd 0 1 0 8 0, .mrecLd 0 0 1 0 8,
    .mrecSc 0 1 0 8 0, .mrecSc 0 0 1 0 8, .xadd 0 0 1 8, .xsub 0 0 1 8, .xmul 0 0 1 8, .xshl 0 0 1 8, .xshr 0 0 1 8, .xand 0 0 1 8,
    .xior 0 0 1 8, .xxor 0 0 1 8] = true := by decide +kernel

/-- A width that the description fixes, one that must match another operand's, a special source of two registers (10 R218). -/
theorem test_width_refused : refusedWith 3 [.cvtq 0 0xC0 0, .redmi 0 0, .atomCas 0 0 0, .add 0x40 0 0x40, .redSum 0x40 0, .fadd 0x40 0x40 0x78,
    .lds 0x40 0x40 0] = true := by decide +kernel

/-- A pair at an odd number, a group of four at an even one, a group that passes v55 (10 R218). -/
theorem test_group_refused : refusedWith 4 [.add 0x41 0x40 0x40, .ld 0x82 0 0, .ld 0xF7 0 0] = true := by decide +kernel

/-- A number outside the byte's class (10 R219), or a scalar number of `csrr` and `csrw` outside its set (11 R244). -/
theorem test_class_refused : refusedWith 5 [.senc 6 4 5, .sadd 32 0 0, .pand 8 0 0, .ballot 8 0, .jmpi 32, .spawn 0 56 0, .csrr 32 0,
    .csrr 56 0, .csrw 57 0, .csrw 32 0] = true := by decide +kernel

/-- A value that no description admits: MODE, a control register, BOUND 0, a source type, a scope, a sampling rate. -/
theorem test_value_refused : refusedWith 7 [.mode 0 0 0 0 15, .mode 0 0 0 5 0, .csrr 0 4, .csrw 0 2, .bound 0, .cvtF 0 0 14, .cvtI 0 0 7,
    .cvtI 0 0 14, .cvt8Sat 0 0 7, .cvt8Inf 0 0 14, .fence 7, .waitb 7 0, .tlwait 7 0 0 0, .samp 7, .samp 21] = true := by decide +kernel

/-- The neighbours of those terms pass. -/
theorem test_neighbours_pass : [Instr.ldx 2 4 1 3 0, .waita 1 0 31, .tlwait 6 0 1 31, .mrecLd 0 1 1 7 7, .xadd 0 0 1 7, .xadd 0 0 0 8, .cvtq 0x40 0xC0 0,
    .atomCas 0 0 0x40, .add 0x40 0x40 0x40, .ld 0x84 0 0, .ld 0xF0 0 0, .sadd 31 0 0, .pand 7 0 0, .csrr 31 2, .csrw 56 1, .mode 1 1 7 4 14, .bound 1,
    .cvtF 0 0 13, .cvtI 0 0 8, .cvtI 0 0 13, .fence 6, .samp 0, .samp 8, .samp 20].all Instr.wellFormed = true := by decide +kernel

/-- Opcodes that the map marks (10 R228, 14 R300), and Reserved bits of a word, are refused by name. -/
theorem test_words_refused : (decodeGrove 0x14000000#32 0 = .error .undefinedOpcode ∧ decodeGrove 0xFF000000#32 0 = .error .undefinedOpcode ∧
    decodeMatrix 0xFC000000#32 = .error .undefinedOpcode ∧ decodeMatrix 0x34000000#32 = .error .undefinedOpcode) ∧
    decodeGrove 0x00000001#32 0 = .error (.reserved .nop) ∧ decodeGrove 0xC6050001#32 0 = .error (.reserved (.fence 5)) ∧
    decodeMatrix 0x18000001#32 = .error (.reserved .mfence) ∧ decodeBytes [0, 0, 0] = .error .truncated ∧
    decodeBytes [0, 0, 0, 1] = .error .truncated := by decide +kernel

/-! ## Instructions that meet the hypotheses on encodings; a step that keeps the form of memory -/

theorem witness_EncodeAndDecodeAgree : (streamOf (.pfx 13) = 0 ∧ (Instr.pfx 13).wellFormed = true ∧
      decodeBytes [0, 0, 0, 1, 13, 0, 0, 0, 7] = .ok (.pfx 13, [7])) ∧
    (streamOf (.fma 0x48 0x44 61) = 0 ∧ (Instr.fma 0x48 0x44 61).wellFormed = true ∧ decodeBytes [0x3D, 0x44, 0x48, 0x53] = .ok (.fma 0x48 0x44 61, [])) ∧
    streamOf (.mma 0 0 1) = 1 ∧ (Instr.mma 0 0 1).wellFormed = true ∧ decodeMatrixBytes [0, 0x40, 0, 0x2C, 9] = .ok (.mma 0 0 1, [9]) := by decide +kernel

theorem witness_StepKeepsTheFormOfMemory : ∃ t, MemoryForm { sE with agenda := [.event .powerUp] } ∧
    step { sE with agenda := [.event .powerUp] } = .next t := ⟨_, form_of _ (by decide +kernel), rfl⟩

/-! ## The table's words run from reset (withFetchWord) -/

def runsNext (w : Nat) (p : State → Bool) : Bool :=
  match step (State.reset.withFetchWord 32 w) with
  | .next t => p t
  | .fault _ => false
  | .refused _ => false

/-- `li v2, 7`; then s0 of the sequencer by `xli 1 5`. -/
theorem test_first_step : runsNext 0x40020007 (fun t => ((t.stand? 1).bind (fun st => st.grove? 0)).any (fun g => (g.lane 31).reg 2 == 7 && g.pc == 0x10004)) = true ∧
    runsNext 0x60800005 (fun t => (t.stand? 1).any (fun st => vget st.seq.x 1 0 == 5)) = true := by decide +kernel

end Sys2Proof.Tests
end

section
/-! # What the operations of homes and L1s leave alone

The operations of 03 and 04 change the memory system, the predictors of cores and the counters of the management block, and
nothing else: no stand and no other register of the device. Two states agree beside them when `State.beside` does. -/

namespace Sys2Proof.Machine

/-- What no operation of a home or of an L1 changes: the stands, and the device but for its cores and management block. -/
def State.beside (s : State) : List Stand × Dev := (s.stands, { s.d with cores := [], mgmt := Mgmt.reset })

@[simp] theorem State.beside_modM (s : State) (f : MemSys → MemSys) : (s.modM f).beside = s.beside := rfl
@[simp] theorem State.beside_modCore (s : State) (c : Nat) (f : Core → Core) : (s.modCore c f).beside = s.beside := rfl
@[simp] theorem State.beside_modMgmt (s : State) (f : Mgmt → Mgmt) : (s.modMgmt f).beside = s.beside := rfl
@[simp] theorem State.beside_ite (c : Prop) [Decidable c] (s t : State) :
    (if c then s else t).beside = if c then s.beside else t.beside := apply_ite _ _ _ _

/-- A list of operations, each of which leaves the rest alone, leaves it alone. -/
@[simp] theorem beside_foldl {α : Type} {f : State → α → State} (hf : ∀ s x, (f s x).beside = s.beside) (l : List α)
    (s : State) : (l.foldl f s).beside = s.beside := by
  induction l generalizing s with
  | nil => rfl
  | cons x l ih => rw [List.foldl_cons, ih, hf]

theorem State.parts_of_beside {s t : State} (h : t.beside = s.beside) : t.d.parts = s.d.parts := congrArg (·.2.parts) h

/-! ## Memory controllers (03 R78 to R81) -/

@[simp] theorem beside_openRow (s : State) (line : Nat) : (openRow s line).beside = s.beside := by
  simp only [openRow]; split <;> rfl

@[simp] theorem beside_memRead (s : State) (line : Nat) : (memRead s line).beside = s.beside := by
  simp [memRead, failRead]

@[simp] theorem beside_memWrite (s : State) (line : Nat) : (memWrite s line).beside = s.beside := by
  unfold memWrite; split <;> simp [bumpCounter]

@[simp] theorem beside_markDirty (s : State) (line : Nat) : (markDirty s line).beside = s.beside := by
  simp [markDirty]

/-! ## Writes at a home (04 R85, R99) -/

@[simp] theorem beside_storeAliasElem (s : State) (w : Window) (k v : Nat) : (storeAliasElem s w k v).beside = s.beside := by
  simp only [storeAliasElem]; split <;> rfl

@[simp] theorem beside_writeGroup (s : State) (w : Window) (line : Nat) (mask : ByteMask) (d : LineBits) :
    (writeGroup s w line mask d).beside = s.beside := by
  simp only [writeGroup]; split <;> simp [setGroup]

@[simp] theorem beside_homeWrite (s : State) (line : Nat) (mask : ByteMask) (d : LineBits) (clean : ByteMask) (whos : List Who) :
    (homeWrite s line mask d clean whos).beside = s.beside := by
  simp only [homeWrite]
  split
  · split <;> simp
  all_goals simp

@[simp] theorem beside_poisonLost (s : State) (line : Nat) : (poisonLost s line).beside = s.beside := by
  simp [poisonLost]

@[simp] theorem beside_loseWords (s : State) (line : Nat) (words : ByteMask) : (loseWords s line words).beside = s.beside := by
  simp only [loseWords, State.beside_ite, beside_poisonLost, State.beside_modMgmt, State.beside_modM, ite_self]
  split
  · rfl
  · split <;> simp

@[simp] theorem beside_settleFlight (s : State) (core line : Nat) (words : ByteMask) :
    (settleFlight s core line words).beside = s.beside := by
  simp only [settleFlight, State.beside_modM]
  refine beside_foldl (fun s t => ?_) _ s
  split
  · split <;> simp
  · rfl

/-! ## Words that leave an L1, and recalls (04 R85, R96) -/

@[simp] theorem beside_giveUp (s : State) (core line : Nat) (words : ByteMask) : (giveUp s core line words).2.beside = s.beside := by
  simp only [giveUp]
  split <;> simp [settleReplies, overtake, bumpPred, l1Put, dropVisitor]

@[simp] theorem beside_firnRemove (s : State) (core line : Nat) (words : ByteMask) :
    (firnRemove s core line words).beside = s.beside := rfl

@[simp] theorem beside_recallWords (s : State) (line : Nat) (pick : FirnEntry → ByteMask) :
    (recallWords s line pick).beside = s.beside := by
  simp [recallWords]

@[simp] theorem beside_recallNow (s : State) (line : Nat) (words : ByteMask) : (recallNow s line words).beside = s.beside := by
  simp [recallNow]

@[simp] theorem beside_dropShared (s : State) (hs : List Nat) : (dropShared s hs).beside = s.beside := by
  simp [dropShared, setHalf]

@[simp] theorem beside_engineWrite (s : State) (pa : Nat) (bs : List Byte) : (engineWrite s pa bs).beside = s.beside := by
  simp [engineWrite, engineWriteBy]

/-! ## Slices (03 R71 to R73; 07 R160) -/

@[simp] theorem beside_departNow (s : State) (base : Nat) : (departNow s base).beside = s.beside := by
  unfold departNow
  split <;> simp

@[simp] theorem beside_evictLine (s : State) (x : L2Line) : (evictLine s x).beside = s.beside := by
  simp only [evictLine]
  split
  · simp [dropStale]
  · split <;> simp

@[simp] theorem beside_l2Alloc (s : State) (slice line part mark : Nat) (v : Option LineData) :
    (l2Alloc s slice line part mark v).beside = s.beside := by
  simp only [l2Alloc]
  split
  · rfl
  · rw [State.beside_modM]; split <;> simp

@[simp] theorem beside_l2Access (s : State) (line part mark : Nat) (read : Bool) : (l2Access s line part mark read).beside = s.beside := by
  simp only [l2Access]
  split <;> simp [l2Touch]

@[simp] theorem beside_spanAccess (s : State) (a n part : Nat) (read : Bool) : (spanAccess s a n part read).beside = s.beside := by
  simp [spanAccess]

@[simp] theorem beside_startFill (s : State) (line ctx : Nat) : (startFill s line ctx).beside = s.beside := by
  simp only [startFill]
  split
  · split
    · split
      · split <;> simp
      · rfl
    · rfl
  · rfl

@[simp] theorem beside_lineAsk (s : State) (line : Nat) (mask : ByteMask) (write : Bool) (ctx : Nat) :
    (lineAsk s line mask write ctx).beside = s.beside := by
  simp only [lineAsk, State.beside_ite, beside_startFill, State.beside_modM, ite_self]

@[simp] theorem beside_spanAsk (s : State) (a n : Nat) (write : Bool) (ctx : Nat) : (spanAsk s a n write ctx).beside = s.beside := by
  simp [spanAsk]

/-! ## Requests that a home serves (04 R85, R88, R102), and cores that are lost (R99) -/

@[simp] theorem beside_register (s : State) (core line part : Nat) (mask : ByteMask) :
    (register s core line part mask).beside = s.beside := by
  simp only [register, State.beside_ite, State.beside_modM]
  split
  · rfl
  · split <;> simp [drainEntry]

@[simp] theorem beside_markWritten (s : State) (line : Nat) (mask : ByteMask) : (markWritten s line mask).beside = s.beside := by
  simp only [markWritten, setGroup]
  split
  · split
    · split <;> rfl
    · rfl
  · rfl

@[simp] theorem beside_clearElems (s : State) (line : Nat) (mask : ByteMask) : (clearElems s line mask).beside = s.beside := by
  simp only [clearElems, setGroup]
  split
  · split
    · split <;> rfl
    · rfl
  · rfl

@[simp] theorem beside_freshHostLine (s : State) (line fence : Nat) (k01 : Bool) :
    (freshHostLine s line fence k01).beside = s.beside := by
  simp only [freshHostLine]; split <;> simp

@[simp] theorem beside_dropVisitor (s : State) (die line : Nat) : (dropVisitor s die line).beside = s.beside := rfl

@[simp] theorem beside_sendCore (s : State) (core line : Nat) (r : Rep) : (sendCore s core line r).beside = s.beside := rfl

@[simp] theorem beside_finishReq (s : State) (lw : LineWait) : (finishReq s lw).beside = s.beside := by
  simp only [finishReq]
  split
  · simp
  · simp
  · split
    · simp
    · simp only [beside_sendCore, beside_dropVisitor]
      split <;> simp
  all_goals rfl

@[simp] theorem beside_tryFinish (s : State) (line : Nat) : (tryFinish s line).beside = s.beside := by
  unfold tryFinish; split <;> simp

@[simp] theorem beside_unpinLine (s : State) (line : Nat) : (unpinLine s line).beside = s.beside := rfl

/-- A core that is lost takes no stand with it, and no register of the device beside its counters. -/
@[simp] theorem beside_loseCore (s : State) (core : Nat) : (loseCore s core).beside = s.beside := by
  simp [loseCore, beside_foldl (fun s (f : Fill) => beside_unpinLine s f.line)]

end Sys2Proof.Machine
end

section
/-! # The trace ring and throttle events (17 R369 to R371; 18 R384) -/

namespace Sys2Proof.Machine

/-! ## Looking up a register block or a core after an update -/

theorem Dev.part_of_le {d : Dev} {p : Nat} (h : d.parts.length ≤ p) : d.part p = Partition.reset := by
  simp [Dev.part, List.getElem?_eq_none h]

/-- What differs from the reset value belongs to a block that exists. -/
theorem Dev.lt_of_part_ne {d : Dev} {p : Nat} (h : d.part p ≠ Partition.reset) : p < d.parts.length := by
  by_contra hp
  exact h (Dev.part_of_le (Nat.le_of_not_lt hp))

theorem Dev.core_of_le {d : Dev} {c : Nat} (h : d.cores.length ≤ c) : d.core c = Core.reset := by
  simp [Dev.core, List.getElem?_eq_none h]

theorem State.part_modPart (s : State) (p : Nat) (f : Partition → Partition) (q : Nat) :
    (s.modPart p f).d.part q = if q = p ∧ p < s.d.parts.length then f (s.d.part p) else s.d.part q := by
  simp only [State.modPart, State.modD_d, Dev.part, List.getD_eq_getElem?_getD, List.getElem?_modify]
  by_cases hq : q = p
  · subst hq
    by_cases hl : q < s.d.parts.length <;> simp [hl]
  · simp [hq, Ne.symm hq]

theorem State.core_modCore (s : State) (c : Nat) (f : Core → Core) (q : Nat) :
    (s.modCore c f).d.core q = if q = c ∧ c < s.d.cores.length then f (s.d.core c) else s.d.core q := by
  simp only [State.modCore, State.modD_d, Dev.core, List.getD_eq_getElem?_getD, List.getElem?_modify]
  by_cases hq : q = c
  · subst hq
    by_cases hl : q < s.d.cores.length <;> simp [hl]
  · simp [hq, Ne.symm hq]

@[simp] theorem State.length_parts_modPart (s : State) (p : Nat) (f : Partition → Partition) :
    (s.modPart p f).d.parts.length = s.d.parts.length := by simp [State.modPart]

/-- A change of a block that a view does not show leaves the view of every block. -/
theorem State.map_modPart {β : Type} {g : Partition → β} {f : Partition → Partition} (h : ∀ q, g (f q) = g q) (s : State) (p : Nat) :
    (s.modPart p f).d.parts.map g = s.d.parts.map g := by
  apply List.ext_getElem?
  intro i
  simp only [State.modPart, State.modD_d, List.getElem?_map, List.getElem?_modify]
  split <;> cases s.d.parts[i]? <;> simp [h]

/-- The partition of a core depends on which partitions exist and what they hold. -/
theorem partOfCore_congr {s t : State} (h : ∀ p, (t.d.part p).alive = (s.d.part p).alive ∧ (t.d.part p).halves = (s.d.part p).halves)
    (c : Nat) : partOfCore t c = partOfCore s c := by
  simp only [partOfCore, h]

/-! ## What a trace record leaves alone -/

/-- A register block but for FULL and TRACEPTR of its ring. -/
def Partition.untraced (p : Partition) : Partition := { p with traceFull := false, tracePtr := 0 }

/-- What no record of a trace ring changes. -/
def State.untraced (s : State) : List Stand × Dev :=
  (s.beside.1, { s.beside.2 with parts := s.d.parts.map Partition.untraced })

theorem State.untraced_of_beside {s t : State} (h : t.beside = s.beside) : t.untraced = s.untraced := by
  simp only [State.untraced, h, State.parts_of_beside h]

theorem State.untraced_modPart {f : Partition → Partition} (h : ∀ q, (f q).untraced = q.untraced) (s : State) (p : Nat) :
    (s.modPart p f).untraced = s.untraced := by
  exact congrArg (fun l => (s.beside.1, { s.beside.2 with parts := l })) (State.map_modPart h s p)

theorem untraced_performWrite (s : State) (w : DevWrite) : (performWrite s w).untraced = s.untraced := by
  have h : (engineWrite (spanAccess s w.pa w.bytes.length w.part false) w.pa w.bytes).beside = s.beside := by simp
  unfold performWrite
  dsimp only
  split
  · exact (State.untraced_modPart (by intro; rfl) _ _).trans (State.untraced_of_beside h)
  · exact State.untraced_of_beside h

theorem untraced_deviceWrite (s : State) (w : DevWrite) : (deviceWrite s w).untraced = s.untraced := by
  unfold deviceWrite
  split
  · exact untraced_performWrite s w
  · exact State.untraced_of_beside (by simp)

/-- A record changes memory and its ring's FULL and TRACEPTR (17 R369). -/
theorem untraced_traceRecord (s : State) (part : Nat) (dwords : List Nat) : (traceRecord s part dwords).untraced = s.untraced := by
  unfold traceRecord
  extract_lets p len pos fills next
  split
  · rfl
  · split
    · exact State.untraced_modPart (by intro; rfl) s part
    · split
      · rfl
      · split
        · exact (State.untraced_modPart (by intro; rfl) _ part).trans (State.untraced_modPart (by intro; rfl) s part)
        · exact (untraced_deviceWrite _ _).trans (State.untraced_modPart (by intro; rfl) s part)

/-! ## Power windows (17 R371) -/

/-- What a throttle event asks of a partition's block: whether it exists, its half-clusters, and CW. -/
def Partition.powerView (p : Partition) : Bool × Nat × Nat := (p.alive, p.halves, p.traceCw)

/-- What the records and windows of a throttle event leave. -/
def State.steady (s : State) : List Stand × List Nat × Nat × List (Bool × Nat × Nat) :=
  (s.stands, s.d.vf, s.d.clkCount, s.d.parts.map Partition.powerView)

theorem State.steady_of_untraced {s t : State} (h : t.untraced = s.untraced) : t.steady = s.steady := by
  have hp : t.d.parts.map Partition.powerView = s.d.parts.map Partition.powerView := by
    have := congrArg (fun x => x.2.parts.map Partition.powerView) h
    simp only [State.untraced, List.map_map] at this
    exact this
  exact Prod.ext (congrArg (·.1) h) (Prod.ext (congrArg (·.2.vf) h) (Prod.ext (congrArg (·.2.clkCount) h) hp))

theorem State.powerEnd_of_untraced {s t : State} (h : t.untraced = s.untraced) (p : Nat) :
    (t.d.part p).powerEnd = (s.d.part p).powerEnd := by
  have hp : t.d.parts.map (·.powerEnd) = s.d.parts.map (·.powerEnd) := by
    have := congrArg (fun x => x.2.parts.map (·.powerEnd)) h
    simp only [State.untraced, List.map_map] at this
    exact this
  have hp := congrArg (fun l => l[p]?.getD none) hp
  simp only [List.getElem?_map] at hp
  simp only [Dev.part, List.getD_eq_getElem?_getD]
  revert hp
  cases t.d.parts[p]? <;> cases s.d.parts[p]? <;> simp [Partition.reset]

theorem State.length_parts_of_steady {s t : State} (h : t.steady = s.steady) : t.d.parts.length = s.d.parts.length := by
  simpa [State.steady] using congrArg (fun x => x.2.2.2.length) h

theorem State.powerView_of_steady {s t : State} (h : t.steady = s.steady) (p : Nat) :
    (t.d.part p).powerView = (s.d.part p).powerView := by
  have hp := congrArg (fun x => x.2.2.2[p]?.getD Partition.reset.powerView) h
  simp only [State.steady, List.getElem?_map] at hp
  simp only [Dev.part, List.getD_eq_getElem?_getD]
  revert hp
  cases t.d.parts[p]? <;> cases s.d.parts[p]? <;> simp

/-- A throttle event of a die opens a window of a partition: it has a core there, and CW is not 0. -/
def WindowOpens (s : State) (die p : Nat) : Prop :=
  (∃ c, c < 192 ∧ c / 48 = die ∧ partOfCore s c = p) ∧ (s.d.part p).traceCw ≠ 0

theorem windowOpens_congr {s t : State} (h : t.steady = s.steady) (die p : Nat) : WindowOpens t die p ↔ WindowOpens s die p := by
  have hv := State.powerView_of_steady h
  have hc (c : Nat) : partOfCore t c = partOfCore s c :=
    partOfCore_congr (fun p => ⟨congrArg (·.1) (hv p), congrArg (·.2.1) (hv p)⟩) c
  have hw : (t.d.part p).traceCw = (s.d.part p).traceCw := congrArg (·.2.2) (hv p)
  simp only [WindowOpens, hc, hw]

/-- The clk at which a window that opens now ends: CW 1 to 9 act as 10 (17 R369). -/
def windowEndAt (s : State) (p : Nat) : Nat := s.d.clkCount + 2 ^ max 10 (s.d.part p).traceCw

theorem windowEndAt_congr {s t : State} (h : t.steady = s.steady) (p : Nat) : windowEndAt t p = windowEndAt s p := by
  have hk : t.d.clkCount = s.d.clkCount := congrArg (·.2.2.1) h
  have hw : (t.d.part p).traceCw = (s.d.part p).traceCw := congrArg (·.2.2) (State.powerView_of_steady h p)
  simp only [windowEndAt, hk, hw]

/-- All that the part of a throttle event for one partition can do: beside its record, its window opens, or not. -/
theorem throttlePart_cases (die kind old new part : Nat) (s : State) :
    ∃ t, t.untraced = s.untraced ∧
      ((WindowOpens s die part ∧ throttlePart die kind old new part s =
        t.modPart part (fun q => { q with powerEnd := some (windowEndAt s part) })) ∨
      (¬ WindowOpens s die part ∧ throttlePart die kind old new part s = t)) := by
  unfold throttlePart
  dsimp only
  split
  · next hn =>
    refine ⟨s, rfl, .inr ⟨fun ⟨⟨c, h1, h2, h3⟩, _⟩ => ?_, rfl⟩⟩
    have : c ∈ (List.range 192).filter (fun c => coreDie c == die && partOfCore s c == part) := by
      simp [h1, h3, coreDie, h2]
    rw [hn] at this
    cases this
  · next c r hc =>
    have hm : c ∈ (List.range 192).filter (fun c => coreDie c == die && partOfCore s c == part) := by rw [hc]; simp
    have hm : c < 192 ∧ c / 48 = die ∧ partOfCore s c = part := by simpa [coreDie] using hm
    have ht := untraced_traceRecord s part [4 * 2 ^ 60 + new * 2 ^ 56 + c * 2 ^ 48, 0, s.d.time.getD die 0,
      (s.d.part part).traceBar * 2 ^ 32, 0, kind + old * 2 ^ 8 + new * 2 ^ 12, 0, 0]
    refine ⟨_, ht, ?_⟩
    split
    · next hw => exact .inr ⟨fun h => h.2 hw, rfl⟩
    · next hw =>
      have hk : _ = s.d.clkCount := congrArg (·.2.clkCount) ht
      refine .inl ⟨⟨⟨c, hm⟩, hw⟩, ?_⟩
      rw [windowEndAt, ← hk]
      rfl

theorem throttlePart_steady (die kind old new part : Nat) (s : State) : (throttlePart die kind old new part s).steady = s.steady := by
  obtain ⟨t, ht, ⟨-, h⟩ | ⟨-, h⟩⟩ := throttlePart_cases die kind old new part s <;> rw [h]
  · rw [← State.steady_of_untraced ht]
    exact congrArg (fun l => (t.stands, t.d.vf, t.d.clkCount, l)) (State.map_modPart (by intro; rfl) t part)
  · exact State.steady_of_untraced ht

theorem throttlePart_opens (die kind old new : Nat) {part : Nat} {s : State} (hl : part < s.d.parts.length)
    (ho : WindowOpens s die part) : ((throttlePart die kind old new part s).d.part part).powerEnd = some (windowEndAt s part) := by
  obtain ⟨t, ht, ⟨-, h⟩ | ⟨h, -⟩⟩ := throttlePart_cases die kind old new part s
  · have hl' := State.length_parts_of_steady (State.steady_of_untraced ht)
    rw [h, State.part_modPart, if_pos ⟨rfl, hl'.symm ▸ hl⟩]
  · exact absurd ho h

theorem throttlePart_powerEnd_other (die kind old new : Nat) {part p : Nat} {s : State} (hp : p = part → ¬ WindowOpens s die p) :
    ((throttlePart die kind old new part s).d.part p).powerEnd = (s.d.part p).powerEnd := by
  obtain ⟨t, ht, ⟨ho, h⟩ | ⟨-, h⟩⟩ := throttlePart_cases die kind old new part s <;> rw [h, ← State.powerEnd_of_untraced ht]
  rw [State.part_modPart, if_neg]
  rintro ⟨rfl, -⟩
  exact hp rfl ho

/-- What a throttle event does to some partitions, one after another. -/
theorem throttleParts (die kind old new : Nat) (l : List Nat) (hl : l.Nodup) (s : State) :
    let t := l.foldl (fun s p => throttlePart die kind old new p s) s
    t.steady = s.steady ∧ ∀ p, p < s.d.parts.length →
      (p ∈ l → WindowOpens s die p → (t.d.part p).powerEnd = some (windowEndAt s p)) ∧
      (p ∉ l ∨ ¬ WindowOpens s die p → (t.d.part p).powerEnd = (s.d.part p).powerEnd) := by
  induction l generalizing s with
  | nil => exact ⟨rfl, fun p _ => ⟨nofun, fun _ => rfl⟩⟩
  | cons a l ih =>
    have hs := throttlePart_steady die kind old new a s
    obtain ⟨ha, hl⟩ := List.nodup_cons.1 hl
    obtain ⟨h1, h2⟩ := ih hl (throttlePart die kind old new a s)
    refine ⟨h1.trans hs, fun p hp => ?_⟩
    obtain ⟨hin, hout⟩ := h2 p (State.length_parts_of_steady hs ▸ hp)
    simp only [windowOpens_congr hs, windowEndAt_congr hs] at hin hout
    rw [List.foldl_cons]
    refine ⟨fun hm ho => ?_, fun hn => ?_⟩
    · rcases List.mem_cons.1 hm with rfl | hm
      · rw [hout (.inl ha), throttlePart_opens die kind old new hp ho]
      · exact hin hm ho
    · rw [hout (hn.imp (fun h hm => h (List.mem_cons_of_mem _ hm)) id), throttlePart_powerEnd_other die kind old new]
      rintro rfl
      exact hn.resolve_left (fun h => h List.mem_cons_self)

theorem inPowerWindow_eq_false {s : State} {part : Nat} :
    inPowerWindow s part = false ↔ ∀ e, (s.d.part part).powerEnd = some e → e ≤ s.d.clkCount := by
  cases h : (s.d.part part).powerEnd <;> simp [inPowerWindow, h]

/-- Which changes of a die's state a cause forces (18 R384). -/
theorem throttles_iff (above : Bool) (kind old new : Nat) : throttles above kind old new = true ↔
    (kind = 1 ∧ above = true ∧ new < old) ∨ (kind = 2 ∧ new = 0 ∧ 0 < old) ∨ (kind = 3 ∧ above = false ∧ new = 15 ∧ old ≠ 15) := by
  unfold throttles
  split <;> simp_all [Nat.pos_iff_ne_zero, and_assoc]

/-- A change of a die's state that is forced: the state, and the windows that it opens (17 R371). -/
theorem throttleEvent_changes {s : State} {die kind newState : Nat}
    (h : throttles s.d.mgmt.overPower kind (s.d.vf.getD die 15) (newState % 16) = true) :
    ∃ t, exec (.throttleEvent die kind newState) s = .next t ∧ t.stands = s.stands ∧ t.d.vf = s.d.vf.set die (newState % 16) ∧
      ∀ p, p < 20 → p < s.d.parts.length →
        (WindowOpens s die p → (t.d.part p).powerEnd = some (windowEndAt s p)) ∧
        (¬ WindowOpens s die p → (t.d.part p).powerEnd = (s.d.part p).powerEnd) := by
  obtain ⟨hs, hp⟩ := throttleParts die kind (s.d.vf.getD die 15) (newState % 16) (List.range 20) List.nodup_range
    (s.modD (fun d => { d with vf := d.vf.set die (newState % 16) }))
  exact ⟨_, congrArg Host.Outcome.next (if_pos h), congrArg (·.1) hs, congrArg (·.2.1) hs,
    fun p h20 hl => ⟨(hp p hl).1 (List.mem_range.2 h20), fun hn => (hp p hl).2 (.inr hn)⟩⟩

end Sys2Proof.Machine
end

section
/-! # Firmware, ownership and the mailbox (18 R377 to R380, R382) -/

namespace Sys2Proof.Machine

/-- Events that answer equal states answer alike. -/
theorem next_eq {s t : State} (h : s = t) : (Host.Outcome.next s : Out State Fault Refusal) = .next t := congrArg _ h

/-! ## Firmware -/

theorem fwstart_kept {v : Word} {s : State} (hv : v.getLsbD 63 = false) (hf : s.d.mgmt.fatal = none)
    (h : s.d.mgmt.fwStart = true ∨ s.d.mgmt.fwRunning = true) : fwstart v s = s := by
  rcases h with h | h <;> simp only [fwstart, hf, h, hv] <;> simp

theorem fwstart_begins {v : Word} {s : State} (hv : v.getLsbD 63 = false) (hf : s.d.mgmt.fatal = none)
    (hs : s.d.mgmt.fwStart = false) (hr : s.d.mgmt.fwRunning = false) :
    fwstart v s = s.modMgmt (fun m => { m with fwLen := v.toNat, fwStart := true, fwLive := false, fwStat := 0 }) := by
  simp only [fwstart, hf, hs, hr, hv]
  rfl

/-- After a fatal error a FWSTART starts over, but for memory and MODID (log entry 29). -/
theorem fwstart_afterFatal {v : Word} {s : State} (hv : v.getLsbD 63 = false) (hf : s.d.mgmt.fatal.isSome = true) :
    fwstart v s = (((powerUp s).modM (fun k => { k with mem := s.m.mem, poison := s.m.poison, staging := s.m.staging })).modMgmt
      (fun g => { g with modid := s.d.mgmt.modid, modidLocked := s.d.mgmt.modidLocked })).modMgmt
        (fun g => { g with fwLen := v.toNat, fwStart := true, fwLive := false, fwStat := 0 }) := by
  simp only [fwstart, hf, hv]
  rfl

theorem fwstart_live_kept {v : Word} {s : State} (hv : v.getLsbD 63 = true)
    (h : s.d.mgmt.fatal.isSome = true ∨ s.d.mgmt.fwStart = true ∨ s.d.mgmt.fwRunning = false) : fwstart v s = s := by
  rcases h with h | h | h <;> simp only [fwstart, h, hv] <;> simp

theorem fwstart_live_begins {v : Word} {s : State} (hv : v.getLsbD 63 = true) (hf : s.d.mgmt.fatal = none)
    (hs : s.d.mgmt.fwStart = false) (hr : s.d.mgmt.fwRunning = true) :
    fwstart v s = s.modMgmt (fun m => { m with fwLen := v.toNat, fwStart := true, fwLive := true }) := by
  simp only [fwstart, hf, hs, hr, hv]
  rfl

/-- A verification that has ended, with a verdict in FWSTAT. -/
def verificationEnded (s : State) (code : Nat) : State := s.modMgmt (fun g => { g with fwStart := false, fwLive := false, fwStat := code })

section
variable {keyOk sigOk versionOk : Bool} {s : State}

theorem firmwareVerified_idle (hs : s.d.mgmt.fwStart = false) : firmwareVerified keyOk sigOk versionOk s = s := by
  simp [firmwareVerified, hs]

/-- The end of a verification, by the verdict that `firmwareCode` spells out. -/
theorem firmwareVerified_of_start (hs : s.d.mgmt.fwStart = true) {code : Nat}
    (hc : firmwareCode (s.d.mgmt.fwLen % 2 ^ 63) keyOk sigOk versionOk = code) :
    firmwareVerified keyOk sigOk versionOk s =
      if code ≠ 1 then (verificationEnded s code).modM (fun k => { k with staging := [] })
      else if s.d.mgmt.fwLive then verificationEnded s code
      else ((verificationEnded s code).modMgmt (fun g => { g with fwRunning := true, maxOpen := [4, 4, 4, 4] })).modD
        (fun d => { d with clusters := d.clusters.map (fun c => { c with en := true, delta := 16, intv := 21 }) }) := by
  have hm : (if 64 * 2 ^ 20 < s.d.mgmt.fwLen % 2 ^ 63 then 5 else if !keyOk then 2 else if !sigOk then 3 else if !versionOk then 4 else 1) =
      code := by
    rw [← hc]
    cases keyOk <;> cases sigOk <;> cases versionOk <;> rfl
  simp only [firmwareVerified, hm, hs]
  rfl

/-- An image that is refused starts nothing, and the staging window is cleared. -/
theorem firmwareVerified_refused (hs : s.d.mgmt.fwStart = true) {code : Nat}
    (hc : firmwareCode (s.d.mgmt.fwLen % 2 ^ 63) keyOk sigOk versionOk = code) (h1 : code ≠ 1) :
    firmwareVerified keyOk sigOk versionOk s = (verificationEnded s code).modM (fun k => { k with staging := [] }) := by
  rw [firmwareVerified_of_start hs hc, if_pos h1]

theorem firmwareVerified_live (hs : s.d.mgmt.fwStart = true)
    (hc : firmwareCode (s.d.mgmt.fwLen % 2 ^ 63) keyOk sigOk versionOk = 1) (hl : s.d.mgmt.fwLive = true) :
    firmwareVerified keyOk sigOk versionOk s = verificationEnded s 1 := by
  rw [firmwareVerified_of_start hs hc, if_neg (by decide), if_pos hl]

/-- An image that starts writes every DRIFTCTL and MAXOPEN (18 R378). -/
theorem firmwareVerified_started (hs : s.d.mgmt.fwStart = true)
    (hc : firmwareCode (s.d.mgmt.fwLen % 2 ^ 63) keyOk sigOk versionOk = 1) (hl : s.d.mgmt.fwLive = false) :
    firmwareVerified keyOk sigOk versionOk s =
      ((verificationEnded s 1).modMgmt (fun g => { g with fwRunning := true, maxOpen := [4, 4, 4, 4] })).modD
        (fun d => { d with clusters := d.clusters.map (fun c => { c with en := true, delta := 16, intv := 21 }) }) := by
  rw [firmwareVerified_of_start hs hc, if_neg (by decide), if_neg (by simp [hl])]

end

/-! ## Ownership -/

theorem countedInMdrop_dropMgmt (s : State) : CountedInMdrop s (dropMgmt s 1) := rfl

theorem mgmtWrite_owner {s : State} {ag : Agent} (h : isOwner s ag = true) (k : State → State) : mgmtWrite s ag k = k s := if_pos h

theorem mgmtWrite_other {s : State} {ag : Agent} (h : isOwner s ag = false) (k : State → State) :
    mgmtWrite s ag k = dropMgmt s 1 := if_neg (by simp [h])

/-- The answer of an event whose write the owner makes. -/
theorem next_ownerWrite {s : State} {ag : Agent} (h : isOwner s ag = true) {k : State → State} {t : State} (hk : k s = t) :
    (Host.Outcome.next (mgmtWrite s ag k) : Out State Fault Refusal) = .next t := next_eq ((mgmtWrite_owner h k).trans hk)

/-- The lowest of some claims. -/
theorem foldl_min_mem_le (i : Nat) (l : List Nat) : l.foldl min i ∈ i :: l ∧ ∀ j ∈ i :: l, l.foldl min i ≤ j :=
  List.min?_eq_some_iff.1 List.min?_cons'

/-- IDs are 24 bits wide (18 R376). -/
theorem map_mod_ids {ids : List Nat} (h : ∀ i ∈ ids, i < 2 ^ 24) : ids.map (· % 2 ^ 24) = ids := by
  conv_rhs => rw [← List.map_id ids]
  exact List.map_congr_left (fun i hi => Nat.mod_eq_of_lt (h i hi))

/-- Claims change the management block alone. -/
theorem ownerClaim_frame (ids : List Nat) (s : State) : (ownerClaim ids s).m = s.m ∧ (ownerClaim ids s).stands = s.stands := by
  unfold ownerClaim
  dsimp only
  split
  · exact ⟨rfl, rfl⟩
  · split
    · exact ⟨rfl, rfl⟩
    · split
      · exact ⟨rfl, rfl⟩
      · split
        · split <;> exact ⟨rfl, rfl⟩
        · exact ⟨rfl, rfl⟩

theorem ownerClaim_noFirmware {s : State} {ids : List Nat} (hne : ids ≠ []) (hi : ∀ i ∈ ids, i < 2 ^ 24)
    (hr : s.d.mgmt.fwRunning = false) : ownerClaim ids s = dropMgmt s ids.length := by
  obtain ⟨i, l, rfl⟩ := List.exists_cons_of_ne_nil hne
  simp only [ownerClaim, map_mod_ids hi, hr, Bool.not_false, if_true]

/-- Without an owner the lowest ID of one clk wins. -/
theorem ownerClaim_free {s : State} {ids : List Nat} (hne : ids ≠ []) (hi : ∀ i ∈ ids, i < 2 ^ 24)
    (hr : s.d.mgmt.fwRunning = true) (hh : s.d.mgmt.held = false) : ∃ w n, w ∈ ids ∧ (∀ i ∈ ids, w ≤ i) ∧
      ownerClaim ids s = dropMgmt (s.modMgmt (fun g => { g with held := true, owner := w })) n := by
  obtain ⟨i, l, rfl⟩ := List.exists_cons_of_ne_nil hne
  obtain ⟨h1, h2⟩ := foldl_min_mem_le i l
  refine ⟨_, ((i :: l).filter (· ≠ l.foldl min i)).length, h1, h2, ?_⟩
  simp only [ownerClaim, map_mod_ids hi, hr, hh, Bool.not_true, Bool.not_false, if_true, Bool.false_eq_true, if_false]

/-- Only the master that NEXT names replaces an owner. -/
theorem ownerClaim_named {s : State} {ids : List Nat} {n : Nat} (hi : ∀ i ∈ ids, i < 2 ^ 24)
    (hr : s.d.mgmt.fwRunning = true) (hh : s.d.mgmt.held = true) (hn : s.d.mgmt.next = some n) (hm : n ∈ ids) :
    ∃ k, ownerClaim ids s = dropMgmt (s.modMgmt (fun g => { g with owner := n, next := none })) k := by
  obtain ⟨i, l, rfl⟩ := List.exists_cons_of_ne_nil (List.ne_nil_of_mem hm)
  refine ⟨((i :: l).filter (· ≠ n)).length, ?_⟩
  simp only [ownerClaim, map_mod_ids hi, hr, hh, hn, Bool.not_true, Bool.false_eq_true, if_false, List.contains_iff_mem.2 hm, if_true]

theorem ownerClaim_held {s : State} {ids : List Nat} (hne : ids ≠ []) (hi : ∀ i ∈ ids, i < 2 ^ 24)
    (hr : s.d.mgmt.fwRunning = true) (hh : s.d.mgmt.held = true) (hn : ∀ n, s.d.mgmt.next = some n → n ∉ ids) :
    ∃ k, ownerClaim ids s = dropMgmt s k := by
  obtain ⟨i, l, rfl⟩ := List.exists_cons_of_ne_nil hne
  refine ⟨((i :: l).filter (· ≠ s.d.mgmt.owner)).length, ?_⟩
  simp only [ownerClaim, map_mod_ids hi, hr, hh, Bool.not_true, Bool.false_eq_true, if_false]
  split
  · next n hs =>
    rw [if_neg (by simpa using hn n hs)]
  · rfl

/-! ## The mailbox and the core that replaces another -/

theorem mailbox_busy {s : State} (h : s.d.mgmt.mboxBusy = true) (op arg : Nat) : mailbox op arg s = s := if_pos h

/-- An operation of the mailbox is under way. -/
def mboxBegun (s : State) (op arg : Nat) : State := s.modMgmt (fun m => { m with mboxOp := op, mboxArg := arg, mboxBusy := true })

theorem mailbox_recalibrate {s : State} (h : s.d.mgmt.mboxBusy = false) (arg : Nat) :
    mailbox 1 arg s = ((mboxBegun s 1 arg).modMgmt (fun m => { m with heldStacks := [arg] })).modM
      (fun m => { m with rows := m.rows.filter (fun o => o.stack ≠ arg) }) := if_neg (by simp [h])

theorem mailbox_retireCore {s : State} (h : s.d.mgmt.mboxBusy = false) (arg : Nat) : mailbox 2 arg s = mboxBegun s 2 arg :=
  if_neg (by simp [h])

theorem mailbox_retireChannel {s : State} (h : s.d.mgmt.mboxBusy = false) (arg : Nat) : mailbox 3 arg s = mboxBegun s 3 arg :=
  if_neg (by simp [h])

theorem mailbox_readCounters {s : State} (h : s.d.mgmt.mboxBusy = false) (arg : Nat) : mailbox 4 arg s = mboxBegun s 4 arg :=
  if_neg (by simp [h])

/-- An operation of the mailbox has ended, with a status. -/
def mboxEnded (s : State) (code : Nat) : State := s.modMgmt (fun m => { m with mboxBusy := false, mboxStatus := code })

theorem serviceDone_idle {s : State} (h : s.d.mgmt.mboxBusy = false) : serviceDone s = s := if_pos (by simp [h])

theorem serviceDone_recalibrate {s : State} (h : s.d.mgmt.mboxBusy = true) (ho : s.d.mgmt.mboxOp = 1) :
    serviceDone s = mboxEnded (s.modMgmt (fun m => { m with heldStacks := [] })) 0 := by
  simp only [serviceDone, h, ho]
  rfl

theorem serviceDone_retireChannel {s : State} (h : s.d.mgmt.mboxBusy = true) (ho : s.d.mgmt.mboxOp = 3) :
    serviceDone s = mboxEnded (s.modMgmt (fun m => { m with retiredChannels := m.mboxArg :: m.retiredChannels })) 0 := by
  simp only [serviceDone, h, ho]
  rfl

theorem serviceDone_readCounters {s : State} (h : s.d.mgmt.mboxBusy = true) (ho : s.d.mgmt.mboxOp = 4) :
    serviceDone s = mboxEnded (s.modMgmt (fun g => { g with
      mboxData := s.m.seracCnts ++ s.m.lostCnts.map (fun x => (64 * 192 * 3 + x.1, x.2)) })) 0 := by
  simp only [serviceDone, h, ho]
  rfl

theorem couldReplace_iff {s : State} {core r : Nat} : CouldReplace s core r ↔
    r / 12 = core / 12 ∧ (r != core && partOfCore s r == partOfCore s core && decide (partOfCore s r < 20) &&
      !(s.d.core r).retired && (standsOn s r).isEmpty) = true := by
  simp only [CouldReplace, standsOn, Bool.and_eq_true, bne_iff_ne, beq_iff_eq, decide_eq_true_eq, Bool.not_eq_true',
    List.isEmpty_iff, List.filter_eq_nil_iff]
  constructor
  · rintro ⟨h1, h2, h3, h4, h5, h6⟩
    exact ⟨h2, ⟨⟨⟨h1, h3⟩, h3 ▸ h4⟩, h5⟩, h6⟩
  · rintro ⟨h2, ⟨⟨⟨h1, h3⟩, h4⟩, h5⟩, h6⟩
    exact ⟨h1, h2, h3, h3 ▸ h4, h5, h6⟩

/-- The model's replacement core is the lowest that may take over (18 R382). -/
theorem replacementOf_eq_some {s : State} {core r : Nat} (h : CouldReplace s core r) (hmin : ∀ q, q < r → ¬ CouldReplace s core q) :
    replacementOf s core = some r := by
  have hr := h.2.1
  have e : 12 * (core / 12) + r % 12 = r := by omega
  rw [replacementOf, List.find?_map, Option.map_eq_some_iff]
  refine ⟨r % 12, List.find?_range_eq_some.2 ⟨?_, List.mem_range.2 (Nat.mod_lt _ (by decide)), fun j hj => ?_⟩, e⟩
  · rw [Function.comp_apply, coreCluster, e]
    exact (couldReplace_iff.1 h).2
  · rw [Function.comp_apply, coreCluster, Bool.not_eq_true', Bool.eq_false_iff]
    exact fun hc => hmin (12 * (core / 12) + j) (by omega) (couldReplace_iff.2 ⟨by omega, hc⟩)

theorem replacementOf_eq_none {s : State} {core : Nat} (h : ∀ r, ¬ CouldReplace s core r) : replacementOf s core = none := by
  rw [replacementOf, List.find?_map, Option.map_eq_none_iff, List.find?_eq_none]
  intro j hj hc
  have hj := List.mem_range.1 hj
  exact h (12 * (core / 12) + j) (couldReplace_iff.2 ⟨by omega, hc⟩)

theorem replacementOf_isSome {s : State} {core r : Nat} (h : CouldReplace s core r) : (replacementOf s core).isSome = true := by
  induction r using Nat.strong_induction_on with
  | _ r ih =>
    by_cases hq : ∃ q, q < r ∧ CouldReplace s core q
    · obtain ⟨q, hq, hc⟩ := hq
      exact ih q hq hc
    · rw [replacementOf_eq_some h (fun q hq' hc => hq ⟨q, hq', hc⟩)]
      rfl

theorem isEmpty_standsOn {s : State} {core : Nat} : (standsOn s core).isEmpty = true ↔ ∀ st ∈ s.stands, st.core ≠ core := by
  simp [standsOn]

/-! ## Retirement of a core (18 R382) -/

section
variable {s : State} {ag : Agent} (ho : isOwner s ag = true) (hb : s.d.mgmt.mboxBusy = false)
include ho hb

/-- A core that no other may replace is only named in the mailbox, and the operation will be refused. -/
theorem execRetireCore_alone {core : Nat} (h : ∀ r, ¬ CouldReplace s core r) :
    execRetireCore ag core s = .next (mboxBegun s 2 core) := by
  refine next_ownerWrite ho ?_
  rw [if_neg (by simp [hb]), replacementOf_eq_none h, mailbox_retireCore hb]
  rfl

/-- The stands of a core that another may replace are to be saved at once (16 R349). -/
theorem execRetireCore_replaced {core r : Nat} (h : CouldReplace s core r) :
    execRetireCore ag core s = .next (forceSaves (mboxBegun s 2 core) core) := by
  refine next_ownerWrite ho ?_
  rw [if_neg (by simp [hb]), if_pos (replacementOf_isSome h), mailbox_retireCore hb]

end

section
variable {s : State} (hb : s.d.mgmt.mboxBusy = true) (ho : s.d.mgmt.mboxOp = 2)
include hb ho

theorem serviceDone_alone (h : ∀ r, ¬ CouldReplace s s.d.mgmt.mboxArg r) : serviceDone s = mboxEnded s 1 := by
  simp only [serviceDone, hb, ho, replacementOf_eq_none h]
  rfl

variable {r : Nat} (hr : CouldReplace s s.d.mgmt.mboxArg r) (hmin : ∀ q, q < r → ¬ CouldReplace s s.d.mgmt.mboxArg q)
include hr hmin

/-- The operation waits for the core's stands. -/
theorem serviceDone_waits (h : ∃ st ∈ s.stands, st.core = s.d.mgmt.mboxArg) : serviceDone s = s := by
  have he : (standsOn s s.d.mgmt.mboxArg).isEmpty = false := Bool.eq_false_iff.2 (fun hc => by
    obtain ⟨st, hst, hcore⟩ := h
    exact isEmpty_standsOn.1 hc st hst hcore)
  simp only [serviceDone, hb, ho, replacementOf_eq_some hr hmin, he]
  rfl

theorem serviceDone_retires (h : ∀ st ∈ s.stands, st.core ≠ s.d.mgmt.mboxArg) : serviceDone s =
    mboxEnded ((exchangeMap s s.d.mgmt.mboxArg r).modCore s.d.mgmt.mboxArg (fun c => { c with retired := true })) 0 := by
  simp only [serviceDone, hb, ho, replacementOf_eq_some hr hmin, isEmpty_standsOn.2 h]
  rfl

end

/-- The clusters after map entries of two cores are exchanged. -/
theorem exchangeMap_clusters {s : State} {a b k : Nat} {c : Cluster} (h : s.d.clusters[k]? = some c) :
    (exchangeMap s a b).d.clusters[k]? = some (if k = a / 12 then
      { c with map := c.map.map (fun x => if x = a then b else if x = b then a else x) } else c) := by
  simp only [exchangeMap, State.modD_d, List.getElem?_modify, h, coreCluster, eq_comm (a := a / 12)]
  split <;> rfl

end Sys2Proof.Machine
end

section
/-! # Partitions (18 R381) -/

namespace Sys2Proof.Machine

/-! ## Cores of half-clusters -/

theorem mem_coresOfHalves {halves c : Nat} : c ∈ coresOfHalves halves ↔ c < 192 ∧ halves.testBit (c / 6) = true := by
  simp [coresOfHalves]

/-- A change of some cores changes nothing else. -/
theorem foldl_modCore (f : Core → Core) (l : List Nat) (s : State) :
    ∃ cs, l.foldl (fun s c => s.modCore c f) s = s.modD (fun d => { d with cores := cs }) := by
  induction l generalizing s with
  | nil => exact ⟨s.d.cores, rfl⟩
  | cons c l ih =>
    obtain ⟨cs, h⟩ := ih (s.modCore c f)
    exact ⟨cs, h⟩

/-- The occupancy counters of some cores become 0 (09 R214). -/
theorem occ_foldl_clear (l : List Nat) (s : State) (c : Nat) (h : c ∈ l ∨ (s.d.core c).occ = []) :
    ((l.foldl (fun s c => s.modCore c (fun k => { k with occ := [] })) s).d.core c).occ = [] := by
  induction l generalizing s with
  | nil => exact h.resolve_left nofun
  | cons a l ih =>
    refine ih _ ?_
    rw [State.core_modCore]
    split
    · exact .inr rfl
    · next hc =>
      rcases h with h | h
      · rcases List.mem_cons.1 h with rfl | h
        · exact .inr (by rw [Dev.core_of_le (Nat.le_of_not_lt fun hl => hc ⟨rfl, hl⟩)]; rfl)
        · exact .inl h
      · exact .inr h

/-! ## The identity map (00 R3; 08 R193) -/

/-- Afterwards no swap concerns the half-clusters, and their map entries are the identity. -/
theorem identityMap_clusters {s : State} {halves k : Nat} {c : Cluster} (h : (identityMap s halves).d.clusters[k]? = some c) :
    (∀ p, c.pair = some p → halves.testBit (p.1 / 6) = false) ∧
      ∀ (j x : Nat), c.map[j]? = some x → halves.testBit ((12 * k + j) / 6) = true → x = 12 * k + j := by
  simp only [identityMap, State.modD_d, List.getElem?_mapIdx, Option.map_eq_some_iff] at h
  obtain ⟨c0, -, rfl⟩ := h
  refine ⟨fun p hp => ?_, fun j x hx hb => ?_⟩
  · simpa using (Option.filter_eq_some_iff.1 hp).2
  · simp only [List.getElem?_mapIdx, Option.map_eq_some_iff, hb, if_true] at hx
    obtain ⟨-, -, rfl⟩ := hx
    rfl

/-! ## Granules (03 R79) -/

/-- A filter by keys leaves what it lets through and drops the rest. -/
theorem memByte_filter (m : List Cell) (P : Nat → Bool) (a : Nat) :
    memByte (m.filter (fun c => P c.1)) a = if P a then memByte m a else memDefault := by
  unfold memByte
  induction m with
  | nil => simp [spGet]
  | cons e r ih =>
    obtain ⟨k, v⟩ := e
    by_cases hk : k = a
    · subst hk
      cases hP : P k <;> simp_all [spGet]
    · cases hP : P k <;> simp_all [spGet]

/-- Whether a granule of a key number holds an address, as the model decides it. -/
def granuleHit (s : State) (key a : Nat) : Bool :=
  (s.m.keys.filter (fun k => k.2.2 == key)).any (fun k => inRange a (k.1 * 2 ^ 21) (k.2.1 * 2 ^ 21))

theorem granuleHit_iff {s : State} {key a : Nat} : granuleHit s key a = true ↔ InGranule s key a := by
  simp [granuleHit, InGranule, inRange]

/-- Addresses of one granule lie in it together. -/
theorem inGranule_of_div_eq {s : State} {key a b : Nat} (h : InGranule s key a) (hab : b / 2 ^ 21 = a / 2 ^ 21) : InGranule s key b := by
  obtain ⟨k, hk, hkey, h1, h2⟩ := h
  rw [← Nat.add_mul, ← Nat.div_lt_iff_lt_mul (Nat.two_pow_pos 21)] at h2
  rw [← Nat.le_div_iff_mul_le (Nat.two_pow_pos 21)] at h1
  refine ⟨k, hk, hkey, (Nat.le_div_iff_mul_le (Nat.two_pow_pos 21)).1 (hab ▸ h1), ?_⟩
  rw [← Nat.add_mul, ← Nat.div_lt_iff_lt_mul (Nat.two_pow_pos 21), hab]
  exact h2

theorem zeroGranules_eq (s : State) (key : Nat) : zeroGranules s key = s.modM (fun m => { m with
    mem := m.mem.filter (fun c => !granuleHit s key c.1)
    poison := m.poison.filter (fun l => !granuleHit s key (l * 128))
    lost := m.lost.filter (fun w => !granuleHit s key (w * 4))
    unverified := m.unverified.filter (fun l => !granuleHit s key (l * 128)) }) := rfl

theorem zeroGranules_in {s : State} {key a : Nat} (h : InGranule s key a) :
    memByte (zeroGranules s key).m.mem a = 0 ∧ a / 128 ∉ (zeroGranules s key).m.poison ∧ a / 4 ∉ (zeroGranules s key).m.lost := by
  have hit (b : Nat) (hb : b / 2 ^ 21 = a / 2 ^ 21) : granuleHit s key b = true := granuleHit_iff.2 (inGranule_of_div_eq h hb)
  rw [zeroGranules_eq]
  refine ⟨?_, fun hm => ?_, fun hm => ?_⟩
  · simp [memByte_filter _ (fun a => !granuleHit s key a), hit a rfl, memDefault]
  · simpa [hit (a / 128 * 128) (by omega)] using (List.mem_filter.1 hm).2
  · simpa [hit (a / 4 * 4) (by omega)] using (List.mem_filter.1 hm).2

theorem zeroGranules_out {s : State} {key a : Nat} (h : ¬ InGranule s key a) :
    memByte (zeroGranules s key).m.mem a = memByte s.m.mem a := by
  have hit : granuleHit s key a = false := Bool.eq_false_iff.2 (fun hc => h (granuleHit_iff.1 hc))
  simp [zeroGranules_eq, memByte_filter _ (fun a => !granuleHit s key a), hit]

/-! ## Create -/

/-- The half-clusters that a create asks for are free. -/
def CreateFree (s : State) (part h : Nat) : Prop :=
  h ≠ 0 ∧ (s.d.part part).alive = false ∧ ∀ q ∈ s.d.parts, q.alive = true → q.halves &&& h = 0

theorem createFree_iff {s : State} {part h : Nat} (hp : part < 20) : (decide (part < 20) && h != 0 && !(s.d.part part).alive &&
    s.d.parts.all (fun q => !q.alive || q.halves &&& h == 0)) = true ↔ CreateFree s part h := by
  simp [CreateFree, hp, and_assoc, imp_iff_not_or]

theorem partitionCreate_refused {s : State} {part halves : Nat} (hp : part < 20) (h : ¬ CreateFree s part (halves % 2 ^ 32)) :
    partitionCreate part halves s = s.modPart part (fun p => { p with halvesReg := halves % 2 ^ 32 }) := by
  unfold partitionCreate
  dsimp only
  rw [if_pos]
  rw [Bool.not_eq_true', Bool.eq_false_iff]
  exact fun hc => h ((createFree_iff hp).1 hc)

theorem partitionCreate_free {s : State} {part halves : Nat} (hp : part < 20) (h : CreateFree s part (halves % 2 ^ 32)) :
    ∃ cs, partitionCreate part halves s = identityMap ((((zeroGranules s part).modPart part (fun _ => Partition.created (halves % 2 ^ 32))).modMgmt
      (fun m => { m with modidLocked := true })).modD (fun d => { d with cores := cs })) (halves % 2 ^ 32) := by
  unfold partitionCreate
  dsimp only
  rw [if_neg (by rw [(createFree_iff hp).2 h]; decide)]
  obtain ⟨cs, hcs⟩ := foldl_modCore (fun k => { k with l1cur := 1, l1req := 1, l1st := 0, conv := none, occ := [] })
    (coresOfHalves (halves % 2 ^ 32))
    (((zeroGranules s part).modPart part (fun _ => Partition.created (halves % 2 ^ 32))).modMgmt (fun m => { m with modidLocked := true }))
  exact ⟨cs, by rw [hcs]⟩

/-- What a create makes: the block with the fields of firmware, the identity map, and granules of zeros. -/
theorem partitionCreate_creates {s : State} {part halves : Nat} (hp : part < 20) (hl : part < s.d.parts.length)
    (h : CreateFree s part (halves % 2 ^ 32)) :
    let t := partitionCreate part halves s
    t.stands = s.stands ∧ t.d.mgmt.modidLocked = true ∧ t.d.part part = Partition.created (halves % 2 ^ 32) ∧
      (∀ p, p ≠ part → t.d.part p = s.d.part p) ∧
      (∀ k c, t.d.clusters[k]? = some c → (∀ p, c.pair = some p → (halves % 2 ^ 32).testBit (p.1 / 6) = false) ∧
        ∀ (j x : Nat), c.map[j]? = some x → (halves % 2 ^ 32).testBit ((12 * k + j) / 6) = true → x = 12 * k + j) ∧
      ∀ a, (InGranule s part a → memByte t.m.mem a = 0 ∧ a / 128 ∉ t.m.poison ∧ a / 4 ∉ t.m.lost) ∧
        (¬ InGranule s part a → memByte t.m.mem a = memByte s.m.mem a) := by
  obtain ⟨cs, hc⟩ := partitionCreate_free hp h
  rw [hc]
  have hpart (p : Nat) := State.part_modPart (zeroGranules s part) part (fun _ => Partition.created (halves % 2 ^ 32)) p
  exact ⟨rfl, rfl, (hpart part).trans (if_pos ⟨rfl, hl⟩), fun p hne => (hpart p).trans (if_neg (fun hq => hne hq.1)),
    fun k c hk => identityMap_clusters hk, fun a => ⟨zeroGranules_in, zeroGranules_out⟩⟩

theorem anyPartBusy_iff {s : State} : anyPartBusy s = true ↔ ∃ q ∈ s.d.parts, q.busy = true := by simp [anyPartBusy]

theorem partctl_busy {s : State} (h : ∃ q ∈ s.d.parts, q.busy = true) (part halves op : Nat) : partctl part halves op s = dropMgmt s 1 :=
  if_pos (anyPartBusy_iff.2 h)

theorem partctl_create {s : State} (h : ∀ q ∈ s.d.parts, q.busy = false) (part halves : Nat) :
    partctl part halves 1 s = partitionCreate part halves s :=
  if_neg (fun hb => by obtain ⟨q, hq, hb⟩ := anyPartBusy_iff.1 hb; simp [h q hq] at hb)

/-! ## Reset and remove -/

/-- Some stands leave, one after another: those of other numbers stay, with their groves. -/
theorem stands_foldl_release (l : List Stand) (s : State) :
    let t := l.foldl (fun s st => dropReceiver (releaseStand s st) st.uid) s
    (∀ z ∈ t.stands, ∃ z0 ∈ s.stands, z0.uid = z.uid ∧ z0.part = z.part ∧ ∀ st ∈ l, st.uid ≠ z.uid) ∧
    (∀ z0 ∈ s.stands, (∀ st ∈ l, st.uid ≠ z0.uid) → ∃ z ∈ t.stands, z.uid = z0.uid ∧ z.groves = z0.groves) := by
  induction l generalizing s with
  | nil => exact ⟨fun z hz => ⟨z, hz, rfl, rfl, List.forall_mem_nil _⟩, fun z hz _ => ⟨z, hz, rfl, rfl⟩⟩
  | cons a l ih =>
    obtain ⟨h1, h2⟩ := ih (dropReceiver (releaseStand s a) a.uid)
    refine ⟨fun z hz => ?_, fun z0 hz0 hne => ?_⟩
    · obtain ⟨y, hy, hu, hp, hl⟩ := h1 z hz
      obtain ⟨z0, hz0, rfl⟩ := List.mem_map.1 hy
      obtain ⟨hz0, hne⟩ := List.mem_filter.1 hz0
      refine ⟨z0, hz0, hu, hp, fun st hst => ?_⟩
      rcases List.mem_cons.1 hst with rfl | hst
      · have hne : z0.uid ≠ st.uid := by simpa using hne
        exact fun hc => hne (hu.trans hc.symm)
      · exact hl st hst
    · have hz : z0 ∈ (releaseStand s a).stands := List.mem_filter.2 ⟨hz0, by simpa using (hne a List.mem_cons_self).symm⟩
      have hy : ∃ y ∈ (dropReceiver (releaseStand s a) a.uid).stands, y.uid = z0.uid ∧ y.groves = z0.groves :=
        ⟨_, List.mem_map_of_mem hz, rfl, rfl⟩
      obtain ⟨y, hy, hu, hg⟩ := hy
      obtain ⟨z, hz, hzu, hzg⟩ := h2 y hy (fun st hst => hu ▸ hne st (List.mem_cons_of_mem _ hst))
      exact ⟨z, hz, hzu.trans hu, hzg.trans hg⟩

/-- A stand that leaves changes no register of the device beside its core's. -/
theorem d_foldl_release (l : List Stand) (s : State) :
    ∃ cs, (l.foldl (fun s st => dropReceiver (releaseStand s st) st.uid) s).d = { s.d with cores := cs } := by
  induction l generalizing s with
  | nil => exact ⟨s.d.cores, rfl⟩
  | cons a l ih => exact ih (dropReceiver (releaseStand s a) a.uid)

/-- What a partition that stops leaves: no stand, record or clearing of its own, every register block, and each stand of
another partition whose number is its own. -/
theorem stopPartition_leaves (part : Nat) (s : State) :
    let t := stopPartition part s
    (∀ st ∈ t.stands, st.part ≠ part) ∧ (∀ st ∈ t.d.saved, st.part ≠ part) ∧ (∀ c ∈ t.d.clearings, c.part ≠ part) ∧
      t.d.parts = s.d.parts ∧ ∀ st ∈ s.stands, st.part ≠ part → (∀ z ∈ s.stands, z.uid = st.uid → z = st) →
        ∃ z ∈ t.stands, z.uid = st.uid ∧ z.groves = st.groves := by
  obtain ⟨hgone, hkept⟩ := stands_foldl_release (s.stands.filter (fun st => st.part == part)) s
  obtain ⟨cs, hd⟩ := d_foldl_release (s.stands.filter (fun st => st.part == part)) s
  unfold stopPartition
  extract_lets ids u v w t
  have ht : t.beside = (dropSwaps w (w.d.part part).halves).beside := beside_foldl beside_loseCore _ _
  have hstands : t.stands = u.stands := congrArg (·.1) ht
  have hsaved : t.d.saved = u.d.saved.filter (fun st => st.part ≠ part) := congrArg (·.2.saved) ht
  have hclear : t.d.clearings = u.d.clearings.filter (fun c => c.part ≠ part) := congrArg (·.2.clearings) ht
  have hparts : t.d.parts = u.d.parts := congrArg (·.2.parts) ht
  refine ⟨fun st hst hp => ?_, fun st hst => ?_, fun c hc => ?_, ?_, fun st hst hp huniq => ?_⟩
  · obtain ⟨z0, hz0, hu, hpart, hne⟩ := hgone st (hstands ▸ hst)
    exact hne z0 (List.mem_filter.2 ⟨hz0, by simp [hpart, hp]⟩) hu
  · rw [hsaved] at hst
    exact of_decide_eq_true (List.mem_filter.1 hst).2
  · rw [hclear] at hc
    exact of_decide_eq_true (List.mem_filter.1 hc).2
  · rw [hparts, show u.d = _ from hd]
  · rw [hstands]
    refine hkept st hst (fun y hy hu => hp ?_)
    obtain ⟨hy, hyp⟩ := List.mem_filter.1 hy
    rw [← huniq y hy hu]
    simpa using hyp

/-- A reset (2) or a remove (3) of a partition that exists. -/
theorem partctl_stop {s : State} (h : ∀ q ∈ s.d.parts, q.busy = false) {part : Nat} (ha : (s.d.part part).alive = true) (halves op : Nat)
    (hop : op = 2 ∨ op = 3) : partctl part halves op s =
      (stopPartition part (s.modPart part (fun q => { q with halvesReg := halves % 2 ^ 32 }))).modPart part
        (fun q => { q with busy := true, resetting := true, removing := op == 3 }) := by
  have hb : anyPartBusy s ≠ true := fun hb => by obtain ⟨q, hq, hb⟩ := anyPartBusy_iff.1 hb; simp [h q hq] at hb
  have ha' : ((s.modPart part (fun q => { q with halvesReg := halves % 2 ^ 32 })).d.part part).alive = true := by
    rw [State.part_modPart]; split <;> exact ha
  rcases hop with rfl | rfl <;> simp only [partctl, if_neg hb, ha', if_true]

/-- A reset or remove of a partition that exists: what is left, and that the operation is under way. -/
theorem partctl_stop_leaves {s : State} (h : ∀ q ∈ s.d.parts, q.busy = false) {part : Nat} (ha : (s.d.part part).alive = true)
    (halves op : Nat) (hop : op = 2 ∨ op = 3) :
    let t := partctl part halves op s
    (∀ st ∈ t.stands, st.part ≠ part) ∧ (∀ st ∈ t.d.saved, st.part ≠ part) ∧ (∀ c ∈ t.d.clearings, c.part ≠ part) ∧
      (t.d.part part).busy = true ∧ (t.d.part part).resetting = true ∧ (t.d.part part).removing = (op == 3) ∧
      (∀ p, p ≠ part → t.d.part p = s.d.part p) ∧ ∀ st ∈ s.stands, st.part ≠ part → (∀ z ∈ s.stands, z.uid = st.uid → z = st) →
        ∃ z ∈ t.stands, z.uid = st.uid ∧ z.groves = st.groves := by
  obtain ⟨h1, h2, h3, hparts, h4⟩ := stopPartition_leaves part (s.modPart part (fun q => { q with halvesReg := halves % 2 ^ 32 }))
  have hl : part < s.d.parts.length := Dev.lt_of_part_ne (fun hr => by rw [hr] at ha; cases ha)
  rw [partctl_stop h ha halves op hop]
  have hl' : part < (stopPartition part (s.modPart part (fun q => { q with halvesReg := halves % 2 ^ 32 }))).d.parts.length := by
    rw [hparts, State.length_parts_modPart]; exact hl
  have hself (f : Partition → Partition) (u : State) (hu : part < u.d.parts.length) : (u.modPart part f).d.part part = f (u.d.part part) := by
    rw [State.part_modPart, if_pos ⟨rfl, hu⟩]
  refine ⟨h1, h2, h3, ?_, ?_, ?_, fun p hp => ?_, h4⟩
  · rw [hself _ _ hl']
  · rw [hself _ _ hl']
  · rw [hself _ _ hl']
  · rw [State.part_modPart, if_neg (fun hq => hp hq.1), Dev.part, hparts]
    exact (State.part_modPart s part _ p).trans (if_neg (fun hq => hp hq.1))

/-! ## The end of an operation -/

theorem partitionOpComplete_idle {s : State} {part : Nat} (h : (s.d.part part).busy = false) : execPartitionOpComplete part s = .next s := by
  simp [execPartitionOpComplete, h]

theorem partitionOpComplete_kept {s : State} {part : Nat} (h : (s.d.part part).busy = true) (hr : (s.d.part part).removing = false) :
    execPartitionOpComplete part s = .next (s.modPart part (fun q => { q with busy := false, resetting := false })) := by
  simp [execPartitionOpComplete, h, hr]

/-- A removed partition's block is reset, and the counters of its cores are 0 (09 R214). -/
theorem partitionOpComplete_removed {s : State} {part : Nat} (h : (s.d.part part).busy = true) (hr : (s.d.part part).removing = true) :
    ∃ t, execPartitionOpComplete part s = .next t ∧ t.stands = s.stands ∧ t.m = s.m ∧
      t.d.part part = { Partition.reset with halvesReg := (s.d.part part).halvesReg } ∧
      ∀ c, c < 192 → (s.d.part part).halves.testBit (c / 6) = true → (t.d.core c).occ = [] := by
  have hl : part < s.d.parts.length := Dev.lt_of_part_ne (fun hr => by rw [hr] at h; cases h)
  have hocc := occ_foldl_clear (coresOfHalves (s.d.part part).halves) s
  obtain ⟨cs, hcs⟩ := foldl_modCore (fun k => { k with occ := [] }) (coresOfHalves (s.d.part part).halves) s
  rw [hcs] at hocc
  have he : execPartitionOpComplete part s = .next ((identityMap (s.modD (fun d => { d with cores := cs })) (s.d.part part).halves).modPart
      part (fun q => { Partition.reset with halvesReg := q.halvesReg })) := by
    simp only [execPartitionOpComplete, h, hr, hcs]
    rfl
  refine ⟨_, he, rfl, rfl, ?_, fun c hc hb => hocc c (.inl (mem_coresOfHalves.2 ⟨hc, hb⟩))⟩
  rw [State.part_modPart, if_pos ⟨rfl, hl⟩]
  rfl

end Sys2Proof.Machine
end

section
/-! # The dump of a fatal error, and the machine after one (18 R383) -/

namespace Sys2Proof.Machine

/-! ## Bytes laid over a memory: what each address reads -/

theorem spGet_append_left {α : Type} {d : α} {l r : List (Nat × α)} {a : Nat} (h : ∀ e ∈ r, e.1 ≠ a) :
    spGet d (l ++ r) a = spGet d l a := by
  induction l with
  | nil =>
    induction r with
    | nil => rfl
    | cons e r ih =>
      rw [List.forall_mem_cons] at h
      simpa [spGet, h.1] using ih h.2
  | cons e l ih => simp only [List.cons_append, spGet, ih]

theorem spGet_append_right {α : Type} {d : α} {l r : List (Nat × α)} {a : Nat} (h : ∀ e ∈ l, e.1 ≠ a) :
    spGet d (l ++ r) a = spGet d r a := by
  induction l with
  | nil => rfl
  | cons e l ih =>
    rw [List.forall_mem_cons] at h
    rw [List.cons_append, spGet, if_neg h.1, ih h.2]

/-- Numbered bytes, those at the default left out, read as the bytes. -/
theorem memByte_numbered (bs : List Byte) (a k x : Nat) :
    memByte (((bs.zipIdx k).map (fun y => ((a + y.2, y.1) : Cell))).filter (fun c => decide (c.2 ≠ memDefault))) x =
      if a + k ≤ x ∧ x < a + k + bs.length then bs.getD (x - (a + k)) 0 else memDefault := by
  induction bs generalizing k with
  | nil => simp [memByte, spGet]
  | cons b bs ih =>
    have hi := ih (k + 1)
    simp only [List.zipIdx_cons, List.map_cons, List.filter_cons, List.length_cons]
    by_cases hx : x = a + k
    · subst hx
      rw [if_neg (by omega)] at hi
      have hr : a + k ≤ a + k ∧ a + k < a + k + (bs.length + 1) := by omega
      refine Eq.trans ?_ (if_pos hr).symm
      rw [Nat.sub_self, List.getD_cons_zero]
      split
      · rw [memByte, spGet, if_pos rfl]
      · next hb =>
        rw [hi]
        exact (by simpa using hb : b = memDefault).symm
    · have hskip (r : List Cell) : memByte (if decide (b ≠ memDefault) then (a + k, b) :: r else r) x = memByte r x := by
        split
        · rw [memByte, spGet, if_neg (Ne.symm hx), memByte]
        · rfl
      refine (hskip _).trans (hi.trans ?_)
      by_cases hr : a + (k + 1) ≤ x ∧ x < a + (k + 1) + bs.length
      · rw [if_pos hr, if_pos (by omega), show x - (a + k) = x - (a + (k + 1)) + 1 by omega, List.getD_cons_succ]
      · rw [if_neg hr, if_neg (by omega)]

/-- Bytes laid over a memory read as they are, every other byte as before. -/
theorem memByte_memLay (m : List Cell) (a : Nat) (bs : List Byte) (x : Nat) :
    memByte (memLay m a bs) x = if a ≤ x ∧ x < a + bs.length then bs.getD (x - a) 0 else memByte m x := by
  have hlow := memByte_filter m (fun y => decide (y < a)) x
  have hhigh := memByte_filter m (fun y => decide (a + bs.length ≤ y)) x
  simp only [decide_eq_true_eq] at hlow hhigh
  have hmid := memByte_numbered bs a 0 x
  have hkeys : ∀ e ∈ ((bs.zipIdx.map (fun y => ((a + y.2, y.1) : Cell))).filter (fun c => decide (c.2 ≠ memDefault))),
      a ≤ e.1 ∧ e.1 < a + bs.length := by
    intro e he
    obtain ⟨⟨b, i⟩, hy, rfl⟩ := List.mem_map.1 (List.mem_filter.1 he).1
    have := List.snd_lt_of_mem_zipIdx hy
    simp at this ⊢
    omega
  have hlast {y : Nat} (hy : y < a + bs.length) : ∀ e ∈ m.filter (fun c => decide (a + bs.length ≤ c.1)), e.1 ≠ y := fun e he => by
    have := of_decide_eq_true (List.mem_filter.1 he).2; omega
  have hfirst {y : Nat} (hy : a ≤ y) : ∀ e ∈ m.filter (fun c => decide (c.1 < a)), e.1 ≠ y := fun e he => by
    have := of_decide_eq_true (List.mem_filter.1 he).2; omega
  unfold memByte at *
  unfold memLay
  rcases Nat.lt_or_ge x a with h | h
  · rw [spGet_append_left (hlast (by omega)), spGet_append_left (fun e he => by have := hkeys e he; omega), hlow, if_pos h,
      if_neg (by omega)]
  · by_cases h' : x < a + bs.length
    · rw [spGet_append_left (hlast h'), spGet_append_right (hfirst h), hmid, if_pos ⟨h, h'⟩, if_pos ⟨h, h'⟩]
      rfl
    · rw [spGet_append_right, hhigh, if_pos (Nat.le_of_not_lt h'), if_neg (by omega)]
      intro e he
      rcases List.mem_append.1 he with he | he
      · exact hfirst h e he
      · have := hkeys e he; omega

/-- Bytes laid over host memory, whose addresses wrap (02 R31). -/
theorem memByte_hostLay {m : List Cell} {a : Nat} {bs : List Byte} (ha : a < 2 ^ 64) (hl : bs.length ≤ 2 ^ 64) :
    (∀ k, k < bs.length → memByte (hostLay m a bs) ((a + k) % 2 ^ 64) = bs.getD k 0) ∧
      ∀ x, (∀ k, k < bs.length → x ≠ (a + k) % 2 ^ 64) → memByte (hostLay m a bs) x = memByte m x := by
  simp only [hostLay, memByte_memLay, List.length_take, List.length_drop, Nat.zero_le, true_and, Nat.zero_add, Nat.sub_zero]
  refine ⟨fun k hk => ?_, fun x hx => ?_⟩
  · by_cases hw : a + k < 2 ^ 64
    · rw [Nat.mod_eq_of_lt hw, if_neg (by omega), if_pos (by omega), Nat.add_sub_cancel_left]
      simp only [List.getD_eq_getElem?_getD]
      rw [List.getElem?_take_of_lt (by omega)]
    · rw [Nat.mod_eq_sub_mod (by omega), Nat.mod_eq_of_lt (by omega), if_pos (by omega)]
      simp only [List.getD_eq_getElem?_getD, List.getElem?_drop]
      rw [show 2 ^ 64 - a + (a + k - 2 ^ 64) = k by omega]
  · rw [if_neg, if_neg]
    · rintro ⟨h1, h2⟩
      exact hx (x - a) (by omega) (by rw [Nat.mod_eq_of_lt (by omega)]; omega)
    · intro h
      exact hx (x + 2 ^ 64 - a) (by omega) (by rw [Nat.mod_eq_sub_mod (by omega), Nat.mod_eq_of_lt (by omega)]; omega)

/-! ## Where the parts of a dump lie (log entry 57) -/

theorem getD_toBytes {n k : Nat} (v : Nat) (hk : k < n) : (toBytes n v).getD k 0 = BitVec.ofNat 8 (v / 2 ^ (8 * k)) := by
  induction n generalizing k v with
  | zero => omega
  | succ n ih =>
    cases k with
    | zero => simp [toBytes]
    | succ k =>
      rw [toBytes, List.getD_cons_succ, ih _ (by omega), Nat.div_div_eq_div_mul, Nat.mul_succ, Nat.add_comm, Nat.pow_add]

/-- Byte `k` of the 8-byte word `i` of a list. -/
theorem getElem?_flatMap_words {ws : List Nat} {i k x : Nat} (hi : ws[i]? = some x) (hk : k < 8) :
    (ws.flatMap (toBytes 8))[8 * i + k]? = some (BitVec.ofNat 8 (x / 2 ^ (8 * k))) := by
  induction ws generalizing i with
  | nil => simp at hi
  | cons w ws ih =>
    rw [List.flatMap_cons]
    cases i with
    | zero =>
      obtain rfl : w = x := by simpa using hi
      rw [Nat.mul_zero, Nat.zero_add, List.getElem?_append_left (by rw [length_toBytes]; exact hk), ← getD_toBytes w hk,
        List.getD_eq_getElem?_getD, List.getElem?_eq_getElem (by rw [length_toBytes]; exact hk)]
      rfl
    | succ i =>
      rw [List.getElem?_append_right (by rw [length_toBytes]; omega), length_toBytes,
        show 8 * (i + 1) + k - 8 = 8 * i + k by omega]
      exact ih (by simpa using hi)

theorem length_dumpHeader (s : State) (cause recs : Nat) : (dumpHeader s cause recs).length = 4096 := by
  simp only [dumpHeader, List.length_take, List.length_append, List.length_replicate]
  omega

/-- The words of the header: the cause first, then the dies' TIME. -/
theorem dumpHeader_word {s : State} {cause recs i x k : Nat} (hi : i < 512) (hx : (cause :: s.d.time)[i]? = some x) (hk : k < 8) :
    (dumpHeader s cause recs)[8 * i + k]? = some (BitVec.ofNat 8 (x / 2 ^ (8 * k))) := by
  have hlt := (List.getElem?_eq_some_iff.1 hx).1
  simp only [dumpHeader]
  generalize (dumpStands s).length :: _ = rest
  have hw : (cause :: s.d.time ++ rest)[i]? = some x := by rw [List.getElem?_append_left hlt, hx]
  have hb := getElem?_flatMap_words hw hk
  have hlt' := (List.getElem?_eq_some_iff.1 hb).1
  rw [List.getElem?_take_of_lt (by omega), List.getElem?_append_left hlt', hb]

/-- The first block of registers is the management block: MODID first, then HOSTBASE (18 R376). -/
theorem dumpRegisters_word {s : State} {i x k : Nat} (hi : i < 161) (hx : regValue s (regAt (0x1F0000000000 + 0 + 8 * i)) = x) (hk : k < 8) :
    (dumpRegisters s)[8 * i + k]? = some (BitVec.ofNat 8 (x / 2 ^ (8 * k))) := by
  have hb : (((List.range 161).map (fun i => regValue s (regAt (0x1F0000000000 + 0 + 8 * i)))).flatMap (toBytes 8))[8 * i + k]? =
      some (BitVec.ofNat 8 (x / 2 ^ (8 * k))) := getElem?_flatMap_words (by simp [hi, ← hx]) hk
  rw [List.flatMap_map] at hb
  rw [dumpRegisters, registerBlocks, List.flatMap_cons, List.getElem?_append_left (List.getElem?_eq_some_iff.1 hb).1, hb]

theorem dumpBytes_header {s : State} {cause i x k : Nat} (hi : i < 512) (hx : (cause :: s.d.time)[i]? = some x) (hk : k < 8) :
    (dumpBytes s cause)[8 * i + k]? = some (BitVec.ofNat 8 (x / 2 ^ (8 * k))) := by
  simp only [dumpBytes, List.append_assoc]
  rw [List.getElem?_append_left (by rw [length_dumpHeader]; omega), dumpHeader_word hi hx hk]

theorem dumpBytes_register {s : State} {cause i x k : Nat} (hi : i < 161) (hx : regValue s (regAt (0x1F0000000000 + 0 + 8 * i)) = x)
    (hk : k < 8) : (dumpBytes s cause)[4096 + 8 * i + k]? = some (BitVec.ofNat 8 (x / 2 ^ (8 * k))) := by
  have hr := dumpRegisters_word hi hx hk
  simp only [dumpBytes, List.append_assoc]
  rw [List.getElem?_append_right (by rw [length_dumpHeader]; omega), length_dumpHeader,
    show 4096 + 8 * i + k - 4096 = 8 * i + k by omega, List.getElem?_append_left (List.getElem?_eq_some_iff.1 hr).1, hr]

/-! ## The machine after a fatal error -/

theorem regAt_ne_fwstart {a : Nat} (h : a ≠ 0x1F0000000100) : regAt a ≠ .fwstart := by
  have other {c : Prop} [Decidable c] {x y : Reg} (hx : c → x ≠ .fwstart) (hy : y ≠ .fwstart) : (if c then x else y) ≠ .fwstart := by
    split
    exacts [hx ‹_›, hy]
  unfold regAt
  dsimp only
  iterate 8 refine other (fun _ h => nomatch h) ?_
  refine other (fun ho _ => by omega) ?_
  iterate 13 refine other (fun _ h => nomatch h) ?_
  nofun

/-- What acts after a fatal error (18 R383). -/
theorem afterFatal_eq_false {i : Instr} (hp : i ≠ .powerUp) (hf : ∀ v, i ≠ .firmwareStart v)
    (hw : ∀ ag a n v, i = .registerWrite ag a n v → a / 8 * 8 ≠ 0x1F0000000100) : afterFatal i = false := by
  unfold afterFatal
  split
  · exact absurd rfl hp
  · exact absurd rfl (hf _)
  · exact beq_eq_false_iff_ne.2 (regAt_ne_fwstart (hw _ _ _ _ rfl))
  · rfl

/-- After a fatal error a step of the device does nothing, but for those that start the machine again. -/
theorem runTurn_event_fatal {i : Instr} {s : State} (hs : s.d.mgmt.fatal.isSome = true) (hi : afterFatal i = false) :
    runTurn (.event i) s = .next s := by
  have hn : s.d.mgmt.fatal.isNone = false := by cases h : s.d.mgmt.fatal <;> simp_all
  simp only [runTurn, hn, hi, Bool.false_eq_true, if_false, ite_self]

/-- After a fatal error an input does nothing, but at the host and in a memory line. -/
theorem inputOf_fatal {i : Input} {s : State} (hs : s.d.mgmt.fatal.isSome = true) (hh : ∀ a bs, i ≠ .hostStore a bs)
    (hw : ∀ w, i ≠ .power w) (hl : ∀ l, i ≠ .corrupt l) : inputOf i s = s := by
  have hn : s.d.mgmt.fatal.isNone = false := by cases h : s.d.mgmt.fatal <;> simp_all
  cases i with
  | hostStore a bs => exact absurd rfl (hh a bs)
  | power w => exact absurd rfl (hw w)
  | corrupt l => exact absurd rfl (hl l)
  | expander port bytes => simp [inputOf, hs]
  | _ => simp [inputOf, hn]

/-- After a fatal error a turn does nothing but for a new FWSTART, a power-up, and inputs at the host and in a memory line
(log entry 120). -/
theorem runTurn_fatal {t : Turn} {s : State} (hs : s.d.mgmt.fatal.isSome = true) (hp : t ≠ .event .powerUp)
    (hf : ∀ v, t ≠ .event (.firmwareStart v)) (hw : ∀ ag a n v, t = .event (.registerWrite ag a n v) → a / 8 * 8 ≠ 0x1F0000000100)
    (hh : ∀ a bs, t ≠ .input (.hostStore a bs)) (hpow : ∀ w, t ≠ .input (.power w)) (hl : ∀ l, t ≠ .input (.corrupt l)) :
    runTurn t s = .next s := by
  cases t with
  | grove uid slot => exact if_pos hs
  | issue core => exact if_pos hs
  | seq uid => exact if_pos hs
  | input i =>
    exact next_eq (inputOf_fatal hs (fun a bs h => hh a bs (h ▸ rfl)) (fun w h => hpow w (h ▸ rfl)) (fun l h => hl l (h ▸ rfl)))
  | event i =>
    exact runTurn_event_fatal hs (afterFatal_eq_false (fun h => hp (h ▸ rfl)) (fun v h => hf v (h ▸ rfl))
      (fun ag a n v h => hw ag a n v (h ▸ rfl)))

@[simp] theorem nextTurn_d (s : State) : (nextTurn s).2.d = s.d := by
  unfold nextTurn
  split <;> rfl

/-- The whole of a fatal error: the dump, and the stop. -/
theorem fatalError_dump {s : State} {cause : Nat} (hl : (dumpBytes s cause).length ≤ 2 ^ 64) :
    let t := (writeDump s cause).modMgmt (fun m => { m with fatal := some cause })
    (∀ k b, (dumpBytes s cause)[k]? = some b → memByte t.m.hostMem ((s.d.mgmt.dumpbase.toNat + k) % 2 ^ 64) = b) ∧
      ∀ a, (∀ k, k < (dumpBytes s cause).length → a ≠ (s.d.mgmt.dumpbase.toNat + k) % 2 ^ 64) →
        memByte t.m.hostMem a = memByte s.m.hostMem a := by
  obtain ⟨h1, h2⟩ := memByte_hostLay (m := s.m.hostMem) s.d.mgmt.dumpbase.isLt hl
  refine ⟨fun k b hb => ?_, h2⟩
  refine (h1 k (List.getElem?_eq_some_iff.1 hb).1).trans ?_
  rw [List.getD_eq_getElem?_getD, hb]
  rfl

end Sys2Proof.Machine
end

section
/-! # The events of the management core (18 R377 to R384; 17 R371) -/

namespace Sys2Proof

open Machine

/-- Settles O55: each event is answered as its own lemma above says. Three of them carry the weight: `stopPartition_leaves`
with `beside_loseCore` for a reset, `memByte_hostLay` for the dump, and `throttleParts` with `untraced_traceRecord` for the
power windows of a throttle event. -/
theorem managementEvents : Obligations.ManagementEvents := by
  unfold Obligations.ManagementEvents
  intro s
  refine ⟨?powerUp, ?fwstart, ?liveKept, ?live, ?verified, ?claim, rfl, ?dropped, ?owner, ?opComplete, ?service, ?fatal, ?afterFatal,
    ?window, ?throttle⟩
  case powerUp => exact ⟨powerUp s, rfl, rfl, rfl, rfl⟩
  case fwstart =>
    exact fun v hv => ⟨fun hf h => next_eq (fwstart_kept hv hf h), fun hf hs hr => next_eq (fwstart_begins hv hf hs hr),
      fun hf => ⟨_, next_eq (fwstart_afterFatal hv hf), rfl, rfl, rfl, rfl, rfl, rfl, rfl, rfl⟩⟩
  case liveKept => exact fun v h => next_eq (fwstart_live_kept (by simp) h)
  case live => exact fun v hf hs hr => next_eq (fwstart_live_begins (by simp) hf hs hr)
  case verified =>
    exact fun keyOk sigOk versionOk => ⟨fun hs => next_eq (firmwareVerified_idle hs),
      fun hs hc => next_eq (firmwareVerified_refused hs rfl hc),
      fun hs hc hl => next_eq ((firmwareVerified_live hs hc hl).trans (by rw [hc]; rfl)),
      fun hs hc hl => ⟨_, next_eq (firmwareVerified_started hs hc hl), rfl, rfl, rfl, rfl, rfl, rfl⟩⟩
  case claim =>
    intro ids hne hi
    refine ⟨ownerClaim ids s, rfl, (ownerClaim_frame ids s).1, (ownerClaim_frame ids s).2, fun hr => ?_, fun hr hh => ?_,
      fun n hr hh hn hm => ?_, fun hr hh hn => ?_⟩
    · rw [ownerClaim_noFirmware hne hi hr]
      exact ⟨rfl, rfl, rfl⟩
    · obtain ⟨w, n, hw, hmin, h⟩ := ownerClaim_free hne hi hr hh
      rw [h]
      exact ⟨rfl, hw, hmin⟩
    · obtain ⟨k, h⟩ := ownerClaim_named hi hr hh hn hm
      rw [h]
      exact ⟨hh, rfl, rfl⟩
    · obtain ⟨k, h⟩ := ownerClaim_held hne hi hr hh hn
      rw [h]
      exact ⟨hh, rfl, rfl⟩
  case dropped =>
    rintro ag ho i (⟨n, rfl⟩ | ⟨p, h, rfl⟩ | ⟨p, rfl | rfl⟩ | ⟨x, rfl | rfl | rfl⟩ | rfl) <;>
      exact ⟨_, next_eq (mgmtWrite_other ho _), countedInMdrop_dropMgmt s⟩
  case owner =>
    intro ag ho
    refine ⟨fun n => next_ownerWrite ho rfl, ?busy, fun hb part halves hp hl => ⟨fun hf => ?_, fun hf => ?_⟩, ?stop, fun hb x => ?_,
      fun hb x => ?mailbox⟩
    case busy =>
      rintro hb i (⟨p, h, rfl⟩ | ⟨p, rfl | rfl⟩) <;> exact ⟨_, next_ownerWrite ho (partctl_busy hb _ _ _), countedInMdrop_dropMgmt s⟩
    · exact next_ownerWrite ho ((partctl_create hb part halves).trans (partitionCreate_refused hp hf))
    · exact ⟨_, next_ownerWrite ho (partctl_create hb part halves), partitionCreate_creates hp hl hf⟩
    case stop =>
      rintro hb i part op hi ha
      obtain ⟨k, hk, hop, he⟩ : ∃ k, (k = 2 ∨ k = 3) ∧ (k == 3) = op ∧ exec i s = .next (partctl part (s.d.part part).halvesReg k s) := by
        rcases hi with ⟨rfl, rfl⟩ | ⟨rfl, rfl⟩
        · exact ⟨2, .inl rfl, rfl, next_ownerWrite ho rfl⟩
        · exact ⟨3, .inr rfl, rfl, next_ownerWrite ho rfl⟩
      obtain ⟨hstands, hsaved, hclear, hbusy, hreset, hremove, hparts, hkept⟩ :=
        partctl_stop_leaves hb ha (s.d.part part).halvesReg k hk
      exact ⟨_, he, hstands, hsaved, hclear, hbusy, hreset, hremove.trans hop, hparts, fun st hst hp _ => hkept st hst hp⟩
    · exact ⟨next_ownerWrite ho (mailbox_busy hb _ _), next_ownerWrite ho (if_pos hb), next_ownerWrite ho (mailbox_busy hb _ _),
        next_ownerWrite ho (mailbox_busy hb _ _)⟩
    case mailbox =>
      refine ⟨next_ownerWrite ho (mailbox_retireChannel hb x), next_ownerWrite ho (mailbox_readCounters hb 0),
        ⟨_, next_ownerWrite ho (mailbox_recalibrate hb x), rfl, rfl, rfl, fun o => ?_⟩, execRetireCore_alone ho hb,
        fun r hr => ⟨_, execRetireCore_replaced ho hb hr, rfl, rfl, rfl⟩⟩
      exact List.mem_filter.trans (and_congr_right fun _ => decide_eq_true_iff)
  case opComplete =>
    exact fun part _ => ⟨partitionOpComplete_idle, partitionOpComplete_kept, partitionOpComplete_removed⟩
  case service =>
    refine ⟨fun hb => next_eq (serviceDone_idle hb), fun hb ho => next_eq (serviceDone_recalibrate hb ho),
      fun hb ho => next_eq (serviceDone_retireChannel hb ho),
      fun hb ho => ⟨_, next_eq (serviceDone_readCounters hb ho), rfl, rfl, rfl, rfl, fun x hx => List.mem_append_left _ hx⟩,
      fun hb ho hn => next_eq (serviceDone_alone hb ho hn), fun r hb ho hr hmin => ⟨fun h => next_eq (serviceDone_waits hb ho hr hmin h),
      fun h => ⟨_, next_eq (serviceDone_retires hb ho hr hmin h), rfl, rfl, rfl, rfl, fun hl => ?_, fun c hc => ?_,
        fun k c hk => exchangeMap_clusters hk⟩⟩⟩
    · exact congrArg Core.retired ((State.core_modCore _ _ _ _).trans (if_pos ⟨rfl, hl⟩))
    · exact (State.core_modCore _ _ _ c).trans (if_neg (fun hq => hc hq.1))
  case fatal =>
    intro cause hl
    obtain ⟨hin, hout⟩ := fatalError_dump hl
    refine ⟨_, rfl, rfl, rfl, rfl, fun k hk => ?_, fun i x hi hx k hk => ?_, fun k hk => ?_, fun k hk => ?_, hout⟩
    · exact hin _ _ (dumpBytes_header (i := 0) (by decide) rfl hk)
    · exact hin _ _ (dumpBytes_header (i := i + 1) (by omega) hx hk)
    · exact hin _ _ (dumpBytes_register (i := 0) (by decide) rfl hk)
    · exact hin _ _ (dumpBytes_register (i := 1) (by decide) rfl hk)
  case afterFatal =>
    intro hs hp hf hw hh hpow hc
    exact runTurn_fatal (by rw [nextTurn_d]; exact hs) hp hf hw hh hpow hc
  case window =>
    exact fun part => ⟨fun h => next_eq (if_neg (by rw [inPowerWindow_eq_false.2 h]; decide)),
      fun h => next_eq (if_pos (by simpa using mt inPowerWindow_eq_false.1 h))⟩
  case throttle =>
    intro die kind new old n exceeds changes
    have ht : throttles s.d.mgmt.overPower kind old n = true ↔ changes := by
      rw [throttles_iff]
      simp only [Mgmt.overPower, decide_eq_true_eq, decide_eq_false_iff_not]
      rfl
    exact ⟨fun h => next_eq (if_neg (mt ht.1 h)), fun h => throttleEvent_changes (ht.2 h)⟩
end Sys2Proof
end

section
/-! # The grove's own state (10 R225; 11 R244, R245, R250; 16 R339, R340)

The scalar that `csrw` takes, the values that `csrr` reads, the fields and the admitted values of MODE, and the answer of each of
these instructions in terms of them. -/

namespace Sys2Proof

open Machine

/-! ## The fields of `csrr` and `csrw` (11 R244) -/

theorem scalarBad_of_wellFormed {i : Instr} (h : i.wellFormed = true) : i.scalarBad = false := by
  by_contra hb
  simp only [Instr.wellFormed, Instr.illegalDetail, Bool.eq_true_of_not_eq_false hb, Bool.or_true, if_true] at h
  split_ifs at h <;> cases h

theorem valueBad_of_wellFormed {i : Instr} (h : i.wellFormed = true) : i.valueBad = false := by
  by_contra hb
  simp only [Instr.wellFormed, Instr.illegalDetail, Bool.eq_true_of_not_eq_false hb, if_true] at h
  split_ifs at h <;> cases h

/-- `csrw` names s0 to s31 or `zero`, never `imm`: the scalar that it takes is the U class source of 11 R243. -/
theorem csrw_scalarSource {d : BitVec 8} {c : BitVec 16} (h : (Instr.csrw d c).wellFormed = true) (g : Grove) :
    (if d.toNat = 56 then 0 else sGet g d.toNat) = scalarSource g d := by
  have hd : ¬ (31 < d.toNat ∧ d.toNat ≠ 56) := of_decide_eq_false (scalarBad_of_wellFormed h)
  have h58 : d ≠ 58 := by rintro rfl; exact hd (by decide)
  have h56 : d.toNat = 56 ↔ d = 56 := BitVec.toNat_inj (y := 56)
  simp only [scalarSource, sGet, h56, if_neg h58]

/-! ## What `csrr` reads -/

theorem causeReg_eq (g : Grove) (preq : Bool) : g.causeReg preq =
    BitVec.ofNat 64 (g.trap.code + 2 ^ 8 * g.trap.detail + (if preq then 2 ^ 61 else 0) +
      (if g.trap.pgen then 2 ^ 62 else 0) + (if g.trap.hnd then 2 ^ 63 else 0)) :=
  congrArg (BitVec.ofNat 64) (by omega)

theorem skidReg_eq (g : Grove) : g.skidReg =
    BitVec.ofNat 64 (g.trap.skidCount + 2 ^ 10 * g.trap.skidKind + 2 ^ 12 * g.trap.skidOrigin) :=
  congrArg (BitVec.ofNat 64) (by omega)

/-- The numbers of the control registers that hold one value each. -/
def plainCsrs : List Nat :=
  [0x00, 0x01, 0x02, 0x03, 0x10, 0x11, 0x12, 0x13, 0x14, 0x15, 0x16, 0x17, 0x18, 0x19, 0x31, 0x32, 0x40]

/-- A number of the table of 11 R244 is that of L1WAYS, CAUSE or SKID, which are made of several fields, or of a plain one. -/
theorem csr_of_kind {c : Nat} (h : csrKind c ≠ 0) : c = 0x20 ∨ c = 0x30 ∨ c = 0x33 ∨ c ∈ plainCsrs := by
  unfold csrKind at h
  simp only [plainCsrs, List.mem_cons, List.not_mem_nil, or_false]
  split_ifs at h <;> omega

/-- `csrr` reads the table of 11 R244. -/
theorem csrValue_eq_controlRegister (x : Gx) {c : Nat} (h : csrKind c ≠ 0) :
    csrValue x c = controlRegister x.s x.st x.g c := by
  obtain rfl | rfl | rfl | hc := csr_of_kind h
  · exact congrArg (BitVec.ofNat 64) (by omega)
  · exact causeReg_eq x.g x.st.preq
  · exact skidReg_eq x.g
  · unfold plainCsrs at hc
    fin_cases hc <;> rfl

/-! ## MODE and FAULTPC -/

/-- The fields of the MODE that `mode` writes (10 R225). -/
theorem mode_fields (gen neg : BitVec 1) (p r : BitVec 3) (t : BitVec 4) :
    let v := gen ++ neg ++ p ++ 0#1 ++ r ++ t
    v.getLsbD 12 = gen.getLsbD 0 ∧ v.getLsbD 11 = neg.getLsbD 0 ∧ v.extractLsb' 8 3 = p ∧ v.getLsbD 7 = false ∧
      v.extractLsb' 4 3 = r ∧ v.extractLsb' 0 4 = t := by
  simp only [BitVec.getLsbD_append]
  refine ⟨rfl, rfl, ?p, rfl, ?r, BitVec.extractLsb'_append_eq_right⟩
  case p =>
    simp (disch := decide) only [BitVec.extractLsb'_append_eq_of_le]
    exact BitVec.extractLsb'_append_eq_right
  case r =>
    rw [BitVec.extractLsb'_append_eq_of_le (by decide)]
    exact BitVec.extractLsb'_append_eq_right

theorem modeOk_iff (v : Word) : modeOk v = true ↔
    v.toNat < 2 ^ 13 ∧ v.getLsbD 7 = false ∧ (v.extractLsb' 4 3).toNat < 5 ∧ v.extractLsb' 0 4 ≠ 15#4 := by
  simp [modeOk, and_assoc]

/-- An address of a word has its two low bits 0. -/
theorem extractLsb'_low_eq_zero_iff (v : Word) : v.extractLsb' 0 2 = 0#2 ↔ v.toNat % 4 = 0 := by
  rw [← BitVec.toNat_inj, BitVec.extractLsb'_toNat]
  rfl

/-! ## The answers of the instructions -/

section
variable {s : State} {st : Stand} {g : Grove}

/-- `csrr` puts the register's content into the scalar. -/
theorem Runs.csrr {d : BitVec 8} {c : BitVec 16} (h : Runs (.csrr d c) s st g) : exec (.csrr d c) s =
    .next (s.setGrove st.uid
      ({ g with s := g.s.setIfInBounds d.toNat (controlRegister s st g c.toNat) } : Grove).retire) := by
  have hc : csrKind c.toNat ≠ 0 := of_decide_eq_false (valueBad_of_wellFormed h.wellFormed)
  rw [← csrValue_eq_controlRegister ⟨s, st, g, g.enabled, .csrr d c⟩ hc]
  exact h.groveInstr _

/-- `csrw` acts with the content of its scalar. -/
theorem Runs.csrw {d : BitVec 8} {c : BitVec 16} (h : Runs (.csrw d c) s st g) :
    exec (.csrw d c) s = .next (csrwOp ⟨s, st, g, g.enabled, .csrw d c⟩ c.toNat (scalarSource g d)) := by
  rw [← csrw_scalarSource h.wellFormed g]
  exact h.groveInstr _

end

/-- Settles O14: each instruction passes the checks and has its own effect (`Runs.groveInstr`). What is left is the MODE
that `mode` puts together, the table that `csrr` reads, and the values that `csrw` admits. -/
theorem groveStateResults : Obligations.GroveStateResults := by
  unfold Obligations.GroveStateResults
  intro s st g
  refine ⟨fun h => h.groveInstr _, fun v h => h.groveInstr _, fun n h => h.groveInstr _, ?mode, fun d c h => h.csrr, ?csrw⟩
  case mode => exact fun gen neg p r t h => ⟨_, h.groveInstr _, mode_fields gen neg p r t⟩
  case csrw =>
    rintro d v rfl
    refine ⟨fun h => ?mode, fun h => h.csrw, fun h => ?faultPc⟩
    case mode =>
      split_ifs with hv
      · exact h.csrw.trans (congrArg _ (if_pos ((modeOk_iff _).2 hv)))
      · exact h.csrw.trans (congrArg _ (if_neg (mt (modeOk_iff _).1 hv)))
    case faultPc =>
      split_ifs with hv
      · exact h.csrw.trans (congrArg _ (if_pos ((extractLsb'_low_eq_zero_iff _).2 hv)))
      · exact h.csrw.trans (congrArg _ (if_neg (mt (extractLsb'_low_eq_zero_iff _).1 hv)))

end Sys2Proof
end

section
/-! # Uniform sources (11 R243) and floes (03 R64 to R67; 13 R293) -/

namespace Sys2Proof

open Machine

/-! ## U class operands -/

theorem classOk_of_wellFormed {i : Instr} (h : i.wellFormed = true) {o : Opd} (ho : o ∈ i.operands) : o.classOk = true := by
  by_contra hc
  have hall : i.operands.all Opd.classOk = false := by simpa using ⟨o, ho, by simpa using hc⟩
  simp only [Instr.wellFormed, Instr.illegalDetail, hall, Bool.not_false, Bool.true_or, if_true] at h
  split_ifs at h <;> cases h

theorem widthOk_of_wellFormed {i : Instr} (h : i.wellFormed = true) {o : Opd} (ho : o ∈ i.operands) : o.widthOk = true := by
  by_contra hc
  have hall : i.operands.all Opd.widthOk = false := by simpa using ⟨o, ho, by simpa using hc⟩
  simp only [Instr.wellFormed, Instr.illegalDetail, hall, Bool.not_false, if_true] at h
  split_ifs at h <;> cases h

/-- A byte of width code 0b00 is its register number. -/
theorem opNum_eq_toNat {i : Instr} (h : i.wellFormed = true) {b : BitVec 8} {c : Cls} (ho : ⟨b, c, .one 0⟩ ∈ i.operands) :
    opNum b = b.toNat := by
  have hw := widthOk_of_wellFormed h ho
  simp only [Opd.widthOk, Bool.and_eq_true, beq_iff_eq, opCode] at hw
  exact Nat.mod_eq_of_lt (by omega)

/-- What a U class source of a well-formed instruction gives is the uniform source of 11 R243. -/
theorem uVal_eq_scalarSource {i : Instr} (h : i.wellFormed = true) {b : BitVec 8} (ho : ⟨b, .usrc, .one 0⟩ ∈ i.operands)
    (g : Grove) : uVal g b = scalarSource g b := by
  have hn := opNum_eq_toNat h ho
  have h56 : b = 56 ↔ b.toNat = 56 := (BitVec.toNat_inj (y := 56#8)).symm
  have h58 : b = 58 ↔ b.toNat = 58 := (BitVec.toNat_inj (y := 58#8)).symm
  simp only [uVal, scalarSource, hn, h56, h58]
  split
  · next h => rw [if_pos h]
  · next h => rw [if_neg (by omega), if_pos h]; rfl
  · next h1 h2 => rw [if_neg h1, if_neg h2]; rfl

/-! ## The definition of a floe -/

/-- What the definition of a floe asks of its offset and size (03 R67). -/
def FloeNumbers (off size : Nat) : Prop := off % 256 = 0 ∧ size % 256 = 0 ∧ 0 < size ∧ size ≤ 15360 * 256

/-- The range lies in the reservation, and no other floe holds a unit of it. -/
def FloePlace (st : Stand) (off size : Nat) : Prop :=
  off + size ≤ st.scratchSize ∧ ∀ h ∈ st.floes, h.state ≠ 0 → off / 256 + size / 256 ≤ h.offset ∨ h.offset + h.size ≤ off / 256

section
variable {st : Stand} {n off size : Nat}

theorem floeDefBad_numbers (h : ¬ FloeNumbers off size) : floeDefBad st n off size = some 2 :=
  if_pos (by unfold FloeNumbers at h; omega)

theorem floeDefBad_notEmpty (h : FloeNumbers off size) (hf : (st.floes.getD n Floe.empty).state ≠ 0) :
    floeDefBad st n off size = some 3 := by
  obtain ⟨h1, h2, h3, h4⟩ := h
  exact (if_neg (by omega)).trans (if_pos hf)

theorem floePlace_iff : ¬ FloePlace st off size ↔ st.scratchSize < off + size ∨ st.floes.any (fun g =>
    g.state != 0 && decide (off / 256 < g.offset + g.size ∧ g.offset < off / 256 + size / 256)) = true := by
  simp only [FloePlace, List.any_eq_true, Bool.and_eq_true, bne_iff_ne, decide_eq_true_eq, not_and_or, not_forall, not_or, not_le,
    exists_prop]
  simp only [and_comm (a := off / 256 < _)]

section
variable (h : FloeNumbers off size) (hf : (st.floes.getD n Floe.empty).state = 0)
include h hf

theorem floeDefBad_taken (hp : ¬ FloePlace st off size) : floeDefBad st n off size = some 2 := by
  obtain ⟨h1, h2, h3, h4⟩ := h
  exact (if_neg (by omega)).trans ((if_neg (not_not_intro hf)).trans (if_pos (floePlace_iff.1 hp)))

theorem floeDefBad_none (hp : FloePlace st off size) : floeDefBad st n off size = none := by
  obtain ⟨h1, h2, h3, h4⟩ := h
  exact (if_neg (by omega)).trans ((if_neg (not_not_intro hf)).trans (if_neg (fun hc => floePlace_iff.2 hc hp)))

end

end

/-- An entry as `floe.st` reads it (03 R65). -/
theorem Machine.Floe.word_eq (f : Floe) :
    f.word = BitVec.ofNat 64 (f.offset + 2 ^ 16 * f.size + 2 ^ 32 * f.pend + 2 ^ 62 * f.state) :=
  congrArg (BitVec.ofNat 64) (by omega)

theorem withFloe_missing {x : Gx} {n : Nat} (h : x.st.floes.length ≤ n) (k : State) : withFloe x n k = x.trapAll cFLOE 1 0 := if_pos h

theorem withFloe_has {x : Gx} {n : Nat} (h : n < x.st.floes.length) (k : State) : withFloe x n k = k := if_neg (by omega)

/-- Settles O33: each instruction passes the checks and has its own effect (`Runs.groveInstr`), which is read off the floe's
number, its state, and for a definition the numbers and the place asked for. -/
theorem floeResults : Obligations.FloeResults := by
  unfold Obligations.FloeResults
  intro s st g n f trap set
  refine ⟨fun a b h => ?floeDef, fun h => ?floeRel, fun d h => ?floeSt⟩
  case floeDef =>
    have ha := uVal_eq_scalarSource h.wellFormed (b := a) (by simp [Instr.operands]) g
    have hb := uVal_eq_scalarSource h.wellFormed (b := b) (by simp [Instr.operands]) g
    intro off size numbers place
    have hx : exec (.floeDef n a b) s = .next (floeDefOp ⟨s, st, g, g.enabled, .floeDef n a b⟩ n.toNat off size) := by
      rw [← show _ = off from congrArg BitVec.toNat ha, ← show _ = size from congrArg BitVec.toNat hb]
      exact h.groveInstr _
    refine ⟨fun hn => ?_, fun hn hbad => ?_, fun hn hok hf => ?_, fun hn hok hf hp => ?_, fun hn hok hf hp => ?_⟩ <;>
      rw [hx, floeDefOp]
    · rw [withFloe_missing hn]; rfl
    · rw [withFloe_has hn, floeDefBad_numbers hbad]; rfl
    · rw [withFloe_has hn, floeDefBad_notEmpty hok hf]; rfl
    · rw [withFloe_has hn, floeDefBad_taken hok hf hp]; rfl
    · rw [withFloe_has hn, floeDefBad_none hok hf hp]; rfl
  case floeRel =>
    have hx : exec (.floeRel n) s = .next (floeRelOp ⟨s, st, g, g.enabled, .floeRel n⟩ n.toNat) := h.groveInstr _
    refine ⟨fun hn => ?_, fun hn hf => ?_, fun hn hf => ?_, fun hn hf hs => ?_⟩ <;> rw [hx, floeRelOp]
    · rw [withFloe_missing hn]; rfl
    · rw [withFloe_has hn, show (st.floes.getD n.toNat Floe.empty).state = 0 from hf]; rfl
    · rw [withFloe_has hn, show (st.floes.getD n.toNat Floe.empty).state = 2 from hf]; rfl
    · rw [withFloe_has hn]
      rcases hf with hf | hf <;> rw [show (st.floes.getD n.toNat Floe.empty).state = _ from hf] <;> simp [Gx.hold, hs, Gx.put]
  case floeSt =>
    have hx : exec (.floeSt d n) s = .next (withFloe ⟨s, st, g, g.enabled, .floeSt d n⟩ n.toNat
        (s.setGrove st.uid (g.setS (opNum d) f.word).retire)) := h.groveInstr _
    refine ⟨fun hn => ?_, fun hn => ?_⟩ <;> rw [hx]
    · rw [withFloe_missing hn]; rfl
    · rw [withFloe_has hn, opNum_eq_toNat h.wellFormed (c := .udst) (by simp [Instr.operands]), Floe.word_eq]; rfl

end Sys2Proof
end

section
/-! # Writes of L1WAYS (03 R62) -/

namespace Sys2Proof

open Machine

/-- Scratch of a stand on a core stands in the ways above those that `m` ways of L1 leave (03 R62). -/
def scratchIn (s : State) (core m : Nat) : Bool := s.stands.any (fun t => t.core == core && t.scratchSize != 0 &&
  decide ((16 - m) * 262144 < t.scratchBase + t.scratchSize))

/-- Storing a grove moves no scratch. -/
theorem scratchIn_setGrove (s : State) (u : Nat) (g : Grove) (core m : Nat) :
    scratchIn (s.setGrove u g) core m = scratchIn s core m := by
  simp only [scratchIn, State.setGrove, State.modStand, List.any_map]
  congr 1
  funext t
  simp only [Function.comp_apply]
  split <;> rfl

theorem Machine.State.modCore_modCore (s : State) (c : Nat) (f h : Core → Core) :
    (s.modCore c f).modCore c h = s.modCore c (fun x => h (f x)) := by
  simp only [State.modCore, State.modD, List.modify_modify_eq]
  rfl

theorem Machine.State.stand?_modCore (s : State) (c : Nat) (f : Core → Core) (u : Nat) : (s.modCore c f).stand? u = s.stand? u := rfl

/-! ## What `changeWays` does, by its refusals and by the ways in force -/

section
variable {s : State} {st : Stand} {slot m : Nat}

/-- L1WAYS with a status. -/
def waysStatus (s : State) (core v : Nat) : State := s.modCore core (fun c => { c with l1st := v })

theorem changeWays_outside (h : m < (s.d.part st.part).lmin ∨ (s.d.part st.part).lmax < m) :
    changeWays s st slot m = waysStatus s st.core 1 := if_pos h

variable (hlo : (s.d.part st.part).lmin ≤ m) (hhi : m ≤ (s.d.part st.part).lmax)
include hlo hhi

theorem changeWays_converting (hc : (s.d.core st.core).conv.isSome) : changeWays s st slot m = waysStatus s st.core 3 :=
  (if_neg (by omega)).trans (if_pos hc)

variable (hc : (s.d.core st.core).conv = none)
include hc

theorem changeWays_scratch (hm : (s.d.core st.core).l1cur < m) (hu : scratchIn s st.core m = true) :
    changeWays s st slot m = waysStatus s st.core 2 :=
  (if_neg (by omega)).trans ((if_neg (by simp [hc])).trans (if_pos ⟨hm, hu⟩))

theorem changeWays_inForce (hm : (s.d.core st.core).l1cur = m) :
    changeWays s st slot m = s.modCore st.core (fun c => { c with l1st := 0, l1req := m }) :=
  (if_neg (by omega)).trans ((if_neg (by simp [hc])).trans ((if_neg (by omega)).trans (if_pos hm.symm)))

/-- A conversion closes the next batch of the stand's tlc. -/
def conversionBatch (slot n : Nat) (y : Stand) : Stand :=
  { y with
    tlc := { y.tlc with last := n }
    batches := y.batches ++ [⟨n, [], true, y.copy.bank⟩]
    groves := y.groves.map (fun h => if h.slot = slot then { h with batches := h.batches ++ [n] } else h) }

theorem changeWays_converts (hm : (s.d.core st.core).l1cur ≠ m)
    (hu : ¬ ((s.d.core st.core).l1cur < m ∧ scratchIn s st.core m = true)) :
    changeWays s st slot m = (s.modCore st.core (fun c => { c with
      l1st := 0, l1req := m, conv := some ⟨st.uid, st.tlc.last + 1, m, s.nextId⟩ })).modStand st.uid
        (conversionBatch slot (st.tlc.last + 1)) := by
  refine (if_neg (by omega)).trans ((if_neg (by simp [hc])).trans ((if_neg hu).trans ((if_neg (Ne.symm hm)).trans ?_)))
  exact congrArg (fun s => s.modStand st.uid (conversionBatch slot (st.tlc.last + 1))) (State.modCore_modCore s st.core _ _)

end

/-- The ways that a value of L1WAYS asks for (03 R61). -/
theorem extractLsb'_ways (v : Word) : (v.extractLsb' 3 3).toNat = v.toNat / 8 % 8 := by
  rw [BitVec.extractLsb'_toNat, Nat.shiftRight_eq_div_pow]

/-- Settles O15: `csrw` of L1WAYS retires and then changes the ways (`Runs.csrw`), by the case of `changeWays` that its
refusals leave. -/
theorem wayChangeResults : Obligations.WayChangeResults := by
  unfold Obligations.WayChangeResults
  intro s st g d h m c p s' used status
  have hx : exec (.csrw d 0x20) s = .next (changeWays s' st g.slot m) := by
    rw [h.csrw, ← show _ = m from extractLsb'_ways _]
    rfl
  have hu : scratchIn s' st.core m = used := scratchIn_setGrove s st.uid g.retire st.core m
  refine ⟨fun hout => ?_, fun hlo hhi hc => ?_, fun hlo hhi hc hm hs => ?_, fun hlo hhi hc hm => ?_, fun hlo hhi hc hm hs => ?_⟩
  · exact hx.trans (next_eq (changeWays_outside (s := s') hout))
  · exact hx.trans (next_eq (changeWays_converting (s := s') hlo hhi hc))
  · exact hx.trans (next_eq (changeWays_scratch (s := s') hlo hhi hc hm (hu.trans hs)))
  · exact hx.trans (next_eq (changeWays_inForce (s := s') hlo hhi hc hm))
  · refine ⟨_, hx.trans (next_eq (changeWays_converts (s := s') hlo hhi hc hm (hu.symm ▸ hs))), rfl, rfl, ?_⟩
    rw [State.stand?_modStand (f := conversionBatch g.slot (st.tlc.last + 1)) (fun _ => rfl), State.stand?_modCore,
      State.stand?_setGrove, h.stand]
    simp [conversionBatch]

end Sys2Proof
end

section
/-! # What walks leave alone (02 R35, R45; 03 R71 to R76)

Walks, accesses of slices, and the tokens that they take change the memory system, the predictors of cores and the counters of the
management block, and nothing else: two states agree aside from these when `State.aside` does. It shows more than `State.beside`:
the identifiers and stamps of the state too. -/

namespace Sys2Proof.Machine

/-- What no access of a home changes: everything but the memory system, the cores and the management block. -/
def State.aside (s : State) : State := { s with m := MemSys.reset, d := { s.d with cores := [], mgmt := Mgmt.reset } }

theorem State.stands_of_aside {s t : State} (h : t.aside = s.aside) : t.stands = s.stands :=
  show t.aside.stands = s.aside.stands by rw [h]

theorem State.nextId_of_aside {s t : State} (h : t.aside = s.aside) : t.nextId = s.nextId :=
  show t.aside.nextId = s.aside.nextId by rw [h]

@[simp] theorem State.aside_modM (s : State) (f : MemSys → MemSys) : (s.modM f).aside = s.aside := rfl
@[simp] theorem State.aside_modCore (s : State) (c : Nat) (f : Core → Core) : (s.modCore c f).aside = s.aside := rfl
@[simp] theorem State.aside_modMgmt (s : State) (f : Mgmt → Mgmt) : (s.modMgmt f).aside = s.aside := rfl
@[simp] theorem State.aside_ite (c : Prop) [Decidable c] (s t : State) :
    (if c then s else t).aside = if c then s.aside else t.aside := apply_ite _ _ _ _

/-- A list of operations, each of which leaves the rest alone, leaves it alone. -/
@[simp] theorem aside_foldl {α : Type} {f : State → α → State} (hf : ∀ s x, (f s x).aside = s.aside) (l : List α)
    (s : State) : (l.foldl f s).aside = s.aside :=
  List.foldlRecOn (motive := fun t => t.aside = s.aside) l f rfl (fun t ht x _ => (hf t x).trans ht)

/-! ## Memory, homes and recalls (03 R78 to R81; 04 R85, R96, R99) -/

@[simp] theorem aside_openRow (s : State) (line : Nat) : (openRow s line).aside = s.aside := by
  simp only [openRow]; split <;> rfl

@[simp] theorem aside_memRead (s : State) (line : Nat) : (memRead s line).aside = s.aside := by
  simp [memRead, failRead]

@[simp] theorem aside_memWrite (s : State) (line : Nat) : (memWrite s line).aside = s.aside := by
  unfold memWrite; split <;> simp [bumpCounter]

@[simp] theorem aside_storeAliasElem (s : State) (w : Window) (k v : Nat) : (storeAliasElem s w k v).aside = s.aside := by
  simp only [storeAliasElem]; split <;> rfl

@[simp] theorem aside_writeGroup (s : State) (w : Window) (line : Nat) (mask : ByteMask) (d : LineBits) :
    (writeGroup s w line mask d).aside = s.aside := by
  simp only [writeGroup]; split <;> simp [setGroup]

@[simp] theorem aside_homeWrite (s : State) (line : Nat) (mask : ByteMask) (d : LineBits) (clean : ByteMask) (whos : List Who) :
    (homeWrite s line mask d clean whos).aside = s.aside := by
  simp only [homeWrite]
  split
  · split <;> simp
  all_goals simp [markDirty]

@[simp] theorem aside_poisonLost (s : State) (line : Nat) : (poisonLost s line).aside = s.aside := by
  simp [poisonLost]

@[simp] theorem aside_loseWords (s : State) (line : Nat) (words : ByteMask) : (loseWords s line words).aside = s.aside := by
  simp only [loseWords, State.aside_ite, aside_poisonLost, State.aside_modMgmt, State.aside_modM, ite_self]
  split
  · rfl
  · split <;> simp

@[simp] theorem aside_settleFlight (s : State) (core line : Nat) (words : ByteMask) :
    (settleFlight s core line words).aside = s.aside := by
  simp only [settleFlight, State.aside_modM]
  refine aside_foldl (fun s t => ?_) _ s
  split
  · split <;> simp
  · rfl

@[simp] theorem aside_giveUp (s : State) (core line : Nat) (words : ByteMask) : (giveUp s core line words).2.aside = s.aside := by
  simp only [giveUp]
  split <;> simp [settleReplies, overtake, bumpPred, l1Put, dropVisitor]

@[simp] theorem aside_recallNow (s : State) (line : Nat) (words : ByteMask) : (recallNow s line words).aside = s.aside := by
  simp [recallNow, recallWords, firnRemove]

/-! ## Slices and their tokens (03 R71 to R76; 07 R159, R160) -/

@[simp] theorem aside_departNow (s : State) (base : Nat) : (departNow s base).aside = s.aside := by
  unfold departNow
  split <;> simp

@[simp] theorem aside_evictLine (s : State) (x : L2Line) : (evictLine s x).aside = s.aside := by
  simp only [evictLine]
  split
  · simp [dropStale]
  · split <;> simp

@[simp] theorem aside_l2Access (s : State) (line part mark : Nat) (read : Bool) : (l2Access s line part mark read).aside = s.aside := by
  simp only [l2Access, l2Alloc]
  split
  · simp [l2Touch]
  · rw [State.aside_ite]
    split
    · simp
    · split
      · simp
      · rw [State.aside_modM]; split <;> simp

@[simp] theorem aside_takeTokens (s : State) (slice part cls : Nat) (spare : Bool) (n : Nat) :
    (takeTokens s slice part cls spare n).2.aside = s.aside := by
  induction n with
  | zero => rfl
  | succ n ih =>
    simp only [takeTokens, takeToken]
    split
    · next h => split_ifs at h <;> cases h <;> simpa [setBucket, setSpare] using ih
    · exact ih

@[simp] theorem aside_prepay (s : State) (slice key part cls need : Nat) : (prepay s slice key part cls need).2.aside = s.aside := by
  simp only [prepay, State.aside_modM, aside_takeTokens]

@[simp] theorem aside_lineAsk (s : State) (line : Nat) (mask : ByteMask) (write : Bool) (ctx : Nat) :
    (lineAsk s line mask write ctx).aside = s.aside := by
  have hf : (startFill s line ctx).aside = s.aside := by
    simp only [startFill]
    split
    · split
      · split
        · split <;> simp
        · rfl
      · rfl
    · rfl
  simp only [lineAsk, State.aside_ite, hf, State.aside_modM, ite_self]

@[simp] theorem aside_spanAsk (s : State) (a n : Nat) (write : Bool) (ctx : Nat) : (spanAsk s a n write ctx).aside = s.aside := by
  simp [spanAsk]

/-! ## Walks, and what the issue of a copy looks up (02 R35; 15 R325, R330) -/

@[simp] theorem aside_walkLevels (part va fuel level t : Nat) (s : State) : (walkLevels part va fuel level t s).2.aside = s.aside := by
  induction fuel generalizing level t s with
  | zero => rfl
  | succ fuel ih =>
    rw [walkLevels]
    extract_lets p s' bs e
    have hp : p.2.aside = s.aside := aside_prepay ..
    have hs : s'.aside = s.aside := (aside_l2Access ..).trans hp
    split_ifs
    case pos => rfl
    case pos => exact hp
    case neg =>
      split
      · exact hs
      · exact (ih _ _ _).trans hs
    all_goals exact hs

@[simp] theorem aside_walk (s : State) (part va ptroot : Nat) : (walk s part va ptroot).2.aside = s.aside := by
  unfold walk
  split
  · rfl
  · split <;> simp

@[simp] theorem aside_placeNow (s : State) (st : Stand) (va : Nat) : (placeNow s st va).2.aside = s.aside := by
  have hw := aside_walk s st.part va st.ptroot.toNat
  unfold placeNow
  split <;> next h => rw [h] at hw; simpa using hw

@[simp] theorem aside_rangeHost (s : State) (st : Stand) (va n : Nat) : (rangeHost s st va n).2.aside = s.aside := by
  refine List.foldlRecOn (motive := fun a : Option Bool × State => a.2.aside = s.aside) _ _ rfl (fun a ha r _ => ?_)
  split
  · exact (aside_placeNow a.2 st r.1).trans ha
  · exact ha
  · exact ha

@[simp] theorem aside_payloadNow (s : State) (st : Stand) (va : Nat) : (payloadNow s st va).2.aside = s.aside := by
  refine List.foldlRecOn (motive := fun a : Option (Option Nat) × State => a.2.aside = s.aside) _ _ rfl (fun a ha i _ => ?_)
  split
  · have hp := (aside_placeNow a.2 st ((va + i) % 2 ^ 64)).trans ha
    split
    · next h =>
      rw [h] at hp
      split_ifs
      · exact hp
      · exact hp
      · exact (aside_spanAsk ..).trans hp
    · next h => rwa [h] at hp
    · next h => rwa [h] at hp
  · exact ha
  · exact ha

@[simp] theorem aside_blocksHost (st : Stand) (n va : Nat) (s : State) : (blocksHost st n va s).2.aside = s.aside := by
  induction n generalizing va s with
  | zero => rfl
  | succ n ih =>
    have hr := aside_rangeHost s st va 3
    unfold blocksHost
    split
    · next s1 h1 =>
      rw [h1] at hr
      have hp := aside_payloadNow s1 st va
      split
      · next h2 => rw [h2] at hp; exact hp.trans hr
      · next h2 => rw [h2] at hp; exact hp.trans hr
      · next len s2 h2 =>
        rw [h2] at hp
        have hb := aside_rangeHost s2 st (va + 3) len
        split
        · next h3 =>
          rw [h3] at hb
          exact (ih _ _).trans (hb.trans (hp.trans hr))
        · exact hb.trans (hp.trans hr)
    · exact hr

@[simp] theorem aside_sliceHost (s : State) (st : Stand) (c : CopySlice) (kind : Nat) : (sliceHost s st c kind).2.aside = s.aside := by
  simp only [sliceHost, aside_rangeHost]
  split_ifs <;> simp

@[simp] theorem aside_issueScope (s : State) (st : Stand) (c : CopySlice) (old : List CopySlice) (kind : Nat) :
    (issueScope s st c old kind).2.aside = s.aside := by
  refine List.foldlRecOn (motive := fun a : Option Nat × State => a.2.aside = s.aside) _ _ rfl (fun a ha k _ => ?_)
  split
  · exact (aside_sliceHost a.2 st k kind).trans ha
  · exact ha
  · exact ha

end Sys2Proof.Machine
end

section
/-! # The checks at the issue of a copy (15 R335) -/

namespace Sys2Proof

open Machine

/-! ## The first check of a table that refuses -/

open Classical in
/-- Cause and detail of the first condition of a table that holds. -/
noncomputable def firstRefusal : List (Nat × Nat × Prop) → Option (Nat × Nat)
  | [] => none
  | (c, k, p) :: r => if p then some (c, k) else firstRefusal r

/-- A check before others, decided in its own way. -/
theorem firstRefusal_ite {p q : Prop} [Decidable p] (h : p ↔ q) {c k : Nat} {a : Option (Nat × Nat)} {r : List (Nat × Nat × Prop)}
    (hr : ¬ p → a = firstRefusal r) : (if p then some (c, k) else a) = firstRefusal ((c, k, q) :: r) := by
  by_cases hp : p
  · rw [if_pos hp, firstRefusal, if_pos (h.1 hp)]
  · rw [if_neg hp, firstRefusal, if_neg (mt h.2 hp), hr hp]

theorem firstRefusal_append {before after : List (Nat × Nat × Prop)} (h : ∀ q ∈ before, ¬ q.2.2) :
    firstRefusal (before ++ after) = firstRefusal after := by
  induction before with
  | nil => rfl
  | cons q r ih => exact (if_neg (h q (by simp))).trans (ih (fun x hx => h x (by simp [hx])))

theorem firstRefusal_at {before after : List (Nat × Nat × Prop)} {c k : Nat} {p : Prop} (h : ∀ q ∈ before, ¬ q.2.2) (hp : p) :
    firstRefusal (before ++ (c, k, p) :: after) = some (c, k) :=
  (firstRefusal_append h).trans (if_pos hp)

theorem firstRefusal_none {l : List (Nat × Nat × Prop)} (h : ∀ q ∈ l, ¬ q.2.2) : firstRefusal l = none := by
  have := firstRefusal_append (after := []) h
  rwa [List.append_nil] at this

/-! ## Fields of a slice (15 R322, R323) -/

theorem fld_eq_bitsOf {v : Word} {hi lo n : Nat} (h : hi + 1 - lo = n) : Machine.fld v hi lo = bitsOf v lo n := by
  simp only [Machine.fld, bits, bitsOf, Nat.shiftRight_eq_div_pow, h]

section
variable (c : CopySlice) (kind : Nat)

theorem Machine.CopySlice.dk_eq : c.dk kind = if kind = 1 then 1 else bitsOf c.x 36 4 := by rw [CopySlice.dk, fld_eq_bitsOf rfl]
theorem Machine.CopySlice.sk_eq : c.sk kind = if kind = 1 then 0 else bitsOf c.x 32 4 := by rw [CopySlice.sk, fld_eq_bitsOf rfl]
theorem Machine.CopySlice.len_eq : c.len kind = if kind = 1 then bitsOf c.x 0 22 else bitsOf c.x 0 32 := by
  rw [CopySlice.len, fld_eq_bitsOf rfl, fld_eq_bitsOf rfl]
theorem Machine.CopySlice.xf_eq : c.xf = bitsOf c.t 0 4 := fld_eq_bitsOf rfl
theorem Machine.CopySlice.type_eq : c.type = bitsOf c.t 4 4 := fld_eq_bitsOf rfl

end

theorem floeNum_eq (v : Word) : floeNum v = bitsOf v 0 6 := fld_eq_bitsOf rfl

/-! ## The ends of a slice -/

/-- A transform that takes element types takes one of these (15 R323). -/
theorem typeFits_iff {xf t : Nat} : typeFits xf t = true ↔
    ¬ ((xf = 2 ∨ xf = 3) ∧ t ∉ [0, 8, 9, 10, 12, 13] ∨ (xf = 4 ∨ xf = 5) ∧ t ∉ [9, 10]) := by
  unfold typeFits
  split <;> simp <;> tauto

/-- The bytes of a transform's element types. -/
theorem es_eq {c : CopySlice} (h : c.type ∈ [0, 8, 9, 10, 12, 13]) :
    c.es = if c.type = 10 then 4 else if c.type = 8 ∨ c.type = 9 then 2 else 1 := by
  unfold CopySlice.es
  generalize c.type = t at h
  fin_cases h <;> rfl

/-- The source bytes that an end uses, by the transform. -/
theorem sourceBytes_eq {c : CopySlice} (h : typeFits c.xf c.type = true) (n : Nat) : (if c.xf = 1 then 0 else c.srcLen n) =
    (let es := match c.type with | 8 => 2 | 9 => 2 | 10 => 4 | _ => 1
    match c.xf with | 1 => 0 | 2 => n / 2 | 3 => 2 * n | 4 => es * n | 5 => 2 * es * n | _ => n) := by
  have hes : c.xf = 4 ∨ c.xf = 5 → c.es = match c.type with | 8 => 2 | 9 => 2 | 10 => 4 | _ => 1 := by
    intro hx
    have ht : c.type = 9 ∨ c.type = 10 := by
      rcases hx with hx | hx <;> simpa [typeFits, hx] using h
    unfold CopySlice.es
    rcases ht with ht | ht <;> rw [ht] <;> rfl
  unfold CopySlice.srcLen
  split
  · next hx => simp only [hx]
  · split <;> next hx => simp_all

/-- With a transform and an element type that fit, the ends of the model are those of the statement. -/
theorem ends_eq {c : CopySlice} (h : typeFits c.xf c.type = true) (kind : Nat) : c.ends kind = copyEnds c kind := by
  simp only [CopySlice.ends, copyEnds, sourceBytes_eq h, c.dk_eq, c.sk_eq, c.len_eq, ← c.xf_eq, ← c.type_eq]
  split <;> rfl

/-! ## The conditions, one by one -/

section
variable (st : Stand) (c : CopySlice) (kind : Nat)

theorem copyReserved_iff : copyReserved c kind = true ↔
    if kind = 1 then bitsOf c.x 22 11 ≠ 0 ∨ bitsOf c.x 50 14 ≠ 0
    else bitsOf c.x 40 24 ≠ 0 ∨ ∃ e ∈ copyEnds c kind, e.1 = 2 ∧ bitsOf e.2.1 6 26 ≠ 0 := by
  have hd : Machine.fld c.d 31 6 = bitsOf c.d 6 26 := fld_eq_bitsOf rfl
  have hs : Machine.fld c.s 31 6 = bitsOf c.s 6 26 := fld_eq_bitsOf rfl
  have hx : Machine.fld c.x 63 40 = bitsOf c.x 40 24 := fld_eq_bitsOf rfl
  have h1 : Machine.fld c.x 32 22 = bitsOf c.x 22 11 := fld_eq_bitsOf rfl
  have h2 : Machine.fld c.x 63 50 = bitsOf c.x 50 14 := fld_eq_bitsOf rfl
  by_cases hk : kind = 1
  · simp [copyReserved, hk, h1, h2, or_comm]
  · simp [copyReserved, copyEnds, hk, c.dk_eq, c.sk_eq, hd, hs, hx, or_assoc]

theorem notAdmitted_iff : notAdmitted c kind = true ↔
    (∃ e ∈ copyEnds c kind, 2 < e.1) ∨ (if kind = 1 then 2 else 5) < bitsOf c.t 0 4 ∨
      (bitsOf c.t 0 4 = 2 ∨ bitsOf c.t 0 4 = 3) ∧ bitsOf c.t 4 4 ∉ [0, 8, 9, 10, 12, 13] ∨
      (bitsOf c.t 0 4 = 4 ∨ bitsOf c.t 0 4 = 5) ∧ bitsOf c.t 4 4 ∉ [9, 10] ∨ kind = 1 ∧ bitsOf c.x 33 12 = 0 := by
  have hends : (2 < c.dk kind ∨ 2 < c.sk kind) ↔ ∃ e ∈ copyEnds c kind, 2 < e.1 := by
    by_cases hk : kind = 1 <;> simp [copyEnds, hk, c.dk_eq, c.sk_eq]
  have hc : c.cores = bitsOf c.x 33 12 := fld_eq_bitsOf rfl
  have ht (xf t : Nat) : typeFits xf t = false ↔ (xf = 2 ∨ xf = 3) ∧ t ∉ [0, 8, 9, 10, 12, 13] ∨ (xf = 4 ∨ xf = 5) ∧ t ∉ [9, 10] := by
    rw [← Bool.not_eq_true, typeFits_iff, not_not]
  simp only [notAdmitted, Bool.or_eq_true, decide_eq_true_eq, Bool.not_eq_true', ht, Bool.and_eq_true, beq_iff_eq, hends, hc,
    c.xf_eq, c.type_eq, or_assoc]

/-- An admitted slice has a transform and an element type that fit. -/
theorem typeFits_of_admitted {c : CopySlice} {kind : Nat} (h : ¬ notAdmitted c kind = true) : typeFits c.xf c.type = true := by
  by_contra hf
  exact h (by simp [notAdmitted, hf])

theorem unit_eq {c : CopySlice} (h : typeFits c.xf c.type = true) : c.unit =
    (let es := if bitsOf c.t 4 4 = 10 then 4 else if bitsOf c.t 4 4 = 8 ∨ bitsOf c.t 4 4 = 9 then 2 else 1
    match bitsOf c.t 0 4 with | 2 => 8 * es | 3 => 4 * es | 4 => 32 | 5 => 16 | _ => 1) := by
  have hes : c.xf = 2 ∨ c.xf = 3 → c.es = if c.type = 10 then 4 else if c.type = 8 ∨ c.type = 9 then 2 else 1 := by
    intro hx
    refine es_eq ?_
    by_contra ht
    exact typeFits_iff.1 h (.inl ⟨hx, ht⟩)
  simp only [← c.xf_eq, ← c.type_eq, CopySlice.unit]
  split <;> next hx => simp_all

/-- A floe end whose floe the stand has names an entry of the table. -/
theorem floeAt_of_present {st : Stand} {e : Nat × Word × Nat} (h : ¬ floeMissing st e = true) (he : e.1 = 2) :
    st.floes[bitsOf e.2.1 0 6]? = some (st.floes.getD (floeNum e.2.1) Floe.empty) := by
  have hl : bitsOf e.2.1 0 6 < st.floes.length := by
    simpa [floeMissing, he, floeNum_eq] using h
  rw [floeNum_eq, List.getD_eq_getElem?_getD, List.getElem?_eq_getElem hl]
  rfl

/-- A check of the floe that an end names, where the stand has it. -/
theorem floeCheck_iff {st : Stand} {e : Nat × Word × Nat} (h : ¬ floeMissing st e = true) (p : Floe → Prop) :
    (e.1 = 2 ∧ p (st.floes.getD (floeNum e.2.1) Floe.empty)) ↔
      e.1 = 2 ∧ ∃ f, st.floes[bitsOf e.2.1 0 6]? = some f ∧ p f := by
  refine and_congr_right fun he => ?_
  rw [floeAt_of_present h he]
  simp

end

theorem any_iff_exists {α : Type} {l : List α} {p : α → Bool} {q : α → Prop} (h : ∀ x ∈ l, p x = true ↔ q x) :
    l.any p = true ↔ ∃ x ∈ l, q x := by
  rw [List.any_eq_true]
  exact exists_congr fun x => and_congr_right fun hx => h x hx

/-- The checks of the model are those of the table of 15 R335, in its order. -/
theorem issueCheck_eq_firstRefusal (st : Stand) (c : CopySlice) (kind : Nat) :
    issueCheck st c kind = firstRefusal (copyChecks st c kind) := by
  refine firstRefusal_ite (copyReserved_iff c kind) fun _ => firstRefusal_ite (notAdmitted_iff c kind) fun ha => ?_
  have hf := typeFits_of_admitted ha
  rw [ends_eq hf]
  refine firstRefusal_ite (iff_of_eq (congrArg₂ (fun l n => l % n ≠ 0) (c.len_eq kind) (unit_eq hf))) fun _ =>
    firstRefusal_ite (any_iff_exists fun e _ => ?missing) fun hm => ?_
  case missing => simp [floeMissing, floeNum_eq]
  have hp : ∀ e ∈ copyEnds c kind, ¬ floeMissing st e = true := fun e he hc => hm (List.any_eq_true.2 ⟨e, he, hc⟩)
  refine firstRefusal_ite (any_iff_exists fun e he => ?empty) fun _ => firstRefusal_ite (any_iff_exists fun e he => ?short) fun _ =>
    firstRefusal_ite (any_iff_exists fun e _ => ?scratch) fun _ => rfl
  case empty => exact .trans (by simp [floeIsEmpty]) (floeCheck_iff (hp e he) _)
  case short =>
    have hb : Machine.fld e.2.1 63 32 = bitsOf e.2.1 32 32 := fld_eq_bitsOf rfl
    exact .trans (by simp [floeShort, hb]) (floeCheck_iff (hp e he) _)
  case scratch =>
    have hb : Machine.fld e.2.1 31 0 = bitsOf e.2.1 0 32 := fld_eq_bitsOf rfl
    simp [scratchShort, hb]

theorem issueCheck_fails {st : Stand} {c : CopySlice} {kind : Nat} {before after : List (Nat × Nat × Prop)} {a k : Nat} {p : Prop}
    (he : copyChecks st c kind = before ++ (a, k, p) :: after) (hb : ∀ q ∈ before, ¬ q.2.2) (hp : p) :
    issueCheck st c kind = some (a, k) := by
  rw [issueCheck_eq_firstRefusal, he, firstRefusal_at hb hp]

theorem issueCheck_passes {st : Stand} {c : CopySlice} {kind : Nat} (h : ∀ q ∈ copyChecks st c kind, ¬ q.2.2) :
    issueCheck st c kind = none := by
  rw [issueCheck_eq_firstRefusal, firstRefusal_none h]

end Sys2Proof
end

section
/-! # The copy queue: floes counted, slices recorded, entries (03 R66, R67; 15 R320, R321) -/

namespace Sys2Proof

open Machine

/-! ## The floes of a slice -/

/-- The keys of a slice's floes are those of the floes that it names. -/
theorem floeKeys_eq (c : CopySlice) (kind : Nat) : c.floeKeys kind = (floesNamed c kind).map floeKey := by
  by_cases hk : kind = 1
  · simp [CopySlice.floeKeys, floesNamed, CopySlice.dk, CopySlice.sk, hk]
  · simp only [CopySlice.floeKeys, floesNamed, c.dk_eq, c.sk_eq, hk, if_false, ne_eq, not_false_eq_true, true_and, floeNum_eq]
    split <;> split <;> rfl

theorem lt_of_mem_floesNamed {c : CopySlice} {kind : Nat} {p : Bool × Nat} (h : p ∈ floesNamed c kind) : p.2 < 64 := by
  unfold floesNamed at h
  rw [List.mem_append] at h
  have hb (v : Word) : bitsOf v 0 6 < 64 := Nat.mod_lt _ (by decide)
  rcases h with h | h <;> split at h <;> simp only [List.mem_singleton, List.not_mem_nil] at h <;> rw [h] <;> exact hb _

theorem floeKey_mod {p : Bool × Nat} (h : p.2 < 64) : floeKey p % 64 = p.2 := by
  unfold floeKey; split <;> omega

theorem floeKey_lt {p : Bool × Nat} (h : p.2 < 64) : floeKey p < 64 ↔ p.1 = true := by
  unfold floeKey; split <;> simp_all

/-! ## Issue events (03 R67) -/

/-- The state of a floe that takes a fill or a drain. -/
def floeGoal (p : Bool × Nat) : Nat := if p.1 then 1 else 3

/-- The floe takes the fill or the drain now. -/
def FloeTakes (fs : List Floe) (p : Bool × Nat) : Prop := ∃ f, fs[p.2]? = some f ∧ (f.state = 2 ∨ f.state = floeGoal p)

/-- A fill or a drain counts in its floe. -/
def floeCounted (fs : List Floe) (p : Bool × Nat) : List Floe :=
  fs.modify p.2 (fun f => { f with state := floeGoal p, pend := f.pend + 1 })

theorem floeTakes_iff {st : Stand} {p : Bool × Nat} (h : p.2 < 64) : floeTakes st (floeKey p) = true ↔ FloeTakes st.floes p := by
  simp only [floeTakes, floeKey_mod h, floeKey_lt h, FloeTakes, floeGoal, Bool.or_eq_true, beq_iff_eq, List.getD_eq_getElem?_getD]
  cases st.floes[p.2]? with
  | some f => simp
  | none => cases p.1 <;> simp [Floe.empty]

theorem countFloe_eq {st : Stand} {p : Bool × Nat} (h : p.2 < 64) (ht : FloeTakes st.floes p) :
    countFloe st (floeKey p) = { st with floes := floeCounted st.floes p } := by
  obtain ⟨f, hf, hs⟩ := ht
  have hg : (if f.state = 2 then (if p.1 = true then 1 else 3) else f.state) = floeGoal p := by
    rcases hs with hs | hs <;> simp [hs, floeGoal]
  have hm : floeCounted st.floes p = st.floes.set p.2 { f with state := floeGoal p, pend := f.pend + 1 } := by
    rw [floeCounted, List.modify_eq_set_getElem?, hf]
    rfl
  simp only [countFloe, floeKey_mod h, floeKey_lt h, List.getD_eq_getElem?_getD, hf, Option.getD_some, setFloe, hm, hg]

/-- A count in one floe leaves the others. -/
theorem floeTakes_floeCounted {fs : List Floe} {p q : Bool × Nat} (h : p.2 ≠ q.2) (hq : FloeTakes fs q) :
    FloeTakes (floeCounted fs p) q := by
  obtain ⟨f, hf, hs⟩ := hq
  exact ⟨f, by simp [floeCounted, h, hf], hs⟩

theorem foldl_countFloe {new : List (Bool × Nat)} (hn : (new.map (·.2)).Nodup) (hl : ∀ p ∈ new, p.2 < 64) (st : Stand)
    (ht : ∀ p ∈ new, FloeTakes st.floes p) :
    (new.map floeKey).foldl countFloe st = { st with floes := new.foldl floeCounted st.floes } := by
  induction new generalizing st with
  | nil => rfl
  | cons p new ih =>
    simp only [List.map_cons, List.nodup_cons, List.mem_map, not_exists, not_and] at hn
    have hp : ∀ q ∈ new, p.2 ≠ q.2 := fun q hq he => hn.1 q hq he.symm
    rw [List.map_cons, List.foldl_cons, countFloe_eq (hl p (by simp)) (ht p (by simp)), ih hn.2 (fun q hq => hl q (by simp [hq]))]
    · rfl
    · exact fun q hq => floeTakes_floeCounted (hp q hq) (ht q (by simp [hq]))

/-- What counting a slice's floes does: the issue events of 03 R67, or nothing while the engine holds the copy. -/
theorem countFloes_spec {named : List (Bool × Nat)} (hn : (named.map (·.2)).Nodup) (hl : ∀ p ∈ named, p.2 < 64) (st : Stand)
    (counted : List Nat) : ∃ counted' fs, FloesCounted st.floes counted named counted' fs ∧
      (countFloes st counted (named.map floeKey) = some ({ st with floes := fs }, counted') ∨
        countFloes st counted (named.map floeKey) = none ∧ counted' = counted ∧ fs = st.floes) := by
  set new := named.filter (fun p => !counted.contains (floeKey p)) with hnew
  have hm : (named.map floeKey).filter (fun k => !counted.contains k) = new.map floeKey := List.filter_map ..
  have hnl : ∀ p ∈ new, p.2 < 64 := fun p hp => hl p (List.mem_of_mem_filter hp)
  have hall : (new.map floeKey).all (floeTakes st) = true ↔ ∀ p ∈ new, FloeTakes st.floes p := by
    simp only [List.all_eq_true, List.forall_mem_map]
    exact forall₂_congr fun p hp => floeTakes_iff (hnl p hp)
  by_cases h : ∀ p ∈ new, FloeTakes st.floes p
  · refine ⟨counted ++ new.map floeKey, new.foldl floeCounted st.floes, ⟨fun _ => ⟨rfl, rfl⟩, fun hc => absurd h hc⟩, .inl ?_⟩
    simp only [countFloes, hm]
    rw [if_pos (hall.2 h), foldl_countFloe ((List.filter_sublist.map _).nodup hn) hnl st h]
  · refine ⟨counted, st.floes, ⟨fun hc => absurd hc h, fun _ => ⟨rfl, rfl⟩⟩, .inr ⟨?_, rfl, rfl⟩⟩
    simp only [countFloes, hm]
    exact if_neg (mt hall.1 h)

/-! ## Slices of a copy -/

/-- A slice goes after those of its own and of lower slots, before those of higher slots (15 R321). -/
theorem insertSlice_split (c : CopySlice) (l : List CopySlice) : ∃ before after, l = before ++ after ∧
    insertSlice c l = before ++ c :: after ∧ (∀ x ∈ before, x.slot ≤ c.slot) ∧ ∀ x, after.head? = some x → c.slot < x.slot := by
  induction l with
  | nil => exact ⟨[], [], rfl, rfl, by simp, by simp⟩
  | cons d r ih =>
    by_cases h : c.slot < d.slot
    · exact ⟨[], d :: r, rfl, if_pos h, by simp, by simpa using h⟩
    · obtain ⟨before, after, hl, hi, hb, ha⟩ := ih
      exact ⟨d :: before, after, by rw [hl]; rfl, by rw [insertSlice, if_neg h, hi]; rfl, by simpa using ⟨Nat.le_of_not_lt h, hb⟩, ha⟩

/-- A stand with other floes and another queue of copies. -/
def withQueue (st : Stand) (fs : List Floe) (q : List Copy) : Stand := { st with floes := fs, copy := { st.copy with queue := q } }

/-- A copy with one more slice, counted against its floes. -/
def withSlice (k : Copy) (c : CopySlice) (counted : List Nat) : Copy := { k with slices := insertSlice c k.slices, counted := counted }

/-- A slice is recorded in a copy of the queue, counted against the floes that it names, unless the engine holds it. -/
theorem recordSlice_known {st : Stand} {k : Copy} {c : CopySlice} {kind : Nat} (hk : k ∈ st.copy.queue)
    (hu : ∀ x ∈ st.copy.queue, x.id = k.id → x = k) (hn : ((floesNamed c kind).map (·.2)).Nodup) :
    ∃ counted fs, FloesCounted st.floes k.counted (floesNamed c kind) counted fs ∧ recordSlice st k.id c kind =
      withQueue st fs (st.copy.queue.map (fun x => if x.id = k.id then withSlice k c counted else x)) := by
  have hfind : st.copy? k.id = some k := by
    have hsome : (st.copy? k.id).isSome = true := by
      rw [Stand.copy?, List.find?_isSome]
      exact ⟨k, hk, by simp⟩
    obtain ⟨x, hx⟩ := Option.isSome_iff_exists.1 hsome
    have hid : x.id = k.id := by simpa using List.find?_some hx
    rw [hx, hu x (List.mem_of_find?_eq_some hx) hid]
  have hmap (f : Copy → Copy) : st.copy.queue.map (fun x => if x.id = k.id then f x else x) =
      st.copy.queue.map (fun x => if x.id = k.id then f k else x) := by
    refine List.map_congr_left fun x hx => ?_
    split
    · next h => rw [hu x hx h]
    · rfl
  obtain ⟨counted, fs, hc, he⟩ := countFloes_spec hn (fun p hp => lt_of_mem_floesNamed hp) st k.counted
  refine ⟨counted, fs, hc, ?_⟩
  simp only [recordSlice, hfind, Option.map_some, Option.getD_some, floeKeys_eq]
  rcases he with he | ⟨he, rfl, rfl⟩
  · simp only [he, Stand.modCopy, hmap]
    rfl
  · simp only [he, Stand.modCopy, hmap]
    rfl

/-- The first slice of a new copy. -/
theorem recordSlice_new {st : Stand} {k : Copy} {c : CopySlice} {kind : Nat} (hf : ∀ x ∈ st.copy.queue, x.id ≠ k.id)
    (hs : k.slices = []) (hc : k.counted = []) (hn : ((floesNamed c kind).map (·.2)).Nodup) :
    ∃ counted fs, FloesCounted st.floes [] (floesNamed c kind) counted fs ∧
      recordSlice { st with copy := { st.copy with queue := st.copy.queue ++ [k] } } k.id c kind =
        withQueue st fs (st.copy.queue ++ [{ k with slices := [c], counted := counted }]) := by
  obtain ⟨counted, fs, hfl, he⟩ := recordSlice_known (st := { st with copy := { st.copy with queue := st.copy.queue ++ [k] } })
    (k := k) (c := c) (kind := kind) (by simp)
    (fun x hx hid => List.mem_singleton.1 ((List.mem_append.1 hx).resolve_left fun hx => hf x hx hid)) hn
  have hq : st.copy.queue.map (fun x => if x.id = k.id then withSlice k c counted else x) = st.copy.queue :=
    (List.map_congr_left fun x hx => if_neg (hf x hx)).trans (List.map_id _)
  have hmap : (st.copy.queue ++ [k]).map (fun x => if x.id = k.id then withSlice k c counted else x) =
      st.copy.queue ++ [{ k with slices := [c], counted := counted }] := by
    rw [List.map_append, hq, List.map_singleton, if_pos rfl, withSlice, hs]
    rfl
  exact ⟨counted, fs, hc ▸ hfl, he.trans (congrArg (withQueue st fs) hmap)⟩

/-! ## Groves that have supplied a slice -/

theorem suppliedBy_noteSupplied {st : Stand} {slot : Nat} (hl : slot < st.copy.supplied.length) (id n : Nat) :
    suppliedBy (noteSupplied st slot id) n id = true ↔ n = slot ∨ id ∈ st.copy.supplied.getD n [] := by
  simp only [suppliedBy, noteSupplied, List.getD_eq_getElem?_getD, List.getElem?_modify, List.contains_iff_mem]
  by_cases h : slot = n
  · subst h; simp [hl]
  · simp [h, Ne.symm h]

/-- A gathering copy starts once every live grove has supplied a slice. -/
def settleCopy (st : Stand) (c : Copy) : Copy :=
  if c.kind = 0 ∧ !c.started ∧ st.groves.all (fun g => suppliedBy st g.slot c.id) then { c with started := true } else c

theorem settleCopies_eq (st : Stand) : settleCopies st = withQueue st st.floes (st.copy.queue.map (settleCopy st)) := rfl

theorem settleCopy_eq {st : Stand} {c : Copy} (hk : c.kind = 0) (hs : c.started = false) :
    settleCopy st c = { c with started := st.groves.all (fun g => suppliedBy st g.slot c.id) } := by
  unfold settleCopy
  cases h : st.groves.all (fun g => suppliedBy st g.slot c.id)
  · rw [if_neg (by simp), ← hs]
  · rw [if_pos ⟨hk, by simp [hs], rfl⟩]

@[simp] theorem settleCopy_id (st : Stand) (c : Copy) : (settleCopy st c).id = c.id := by unfold settleCopy; split <;> rfl

/-! ## Entries and gathering copies -/

section
variable {st : Stand} {slot : Nat}

theorem entryFor_room (h : (st.copy.queue.filter (fun c => c.owner == slot && c.reserved)).length < 2 ∨
      (st.copy.queue.filter (fun c => !c.reserved)).length < 64 - 2 * st.shape.groves) :
    entryFor st slot = some (decide ((st.copy.queue.filter (fun c => c.owner == slot && c.reserved)).length < 2)) := by
  unfold entryFor
  split_ifs with h1 h2
  · rw [decide_eq_true h1]
  · rw [decide_eq_false h1]
  · exact absurd h (not_or_intro h1 h2)

theorem entryFor_none (h : ¬ ((st.copy.queue.filter (fun c => c.owner == slot && c.reserved)).length < 2 ∨
      (st.copy.queue.filter (fun c => !c.reserved)).length < 64 - 2 * st.shape.groves)) : entryFor st slot = none := by
  rw [not_or] at h
  exact (if_neg h.1).trans (if_neg h.2)

/-- A `cpy` that waits for a slice of the grove. -/
def GathersFor (st : Stand) (slot : Nat) (c : Copy) : Prop :=
  c.kind = 0 ∧ c.started = false ∧ c.id ∉ st.copy.supplied.getD slot []

theorem gathersFor_iff (c : Copy) : (c.kind == 0 && !c.started && !suppliedBy st slot c.id) = true ↔ GathersFor st slot c := by
  simp [GathersFor, suppliedBy, and_assoc]

theorem gathering?_none (h : ∀ c ∈ st.copy.queue, ¬ GathersFor st slot c) : gathering? st slot = none :=
  List.find?_eq_none.2 fun c hc hg => h c hc ((gathersFor_iff c).1 hg)

theorem gathering?_first {before after : List Copy} {k : Copy} (hq : st.copy.queue = before ++ k :: after)
    (hk : GathersFor st slot k) (hb : ∀ c ∈ before, ¬ GathersFor st slot c) : gathering? st slot = some k := by
  rw [gathering?, hq, List.find?_append, List.find?_eq_none.2 fun c hc hg => hb c hc ((gathersFor_iff c).1 hg), Option.none_or]
  exact List.find?_cons_of_pos (p := fun c : Copy => c.kind == 0 && !c.started && !suppliedBy st slot c.id) ((gathersFor_iff k).2 hk)

end

end Sys2Proof
end

section
/-! # Releases whose work is done, and copies accepted (04 R92; 05 R125; 15 R320, R321, R325) -/

namespace Sys2Proof

open Machine

/-! ## A release that has nothing to wait for -/

theorem wbReady_none (s : State) (core line : Nat) : wbReady s core line 0 = true := by
  unfold wbReady
  cases l1Find s core line <;> simp

/-- A grove that wrote no line of KIND 0b01 has no word to push. -/
def NoPush (s : State) (w : Who) : Prop := ∀ x ∈ s.m.l1, ∀ k ∈ x.k01, k.1 ≠ w

theorem hostWords_eq_zero {x : L1Line} {w : Who} (h : ∀ k ∈ x.k01, k.1 ≠ w) : x.hostWords w = 0 := by
  have hf : x.k01.foldl (fun m k => if k.1 = w then m ||| k.2 else m) 0#128 = 0#128 :=
    List.foldlRecOn (motive := fun m => m = 0#128) x.k01 _ rfl (fun m hm k hk => by rw [if_neg (h k hk), hm])
  unfold L1Line.hostWords
  rw [hf]
  decide

theorem pushReady_of_noPush {s : State} {w : Who} (h : NoPush s w) : pushReady s w = true :=
  List.all_eq_true.2 fun x hx => by rw [hostWords_eq_zero (h x hx)]; exact wbReady_none ..

theorem pushHost_of_noPush {s : State} {w ack : Who} (h : NoPush s w) : pushHost s w ack = s := by
  have hf : s.m.l1.filter (fun x => x.k01.any (fun k => k.1 == w)) = [] := by
    simp only [List.filter_eq_nil_iff, List.any_eq_true, beq_iff_eq, not_exists, not_and]
    exact h
  rw [pushHost, hf]
  rfl

theorem releaseQuiet_of_ready {s : State} {st : Stand} {g : Grove} {sc : Nat} (h : ReleaseReady s st g sc) : releaseQuiet g sc = true := by
  have hs : (decide (sc < 2) || g.outStores == 0) = true := by simpa using h.stores
  rw [releaseQuiet, hs, h.writeBacks, h.reads]
  rfl

/-- The counts of a grove whose stand the state holds are its own. -/
theorem counts_self {x : Gx} (hs : x.s.stand? x.st.uid = some x.st) (hg : x.st.grove? x.g.slot = some x.g) : x.counts x.s x.g = x.g := by
  rw [Gx.counts, hs, Option.bind_some, hg]

/-- A release at its start whose work is done goes on at once, with the grove as it is but for the steps that it notes. `others`
are groves with no word to push. -/
theorem releasedWith_ready {x : Gx} {others : List Who} {sc : Nat} (h : ReleaseReady x.s x.st x.g sc) (hp : x.g.prog = Prog.none)
    (hs : x.s.stand? x.st.uid = some x.st) (hg : x.st.grove? x.g.slot = some x.g)
    (ho : sc = 6 → ∀ w ∈ others, NoPush x.s w) (k : Gx → State) :
    ∃ p, x.releasedWith others sc k = k { x with g := { x.g with prog := p } } := by
  unfold Gx.releasedWith
  rw [releaseQuiet_of_ready h]
  by_cases h6 : sc = 6
  · obtain ⟨hown, hout, hq⟩ := h.pushes h6
    have hno : ∀ w ∈ x.who :: others, NoPush x.s w := List.forall_mem_cons.2 ⟨hown, ho h6⟩
    have hready : (x.who :: others).all (pushReady x.s) = true := List.all_eq_true.2 fun w hw => pushReady_of_noPush (hno w hw)
    have hpush : (x.who :: others).foldl (fun s w => pushHost s w x.who) x.s = x.s :=
      List.foldlRecOn (motive := fun t => t = x.s) _ _ rfl (fun t ht w hw => by rw [ht]; exact pushHost_of_noPush (hno w hw))
    refine ⟨{ x.g.prog with aux := 1 }, ?_⟩
    simp [h6, hp, hready, hpush, counts_self hs hg, h.writeBacks, hout, hq, Prog.none]
  · exact ⟨x.g.prog, by simp [h6]⟩

/-! ## A grove with a copy more -/

/-- The end of paths does not look at the open copies. -/
theorem endPaths_openCopies (fuel : Nat) (g : Grove) (l : List Nat) :
    Grove.endPaths fuel { g with openCopies := l } = { Grove.endPaths fuel g with openCopies := l } := by
  induction fuel generalizing g with
  | zero => rfl
  | succ fuel ih =>
    have hj (e : DivEntry) (r : List DivEntry) : Grove.reachJoin { g with openCopies := l } e r =
        { g.reachJoin e r with openCopies := l } := by
      simp only [Grove.reachJoin]; split <;> rfl
    have hpp : Grove.pathParked { g with openCopies := l } = g.pathParked := rfl
    simp only [Grove.endPaths, hpp, hj, ih]
    split
    · split <;> rfl
    · rfl

theorem resumed_some {g : Grove} {r : Redo} (h : g.redo = some r) : g.resumed = Grove.settle { g with
    active := r.resume &&& g.live &&& ~~~g.parked
    supp := if r.supp then 0 else g.supp } := by
  simp only [Grove.resumed, h]

theorem resumed_openCopies (g : Grove) (l : List Nat) :
    Grove.resumed { g with openCopies := l } = { g.resumed with openCopies := l } := by
  obtain h | ⟨r, h⟩ := Option.eq_none_or_eq_some g.redo
  · rw [Grove.resumed_none (g := { g with openCopies := l }) h, Grove.resumed_none h]
  · rw [resumed_some (g := { g with openCopies := l }) h, resumed_some h]
    exact endPaths_openCopies _ { g with
      active := r.resume &&& g.live &&& ~~~g.parked
      supp := if r.supp then 0 else g.supp } l

/-- The grove once its instruction is over, on the path that it is in. -/
def endedAt (g : Grove) (pc : Word) : Grove :=
  { g with
    pc := pc
    pfx := none
    held := none
    prog := Prog.none
    wait := .none
    skidLeft := g.skidLeft - 1
    trap := if g.skidLeft = 0 then g.trap else { g.trap with skidCount := g.trap.skidCount + 1 }
    singleDone := g.single.isSome }

/-- Retiring ends the instruction and goes on where the paths lead. -/
theorem retireTo_eq (g : Grove) (pc : Word) : g.retireTo pc =
    { endedAt g pc with
      redo := none
      active := (endedAt g pc).resumed.active
      pc := (endedAt g pc).resumed.pc
      div := (endedAt g pc).resumed.div
      supp := (endedAt g pc).resumed.supp } := rfl

/-- A grove that retires keeps its open copies, and goes on as it would with others. -/
theorem retire_openCopies (g : Grove) (l : List Nat) :
    Grove.retire { g with openCopies := l } = { g.retire with openCopies := l } := by
  have he : (endedAt { g with openCopies := l } (g.wordAddr + 4)).resumed = { (endedAt g (g.wordAddr + 4)).resumed with openCopies := l } :=
    resumed_openCopies (endedAt g (g.wordAddr + 4)) l
  simp only [Grove.retire, retireTo_eq, show Grove.wordAddr { g with openCopies := l } = g.wordAddr from rfl, he]
  rfl

theorem openCopy_new {g : Grove} {id : Nat} (h : id ∉ g.openCopies) :
    g.openCopy id = { g with openCopies := g.openCopies ++ [id] } := if_neg (by simpa using h)

/-- The grove that goes on with a copy among its open ones. -/
def goesOnWith (g : Grove) (id : Nat) : Grove := { g.retire with openCopies := g.openCopies ++ [id] }

theorem retire_openCopy {g : Grove} {id : Nat} (h : id ∉ g.openCopies) (p : Prog) :
    (Grove.openCopy { g with prog := p } id).retire = goesOnWith g id :=
  (congrArg Grove.retire (openCopy_new (g := { g with prog := p }) h)).trans (retire_openCopies { g with prog := p } _)

end Sys2Proof
end

section
/-! # Copies and table loads at issue (15 R320, R321, R325, R331) -/

namespace Sys2Proof

open Machine

/-! ## The state once an entry is taken -/

/-- The identifier of the new entry is taken, and the grove goes on with it. -/
def issued (u : State) (st : Stand) (g : Grove) : State :=
  State.setGrove { u with nextId := u.nextId + 1 } st.uid (goesOnWith g u.nextId)

/-- A barrier takes a signal. -/
def signalled (bar id : Nat) (bs : List Barrier) : List Barrier := bs.modify bar (fun b => { b with signals := id :: b.signals })

/-- Every receiver's barrier takes a signal. -/
def attachSignals (recvs : List Nat) (bar id : Nat) (s : State) : State := recvs.foldl (fun s v => attachSignal s v bar id) s

theorem attachSignals_frame (recvs : List Nat) (bar id : Nat) (s : State) :
    (attachSignals recvs bar id s).m = s.m ∧ (attachSignals recvs bar id s).d = s.d ∧ (attachSignals recvs bar id s).nextId = s.nextId :=
  List.foldlRecOn (motive := fun t : State => t.m = s.m ∧ t.d = s.d ∧ t.nextId = s.nextId) recvs _ ⟨rfl, rfl, rfl⟩ fun _ ht _ _ => ht

/-- A stand's barrier takes as many signals as the stand is named. -/
theorem stand?_attachSignals (recvs : List Nat) (bar id : Nat) (s : State) (v : Nat) : (attachSignals recvs bar id s).stand? v =
    (s.stand? v).map (fun y => { y with barriers := (signalled bar id)^[recvs.count v] y.barriers }) := by
  induction recvs generalizing s with
  | nil => simp [attachSignals]
  | cons w l ih =>
    have hs : (attachSignal s w bar id).stand? v =
        (s.stand? v).map (fun y => if y.uid = w then { y with barriers := signalled bar id y.barriers } else y) :=
      State.stand?_modStand (f := fun y => { y with barriers := signalled bar id y.barriers }) (fun _ => rfl) v
    rw [attachSignals, List.foldl_cons, ← attachSignals, ih, hs, Option.map_map]
    refine Option.map_congr fun y hy => ?_
    have hv : y.uid = v := State.stand?_uid hy
    by_cases h : v = w
    · subst h
      simp [hv, List.count_cons_self]
    · simp [hv, h, List.count_cons_of_ne (Ne.symm h)]

theorem stand?_eq_of_stands {s t : State} (h : t.stands = s.stands) (v : Nat) : t.stand? v = s.stand? v := by
  simp only [State.stand?, h]

theorem Machine.Stand.setGrove_slots {st : Stand} {h : Grove} (P : Nat → Bool) :
    (st.setGrove h).groves.all (fun g => P g.slot) = st.groves.all (fun g => P g.slot) := by
  simp only [Stand.setGrove, List.all_map]
  congr 1
  funext g
  simp only [Function.comp_apply]
  split
  · next e => rw [e]
  · rfl

theorem recordSlice_uid (st : Stand) (id : Nat) (c : CopySlice) (kind : Nat) : (recordSlice st id c kind).uid = st.uid := by
  have hf (keys : List Nat) : (keys.foldl countFloe st).uid = st.uid :=
    List.foldlRecOn (motive := fun y : Stand => y.uid = st.uid) keys _ rfl fun _ hy _ _ => hy
  unfold recordSlice
  dsimp only
  split
  · next r hr =>
    unfold countFloes at hr
    dsimp only at hr
    split_ifs at hr
    cases hr
    exact hf _
  · rfl

section
variable {i : Instr} {s u : State} {st : Stand} {g : Grove} {F : Stand → Stand} {recvs : List Nat} {bar : Nat}
variable (hu : u.stand? st.uid = some st) (hF : ∀ y, (F y).uid = y.uid)
include hu hF

/-- The stand of the executing grove, once that and then the stand have changed. -/
theorem stand?_stored (G : Grove) : ((u.setGrove st.uid G).modStand st.uid F).stand? st.uid = some (F (st.setGrove G)) := by
  rw [State.stand?_modStand hF, State.stand?_setGrove, hu]
  simp

theorem stand?_issued : ((issued u st g).modStand st.uid F).stand? st.uid = some (F (st.setGrove (goesOnWith g u.nextId))) :=
  stand?_stored (u := { u with nextId := u.nextId + 1 }) hu hF _

/-- The new entry stands last in its stand's queue. -/
theorem queued_of_issued {c : Copy} {named : List (Bool × Nat)} {bank : Nat} {counted : List Nat} {fs : List Floe} {cc : CopyCtx}
    (hx : exec i s = .next (attachSignals recvs bar u.nextId ((issued u st g).modStand st.uid F)))
    (hn : u.nextId = s.nextId) (hc : c.id = s.nextId) (hg : st.grove? g.slot = some g)
    (hy : F (st.setGrove (goesOnWith g u.nextId)) = { st.setGrove (goesOnWith g u.nextId) with floes := fs, copy := cc })
    (hlast : cc.queue.getLast? = some { c with counted := counted }) (hlen : cc.queue.length = st.copy.queue.length + 1)
    (hbank : cc.bank = bank) (hfl : FloesCounted st.floes [] named counted fs) : Queued i s u st g c named bank := by
  obtain ⟨hm, hd, hid⟩ := attachSignals_frame recvs bar u.nextId ((issued u st g).modStand st.uid F)
  refine ⟨_, { st.setGrove (goesOnWith g u.nextId) with
    floes := fs
    copy := cc
    barriers := (signalled bar u.nextId)^[recvs.count st.uid] st.barriers }, counted,
    hx, hm, hd, hid.trans (congrArg (· + 1) hn), ?_, hlast, hlen, hbank, hfl, ?_⟩
  · rw [stand?_attachSignals, stand?_issued hu hF, hy]
    rfl
  · have hgr : (st.setGrove (goesOnWith g u.nextId)).grove? g.slot = some (goesOnWith g u.nextId) := by
      rw [Stand.grove?_setGrove, hg]
      exact congrArg some (if_pos rfl)
    exact hgr.trans (by rw [goesOnWith, hn, hc])

/-- The barriers of the stands after an issue. -/
theorem barriers_of_issued (hx : exec i s = .next (attachSignals recvs bar u.nextId ((issued u st g).modStand st.uid F)))
    (hs : u.stands = s.stands) (hr : recvs.Nodup)
    (hy : (F (st.setGrove (goesOnWith g u.nextId))).barriers = st.barriers) {t : State} (ht : exec i s = .next t)
    {v : Nat} {x : Stand} (hv : s.stand? v = some x) : (t.stand? v).map (·.barriers) =
      some (if v ∈ recvs then signalled bar u.nextId x.barriers else x.barriers) := by
  obtain rfl : _ = t := Host.Outcome.next.inj (hx.symm.trans ht)
  have hvu : u.stand? v = some x := (stand?_eq_of_stands hs v).trans hv
  have hb : (((issued u st g).modStand st.uid F).stand? v).map (·.barriers) = some x.barriers := by
    by_cases h : v = st.uid
    · subst h
      obtain rfl : st = x := Option.some.inj (hu.symm.trans hvu)
      rw [stand?_issued hu hF, Option.map_some, hy]
    · have hxv : x.uid ≠ st.uid := fun hq => h ((State.stand?_uid hvu).symm.trans hq)
      have hs : State.stand? { u with nextId := u.nextId + 1 } v = some x := hvu
      rw [State.stand?_modStand hF, issued, State.stand?_setGrove, hs]
      simp [hxv]
  obtain ⟨y, hy, he⟩ := Option.map_eq_some_iff.1 hb
  rw [stand?_attachSignals, hy, ← he, hr.count]
  split <;> rfl

end

end Sys2Proof
end

section
/-! # Entries of the copy queue (15 R320, R321) -/

namespace Sys2Proof

open Machine

/-! ## The stand with its new entry -/

/-- A new copy stands last in the queue and takes its first slice. -/
def newEntry (k : Copy) (c : CopySlice) (kind : Nat) (y : Stand) : Stand :=
  recordSlice { y with copy := { y.copy with queue := y.copy.queue ++ [k] } } k.id c kind

/-- A new copy gathers slices, and the grove has supplied its own. -/
def gatheringEntry (k : Copy) (c : CopySlice) (y : Stand) : Stand :=
  settleCopies (noteSupplied (newEntry k c 0 y) k.owner k.id)

/-- A grove's slice joins a copy that gathers. -/
def joinedEntry (slot id : Nat) (c : CopySlice) (y : Stand) : Stand :=
  settleCopies (noteSupplied (recordSlice y id c 0) slot id)

theorem newEntry_uid (k : Copy) (c : CopySlice) (kind : Nat) (y : Stand) : (newEntry k c kind y).uid = y.uid :=
  recordSlice_uid { y with copy := { y.copy with queue := y.copy.queue ++ [k] } } k.id c kind

theorem noteSupplied_uid (st : Stand) (slot id : Nat) : (noteSupplied st slot id).uid = st.uid := rfl

theorem settleCopies_uid (st : Stand) : (settleCopies st).uid = st.uid := rfl

theorem gatheringEntry_uid (k : Copy) (c : CopySlice) (y : Stand) : (gatheringEntry k c y).uid = y.uid := by
  rw [gatheringEntry, settleCopies_uid, noteSupplied_uid, newEntry_uid]

theorem joinedEntry_uid (slot id : Nat) (c : CopySlice) (y : Stand) : (joinedEntry slot id c y).uid = y.uid := by
  rw [joinedEntry, settleCopies_uid, noteSupplied_uid, recordSlice_uid]

/-- Identifiers in use are below that of the next entry. -/
def FreshId (st : Stand) (g : Grove) (n : Nat) : Prop :=
  (∀ c ∈ st.copy.queue, c.id < n) ∧ (∀ l ∈ st.copy.supplied, ∀ k ∈ l, k < n) ∧ (∀ k ∈ g.openCopies, k < n) ∧
    g.slot < st.copy.supplied.length

section
variable {st : Stand} {g : Grove} {n : Nat} (h : FreshId st g n)
include h

theorem FreshId.queue {c : Copy} (hc : c ∈ st.copy.queue) : c.id ≠ n := Nat.ne_of_lt (h.1 c hc)

theorem FreshId.openCopies : n ∉ g.openCopies := fun hn => Nat.lt_irrefl n (h.2.2.1 n hn)

theorem FreshId.supplied (m : Nat) : n ∉ st.copy.supplied.getD m [] := by
  intro hn
  rw [List.getD_eq_getElem?_getD] at hn
  cases hl : st.copy.supplied[m]? with
  | none => simp [hl] at hn
  | some l =>
    rw [hl] at hn
    exact Nat.lt_irrefl n (h.2.1 l (List.mem_of_getElem? hl) n hn)

/-- A new copy that gathers starts at once where the grove is the stand's only one. -/
theorem gatheringEntry_eq {k : Copy} {c : CopySlice} {G : Grove} (hid : k.id = n) (ho : k.owner = g.slot) (hk : k.kind = 0)
    (hs : k.slices = []) (hc : k.counted = []) (hst : k.started = false) (hn : ((floesNamed c 0).map (·.2)).Nodup) :
    ∃ counted fs cc, FloesCounted st.floes [] (floesNamed c 0) counted fs ∧
      gatheringEntry k c (st.setGrove G) = { st.setGrove G with floes := fs, copy := cc } ∧
      cc.queue.getLast? = some { k with slices := [c], counted := counted, started := st.groves.all (fun h => h.slot == g.slot) } ∧
      cc.queue.length = st.copy.queue.length + 1 ∧ cc.bank = st.copy.bank := by
  obtain ⟨counted, fs, hfl, he⟩ := recordSlice_new (st := st.setGrove G) (k := k) (c := c) (kind := 0)
    (fun x hx => hid ▸ h.queue hx) hs hc hn
  set y := noteSupplied (withQueue (st.setGrove G) fs (st.copy.queue ++ [{ k with slices := [c], counted := counted }])) k.owner k.id
    with hy
  have hall : y.groves.all (fun h => suppliedBy y h.slot k.id) = st.groves.all (fun h => h.slot == g.slot) := by
    refine (Stand.setGrove_slots (st := st) (h := G) (fun m => suppliedBy y m k.id)).trans (congrArg st.groves.all (funext fun m => ?_))
    rw [Bool.eq_iff_iff, hy, suppliedBy_noteSupplied (by rw [ho]; exact h.2.2.2), beq_iff_eq, ho, hid]
    exact or_iff_left (h.supplied m.slot)
  refine ⟨counted, fs, (settleCopies y).copy, hfl, congrArg (fun z => settleCopies (noteSupplied z k.owner k.id)) he, ?_, ?_, rfl⟩
  · have hq : (settleCopies y).copy.queue = (st.copy.queue ++ [{ k with slices := [c], counted := counted }]).map (settleCopy y) := rfl
    have hs : settleCopy y { k with slices := [c], counted := counted } = { k with slices := [c], counted := counted, started := _ } :=
      settleCopy_eq (c := { k with slices := [c], counted := counted }) hk hst
    rw [hq, List.map_append, List.map_singleton, List.getLast?_concat, hs, ← hall]
  · exact (List.length_map ..).trans (List.length_append ..)

/-- The copy that a slice joins starts once every live grove has supplied one. -/
theorem joinedEntry_eq {k : Copy} {c : CopySlice} {G : Grove} (hk : k ∈ st.copy.queue) (hu : ∀ x ∈ st.copy.queue, x.id = k.id → x = k)
    (hg : k.kind = 0) (hs : k.started = false) (hn : ((floesNamed c 0).map (·.2)).Nodup) :
    ∃ counted started fs cc, FloesCounted st.floes k.counted (floesNamed c 0) counted fs ∧
      joinedEntry g.slot k.id c (st.setGrove G) = { st.setGrove G with floes := fs, copy := cc } ∧
      cc.queue.map (·.id) = st.copy.queue.map (·.id) ∧ { withSlice k c counted with started := started } ∈ cc.queue ∧
      (started = true ↔ ∀ y ∈ st.groves, y.slot = g.slot ∨ k.id ∈ st.copy.supplied.getD y.slot []) ∧
      cc.supplied = st.copy.supplied.modify g.slot (· ++ [k.id]) := by
  obtain ⟨counted, fs, hfl, he⟩ := recordSlice_known (st := st.setGrove G) (k := k) (c := c) (kind := 0) hk hu hn
  set q := st.copy.queue.map (fun x => if x.id = k.id then withSlice k c counted else x) with hq
  set y := noteSupplied (withQueue (st.setGrove G) fs q) g.slot k.id with hy
  have hids (x : Copy) : (settleCopy y (if x.id = k.id then withSlice k c counted else x)).id = x.id := by
    rw [settleCopy_id]
    split
    · next h => exact h.symm
    · rfl
  have hstart : y.groves.all (fun h => suppliedBy y h.slot k.id) = true ↔
      ∀ y ∈ st.groves, y.slot = g.slot ∨ k.id ∈ st.copy.supplied.getD y.slot [] := by
    rw [show y.groves = (st.setGrove G).groves from rfl, Stand.setGrove_slots (st := st) (h := G) (fun m => suppliedBy y m k.id),
      List.all_eq_true]
    exact forall₂_congr fun z _ => suppliedBy_noteSupplied h.2.2.2 k.id z.slot
  refine ⟨counted, _, fs, (settleCopies y).copy, hfl, congrArg (fun z => settleCopies (noteSupplied z g.slot k.id)) he, ?_, ?_,
    hstart, rfl⟩
  · change (q.map (settleCopy y)).map (·.id) = _
    rw [hq, List.map_map, List.map_map]
    exact List.map_congr_left fun x _ => hids x
  · exact List.mem_map.2 ⟨withSlice k c counted, List.mem_map.2 ⟨k, hk, if_pos rfl⟩, settleCopy_eq (c := withSlice k c counted) hg hs⟩

end

/-! ## Acceptance -/

section
variable {u : State} {st : Stand} {g : Grove} {en : LaneMask} {i : Instr} {p : Prog} {c : CopySlice} {r : Bool}

theorem acceptSingle_eq (hid : u.nextId ∉ g.openCopies) (kind : Nat) (recvs : List Nat) :
    acceptSingle ⟨u, st, { g with prog := p }, en, i⟩ kind c r recvs =
      attachSignals (if c.sig && kind == 1 then recvs else []) c.bar u.nextId ((issued u st g).modStand st.uid
        (newEntry { Copy.new u.nextId kind g.slot r true with recvs := recvs.map (fun u => ⟨u, false, false⟩) } c kind)) := by
  have hr := retire_openCopy hid p
  simp only [acceptSingle, Gx.done, Gx.put, hr]
  split <;> rfl

theorem acceptCollective_new (hid : u.nextId ∉ g.openCopies) : acceptCollective ⟨u, st, { g with prog := p }, en, i⟩ c none r =
    (issued u st g).modStand st.uid (gatheringEntry (Copy.new u.nextId 0 g.slot r false) c) := by
  have hr := retire_openCopy hid p
  simp only [acceptCollective, Gx.done, Gx.put, hr]
  rfl

theorem acceptCollective_joins {k : Copy} (hid : k.id ∉ g.openCopies) :
    acceptCollective ⟨u, st, { g with prog := p }, en, i⟩ c (some k) r =
      (u.setGrove st.uid (goesOnWith g k.id)).modStand st.uid (joinedEntry g.slot k.id c) := by
  have hr := retire_openCopy hid p
  simp only [acceptCollective, Gx.done, Gx.put, hr]
  rfl

end

end Sys2Proof
end

section
/-! # The branches of an issue (15 R320, R321, R325, R331) -/

namespace Sys2Proof

open Machine

/-! ## `copyIssue` and `dict.ld` by cases -/

theorem hold_copy (x : Gx) (g : Grove) : x.hold .copy g = x.put { g with wait := .copy, held := some x.i } := by
  simp [Gx.hold, Wait.endsStep]

/-- The scope of a copy's release, where no walk waits, is found in a state that differs from the given one by what walks leave. -/
theorem stand?_of_issueScope {s u : State} {st : Stand} {c : CopySlice} {old : List CopySlice} {kind : Nat} {sc : Option Nat}
    (h : issueScope s st c old kind = (sc, u)) : u.stands = s.stands ∧ u.nextId = s.nextId := by
  have ha := aside_issueScope s st c old kind
  rw [h] at ha
  exact ⟨State.stands_of_aside ha, State.nextId_of_aside ha⟩

theorem receivers_congr {s t : State} (h : t.stands = s.stands) (st : Stand) (c : CopySlice) : receivers t st c = receivers s st c := by
  simp only [receivers, h]

/-- The copy that a `cpy` of the grove would join: none for the other kinds. -/
def joinedBy (st : Stand) (slot kind : Nat) : Option Copy := if kind = 0 then gathering? st slot else none

section
variable {s u : State} {st : Stand} {g : Grove} {en : LaneMask} {i : Instr} {kind : Nat} {c : CopySlice}

theorem copyIssue_traps {a k : Nat} (h : issueCheck st c kind = some (a, k)) :
    copyIssue ⟨s, st, g, en, i⟩ kind c = trapEntry s st.uid g a k g.active g.pc 0 := by
  simp only [copyIssue, h]
  rfl

variable (hc : issueCheck st c kind = none)
include hc

theorem copyIssue_waits (ho : joinedBy st g.slot kind = none) (he : entryFor st g.slot = none) :
    copyIssue ⟨s, st, g, en, i⟩ kind c = s.setGrove st.uid { g with wait := .copy, held := some i } := by
  rw [joinedBy] at ho
  simp only [copyIssue, hc, ho, he, hold_copy]
  rfl

variable (hu : u.stand? st.uid = some st) (hg : st.grove? g.slot = some g) (hp : g.prog = Prog.none) {sc : Nat}
  (hr : ReleaseReady u st g sc)
include hu hg hp hr

/-- A copy that joins none, after its release. -/
theorem copyIssue_accepts (ho : joinedBy st g.slot kind = none) {r : Bool} (he : entryFor st g.slot = some r)
    (hsc : issueScope s st c [] kind = (some sc, u)) : ∃ p, copyIssue ⟨s, st, g, en, i⟩ kind c =
      if kind = 0 then acceptCollective ⟨u, st, { g with prog := p }, en, i⟩ c none r
      else acceptSingle ⟨u, st, { g with prog := p }, en, i⟩ kind c r (if kind = 1 then receivers u st c else []) := by
  obtain ⟨p, hx⟩ := releasedWith_ready (x := ⟨u, st, g, en, i⟩) (others := suppliers st g.slot []) hr hp hu hg
    (fun _ w hw => absurd hw (by simp [suppliers])) (fun x => if kind = 0 then acceptCollective x c none r
      else acceptSingle x kind c r (if kind = 1 then receivers x.s x.st c else []))
  refine ⟨p, Eq.trans ?_ hx⟩
  rw [joinedBy] at ho
  simp only [copyIssue, hc, ho, he, Option.isSome_none, Bool.false_eq_true, if_false, Option.map_none, Option.getD_none, hsc]
  rfl

/-- A `cpy` that joins a copy, after its release: with the groves that have supplied slices, none has a word to push. -/
theorem copyIssue_joins {k : Copy} (hk : kind = 0) (ho : gathering? st g.slot = some k)
    (hsc : issueScope s st c k.slices kind = (some sc, u)) (hl : sc = 6 → ∀ x ∈ u.m.l1, x.k01 = []) :
    ∃ p, copyIssue ⟨s, st, g, en, i⟩ kind c = acceptCollective ⟨u, st, { g with prog := p }, en, i⟩ c (some k) true := by
  subst hk
  obtain ⟨p, hx⟩ := releasedWith_ready (x := ⟨u, st, g, en, i⟩) (others := suppliers st g.slot k.slices) hr hp hu hg
    (fun h6 w _ x hx q hq => absurd hq (by rw [hl h6 x hx]; exact List.not_mem_nil)) (fun x => acceptCollective x c (some k) true)
  refine ⟨p, Eq.trans ?_ hx⟩
  simp only [copyIssue, hc, ho, Option.isSome_some, if_true, Option.map_some, Option.getD_some, hsc]
  rfl

end

section
variable {s u : State} {st : Stand} {g : Grove} {en : LaneMask} {i : Instr} {bank : Nat} {addr : Word}

theorem dictLdOp_misaligned (h : addr.toNat % 64 ≠ 0) : dictLdOp ⟨s, st, g, en, i⟩ bank 2 addr =
    trapEntry s st.uid g cALIGN 2 g.active g.pc addr := if_pos h

/-- A batch bound to a bank is incomplete. -/
theorem bankBound_iff : st.batches.any (fun b => !b.conversion && b.bank == bank) = true ↔
    ∃ b ∈ st.batches, b.conversion = false ∧ b.bank = bank := by simp

variable (ha : addr.toNat % 64 = 0)
include ha

theorem dictLdOp_waits (h : (∃ b ∈ st.batches, b.conversion = false ∧ b.bank = bank) ∨ entryFor st g.slot = none) :
    dictLdOp ⟨s, st, g, en, i⟩ bank 2 addr = s.setGrove st.uid { g with wait := .copy, held := some i } := by
  rw [dictLdOp, if_neg (not_not_intro ha)]
  split_ifs with hb
  · exact hold_copy ..
  · rw [h.resolve_left (fun hc => hb (bankBound_iff.2 hc))]
    exact hold_copy ..

/-- A load of a table, after its release: its bank becomes the current one. -/
theorem dictLdOp_accepts (hb : ¬ ∃ b ∈ st.batches, b.conversion = false ∧ b.bank = bank) {r host : Bool} (he : entryFor st g.slot = some r)
    (hh : rangeHost s st addr.toNat 32768 = (some host, u)) (hu : u.stand? st.uid = some st) (hg : st.grove? g.slot = some g)
    (hp : g.prog = Prog.none) (hr : ReleaseReady u st g (if host then 6 else 5)) :
    ∃ p, dictLdOp ⟨s, st, g, en, i⟩ bank 2 addr =
      (acceptSingle ⟨u, st, { g with prog := p }, en, i⟩ 3 ⟨g.slot, 0, addr, 0, 0⟩ r []).modStand st.uid (fun y =>
        { y with copy := { y.copy with
            bank := bank
            queue := y.copy.queue.map (fun c => if c.id = u.nextId then { c with bank := bank } else c) } }) := by
  obtain ⟨p, hx⟩ := releasedWith_ready (x := ⟨u, st, g, en, i⟩) (others := []) hr hp hu hg (fun _ w hw => absurd hw List.not_mem_nil)
    (fun x => (acceptSingle x 3 ⟨x.g.slot, 0, addr, 0, 0⟩ r []).modStand x.st.uid (fun y =>
        { y with copy := { y.copy with
            bank := bank
            queue := y.copy.queue.map (fun c => if c.id = x.s.nextId then { c with bank := bank } else c) } }))
  refine ⟨p, Eq.trans ?_ hx⟩
  rw [dictLdOp, if_neg (not_not_intro ha), if_neg (mt bankBound_iff.1 hb)]
  simp only [he, hh]
  rfl

end

end Sys2Proof
end

section
/-! # What an issue leaves in the queue (15 R320, R321) -/

namespace Sys2Proof

open Machine

/-! ## The new entry of a copy and of a table load -/

theorem joinedBy_none {st : Stand} {slot kind : Nat} (h : ∀ c ∈ st.copy.queue, ¬ (kind = 0 ∧ GathersFor st slot c)) :
    joinedBy st slot kind = none := by
  unfold joinedBy
  split
  · next hk => exact gathering?_none fun c hc hg => h c hc ⟨hk, hg⟩
  · rfl

/-- The copy that an issue queues with its first slice: one that cannot gather, or has no grove to wait for, starts at once. -/
def queuedCopy (id : Nat) (st : Stand) (g : Grove) (kind : Nat) (c : CopySlice) (reserved : Bool) (recvs : List Nat) : Copy :=
  { Copy.new id kind g.slot reserved (kind != 0 || st.groves.all (fun h => h.slot == g.slot)) with
    slices := [c]
    recvs := recvs.map (fun u => ⟨u, false, false⟩) }

/-- A change of a stand after which a copy stands last in its queue, counted against the floes that its slice names. -/
structure Enters (F : Stand → Stand) (st : Stand) (G : Grove) (c : Copy) (named : List (Bool × Nat)) (counted : List Nat)
    (fs : List Floe) (cc : CopyCtx) : Prop where
  uid : ∀ y, (F y).uid = y.uid
  counts : FloesCounted st.floes [] named counted fs
  stand : F (st.setGrove G) = { st.setGrove G with floes := fs, copy := cc }
  last : cc.queue.getLast? = some { c with counted := counted }
  length : cc.queue.length = st.copy.queue.length + 1

section
variable {st : Stand} {g G : Grove} {n : Nat} (h : FreshId st g n) {c : CopySlice} {r : Bool}
include h

theorem enters_newEntry {kind : Nat} (hk : kind ≠ 0) (hn : ((floesNamed c kind).map (·.2)).Nodup) (recvs : List Nat) :
    ∃ counted fs cc, Enters (newEntry { Copy.new n kind g.slot r true with recvs := recvs.map (fun u => ⟨u, false, false⟩) } c kind)
      st G (queuedCopy n st g kind c r recvs) (floesNamed c kind) counted fs cc ∧ cc.bank = st.copy.bank := by
  obtain ⟨counted, fs, hfl, he⟩ := recordSlice_new (st := st.setGrove G)
    (k := { Copy.new n kind g.slot r true with recvs := recvs.map (fun u => ⟨u, false, false⟩) }) (c := c) (kind := kind)
    (fun x hx => h.queue hx) rfl rfl hn
  have hs : (kind != 0 || st.groves.all (fun h => h.slot == g.slot)) = true := by simp [hk]
  exact ⟨counted, fs, _, ⟨newEntry_uid _ c kind, hfl, he, by rw [queuedCopy, hs]; exact List.getLast?_concat, List.length_append ..⟩,
    rfl⟩

theorem enters_gatheringEntry (hn : ((floesNamed c 0).map (·.2)).Nodup) :
    ∃ counted fs cc, Enters (gatheringEntry (Copy.new n 0 g.slot r false) c) st G (queuedCopy n st g 0 c r [])
      (floesNamed c 0) counted fs cc ∧ cc.bank = st.copy.bank := by
  obtain ⟨counted, fs, cc, hfl, he, hlast, hlen, hbank⟩ := gatheringEntry_eq h (k := Copy.new n 0 g.slot r false) (c := c) (G := G)
    rfl rfl rfl rfl rfl rfl hn
  exact ⟨counted, fs, cc, ⟨gatheringEntry_uid _ c, hfl, he, hlast, hlen⟩, hbank⟩

end

/-- The bank of a table load, which becomes the current one (15 R331). -/
def bindBank (id bank : Nat) (y : Stand) : Stand :=
  { y with copy := { y.copy with
      bank := bank
      queue := y.copy.queue.map (fun c => if c.id = id then { c with bank := bank } else c) } }

theorem Enters.bindBank {F : Stand → Stand} {st : Stand} {G : Grove} {c : Copy} {named : List (Bool × Nat)} {counted : List Nat}
    {fs : List Floe} {cc : CopyCtx} (h : Enters F st G c named counted fs cc) (bank : Nat) :
    ∃ cc', Enters (fun y => bindBank c.id bank (F y)) st G { c with bank := bank } named counted fs cc' ∧ cc'.bank = bank := by
  refine ⟨_, ⟨fun y => h.uid y, h.counts, congrArg (Sys2Proof.bindBank c.id bank) h.stand, ?_, ?_⟩, rfl⟩
  · change (cc.queue.map _).getLast? = _
    rw [List.getLast?_map, h.last, Option.map_some, if_pos rfl]
  · exact (List.length_map ..).trans h.length

theorem modStand_modStand {f h : Stand → Stand} (hf : ∀ y, (f y).uid = y.uid) (s : State) (u : Nat) :
    (s.modStand u f).modStand u h = s.modStand u (fun y => h (f y)) := by
  simp only [State.modStand, List.map_map]
  congr 1
  refine List.map_congr_left fun y _ => ?_
  simp only [Function.comp_apply]
  split
  · next e => rw [if_pos ((hf y).trans e)]
  · rfl

section
variable {i : Instr} {s u : State} {st : Stand} {g : Grove} (hu : u.stand? st.uid = some st) (hg : st.grove? g.slot = some g)
include hu hg

/-- Where the next state has a copy more in the queue, the instruction has queued it. -/
theorem Enters.queued {F : Stand → Stand} {recvs : List Nat} {bar : Nat} {c : Copy} {named : List (Bool × Nat)} {counted : List Nat}
    {fs : List Floe} {cc : CopyCtx} (h : Enters F st (goesOnWith g u.nextId) c named counted fs cc)
    (hx : exec i s = .next (attachSignals recvs bar u.nextId ((issued u st g).modStand st.uid F))) (hn : u.nextId = s.nextId)
    (hc : c.id = s.nextId) : Queued i s u st g c named cc.bank :=
  queued_of_issued hu h.uid hx hn hc hg h.stand h.last h.length rfl h.counts

/-- A slice that joins a copy of the queue. -/
theorem joined_of_exec {k : Copy} {c : CopySlice} (h : FreshId st g n) (hk : k ∈ st.copy.queue)
    (huniq : ∀ x ∈ st.copy.queue, x.id = k.id → x = k) (hgath : GathersFor st g.slot k) (hn : ((floesNamed c 0).map (·.2)).Nodup)
    (hx : exec i s = .next ((u.setGrove st.uid (goesOnWith g k.id)).modStand st.uid (joinedEntry g.slot k.id c))) :
    Joined i s u st g k c (floesNamed c 0) := by
  obtain ⟨counted, started, fs, cc, hfl, he, hids, hmem, hst, hsup⟩ := joinedEntry_eq h (G := goesOnWith g k.id) (c := c) hk huniq
    hgath.1 hgath.2.1 hn
  obtain ⟨before, after, hl, hi, hb, ha⟩ := insertSlice_split c k.slices
  refine ⟨_, { st.setGrove (goesOnWith g k.id) with floes := fs, copy := cc }, _, before, after, hx, rfl, rfl, rfl,
    ?_, hids, hmem, rfl, hl, hi, hb, ha, hst, hfl, hsup, ?_⟩
  · rw [stand?_stored hu (joinedEntry_uid g.slot k.id c), he]
  · change (st.setGrove (goesOnWith g k.id)).grove? g.slot = _
    rw [Stand.grove?_setGrove, hg]
    exact congrArg some (if_pos rfl)

end

theorem exec_copyForm {i : Instr} {kind : Nat} {d a b : BitVec 8} (hf : copyForm i = some (kind, d, a, b)) {s : State} {st : Stand}
    {g : Grove} (h : Runs i s st g) : exec i s = .next (copyIssue ⟨s, st, g, g.enabled, i⟩ kind
      ⟨g.slot, scalarSource g d, scalarSource g a, scalarSource g b, vget g.s 3 0⟩) := by
  have hops : ∀ x ∈ [d, a, b], ⟨x, .usrc, .one 0⟩ ∈ i.operands := by
    unfold copyForm at hf
    split at hf <;> cases hf <;> simp [Instr.operands]
  simp only [← uVal_eq_scalarSource h.wellFormed (hops _ (by simp : d ∈ [d, a, b])) g,
    ← uVal_eq_scalarSource h.wellFormed (hops _ (by simp : a ∈ [d, a, b])) g,
    ← uVal_eq_scalarSource h.wellFormed (hops _ (by simp : b ∈ [d, a, b])) g]
  unfold copyForm at hf
  split at hf <;> cases hf <;> exact h.groveInstr _

end Sys2Proof
end

section
/-! # Copies at issue (15 R335; 03 R66, R67) -/

namespace Sys2Proof

open Machine

section
variable {i : Instr} {s u : State} {st : Stand} {g : Grove} {kind : Nat} {c : CopySlice}

/-- A copy that is accepted and joins none enters the queue; a `cpym` with SIG signals the barriers of its receivers. -/
theorem copyIssue_enters (hfresh : FreshId st g u.nextId) (hc : issueCheck st c kind = none) (ho : joinedBy st g.slot kind = none)
    {r : Bool} (he : entryFor st g.slot = some r) {sc : Nat} (hsc : issueScope s st c [] kind = (some sc, u))
    (hu : u.stand? st.uid = some st) (hg : st.grove? g.slot = some g) (hp : g.prog = Prog.none) (hr : ReleaseReady u st g sc)
    (hn : ((floesNamed c kind).map (·.2)).Nodup) : ∃ F counted fs cc,
      let recvs := if kind = 1 then receivers u st c else []
      copyIssue ⟨s, st, g, g.enabled, i⟩ kind c =
        attachSignals (if c.sig then recvs else []) c.bar u.nextId ((issued u st g).modStand st.uid F) ∧
      Enters F st (goesOnWith g u.nextId) (queuedCopy u.nextId st g kind c r recvs) (floesNamed c kind) counted fs cc ∧
      cc.bank = st.copy.bank := by
  obtain ⟨p, hx⟩ := copyIssue_accepts (en := g.enabled) (i := i) hc hu hg hp hr ho he hsc
  by_cases hk : kind = 0
  · subst hk
    obtain ⟨counted, fs, cc, hF, hb⟩ := enters_gatheringEntry hfresh (G := goesOnWith g u.nextId) (r := r) hn
    refine ⟨_, counted, fs, cc, ?_, hF, hb⟩
    rw [hx, if_pos rfl, acceptCollective_new hfresh.openCopies]
    split <;> rfl
  · obtain ⟨counted, fs, cc, hF, hb⟩ := enters_newEntry hfresh (G := goesOnWith g u.nextId) (r := r) hk hn
      (if kind = 1 then receivers u st c else [])
    refine ⟨_, counted, fs, cc, ?_, hF, hb⟩
    rw [hx, if_neg hk, acceptSingle_eq hfresh.openCopies]
    congr 1
    by_cases h1 : kind = 1 <;> simp [h1]

/-- The barriers of the stands after a copy: with SIG, each receiver's takes a signal. -/
theorem barriers_of_copy {F : Stand → Stand} {q : Copy} {named : List (Bool × Nat)} {counted : List Nat} {fs : List Floe} {cc : CopyCtx}
    {recvs : List Nat} (h : Enters F st (goesOnWith g u.nextId) q named counted fs cc) (hu : u.stand? st.uid = some st)
    (hx : exec i s = .next (attachSignals (if c.sig then recvs else []) c.bar u.nextId ((issued u st g).modStand st.uid F)))
    (hs : u.stands = s.stands) (hr : recvs.Nodup) {t : State} (ht : exec i s = .next t) {v : Nat} {x : Stand}
    (hv : s.stand? v = some x) : (t.stand? v).map (·.barriers) = some (if v ∈ recvs ∧ c.x.getLsbD 49 then
      x.barriers.modify (bitsOf c.x 45 4) (fun b => { b with signals := u.nextId :: b.signals }) else x.barriers) := by
  have hbar : c.bar = bitsOf c.x 45 4 := fld_eq_bitsOf rfl
  have hnd : (if c.sig then recvs else []).Nodup := by split <;> simp [hr]
  rw [barriers_of_issued hu h.uid hx hs hnd (by rw [h.stand]; rfl) ht hv, hbar, signalled, show c.sig = c.x.getLsbD 49 from rfl]
  cases c.x.getLsbD 49 <;> simp

end

/-- Settles O37: an issue is a chain of cases (`copyIssue_traps`, `copyIssue_waits`, `copyIssue_accepts`, `copyIssue_joins`), whose
checks are the table of 15 R335 (`issueCheck_eq_firstRefusal`); the stand that it leaves is read off the new entry (`Enters`) or the
copy that the slice joins (`joinedEntry_eq`), and the walks before it leave stands and identifiers alone (`aside_issueScope`). -/
theorem copyIssueResults : Obligations.CopyIssueResults := by
  unfold Obligations.CopyIssueResults
  intro s u st g hprog fresh own room waits
  refine ⟨fun i kind d a b hform h => ?copies, fun k a h => ?table⟩
  case copies =>
    intro sl named gathers recvs
    have hx : exec i s = .next (copyIssue ⟨s, st, g, g.enabled, i⟩ kind sl) := exec_copyForm hform h
    refine ⟨fun before c k p after he hb hp => ?traps, fun hpass => ⟨fun hno hroom => ?waits, fun hfresh hnd sc =>
      ⟨fun hno hroom hsc hr => ?queued, fun before k after hq hk hb huniq hopen hsc hr hl => ?joined⟩⟩⟩
    case traps => exact hx.trans (next_eq (copyIssue_traps (issueCheck_fails he hb hp)))
    case waits => exact hx.trans (next_eq (copyIssue_waits (issueCheck_passes hpass) (joinedBy_none hno) (entryFor_none hroom)))
    case queued =>
      obtain ⟨hs, hn⟩ := stand?_of_issueScope hsc
      have hu : u.stand? st.uid = some st := (stand?_eq_of_stands hs st.uid).trans h.stand
      have hrecvs : (if kind = 1 then receivers u st sl else []) = recvs := by rw [receivers_congr hs]
      obtain ⟨F, counted, fs, cc, he, hF, hbank⟩ := copyIssue_enters (i := i) (hn.symm ▸ hfresh) (issueCheck_passes hpass)
        (joinedBy_none hno) (entryFor_room hroom) hsc hu h.grove hprog hr hnd
      rw [hrecvs] at he hF
      refine ⟨?_, fun hrd t ht v x hv => ?_⟩
      · have hq := hF.queued hu h.grove (hx.trans (next_eq he)) hn hn
        rw [hbank, hn] at hq
        exact hq
      · rw [barriers_of_copy hF hu (hx.trans (next_eq he)) hs hrd ht hv, hn]
    case joined =>
      obtain ⟨hs, hn⟩ := stand?_of_issueScope hsc
      have hu : u.stand? st.uid = some st := (stand?_eq_of_stands hs st.uid).trans h.stand
      obtain ⟨rfl, hg⟩ := hk
      have hfirst := gathering?_first hq hg (fun c hc hcg => hb c hc ⟨rfl, hcg⟩)
      obtain ⟨p, he⟩ := copyIssue_joins (en := g.enabled) (i := i) (issueCheck_passes hpass) hu h.grove hprog hr rfl hfirst hsc hl
      exact joined_of_exec hu h.grove hfresh (by rw [hq]; simp) huniq hg hnd
        (hx.trans (next_eq (he.trans (acceptCollective_joins hopen))))
  case table =>
    intro addr bound
    have hx : exec (.dictLd k a) s = .next (dictLdOp ⟨s, st, g, g.enabled, .dictLd k a⟩ k.toNat 2 addr) := by
      rw [← show _ = addr from uVal_eq_scalarSource h.wellFormed (by simp [Instr.operands]) g]
      exact h.groveInstr _
    refine ⟨fun ha => ?traps, fun ha hw => ?waits, fun ha hfresh hroom hb host hh hr => ?queued⟩
    case traps => exact hx.trans (next_eq (dictLdOp_misaligned ha))
    case waits => exact hx.trans (next_eq (dictLdOp_waits ha (hw.imp_right entryFor_none)))
    case queued =>
      have hside := aside_rangeHost s st addr.toNat 32768
      rw [hh] at hside
      have hn : u.nextId = s.nextId := State.nextId_of_aside hside
      have hu : u.stand? st.uid = some st := (stand?_eq_of_stands (State.stands_of_aside hside) st.uid).trans h.stand
      have hfr : FreshId st g u.nextId := hn.symm ▸ hfresh
      obtain ⟨p, he⟩ := dictLdOp_accepts (en := g.enabled) (i := .dictLd k a) ha hb (entryFor_room hroom) hh hu h.grove hprog hr
      have hnone : floesNamed ⟨g.slot, 0, addr, 0, 0⟩ 3 = [] := by simp [floesNamed, bitsOf]
      obtain ⟨counted, fs, cc, hF, -⟩ := enters_newEntry hfr (G := goesOnWith g u.nextId) (c := ⟨g.slot, 0, addr, 0, 0⟩)
        (r := decide (own < 2)) (kind := 3) (by decide) (by rw [hnone]; exact List.nodup_nil) []
      obtain ⟨cc', hB, hbank⟩ := hF.bindBank k.toNat
      rw [acceptSingle_eq hfr.openCopies, ite_self] at he
      have hq := hB.queued (recvs := []) (bar := 0) hu h.grove
        (hx.trans (next_eq (he.trans (modStand_modStand (h := bindBank u.nextId k.toNat) (newEntry_uid _ _ _) _ _)))) hn hn
      rw [hbank, hnone, hn] at hq
      exact hq

end Sys2Proof
end

section
/-! # Fences (13 R288; 05 R125)

A fence is a release and then an acquire. What an acquire leaves is said once, of every state; what is left are the cases of the
release and of SCOPEPOL. -/

namespace Sys2Proof

open Machine

/-! ## What an acquire leaves -/

theorem used_iff {x : L1Line} : x.used = true ↔ x.reg ||| x.valid ≠ 0#128 ∨ x.pend ≠ [] := by
  simp [L1Line.used]

/-- The lines of an L1 once the core's read copies have gone. -/
theorem mem_acquired {l : List L1Line} {core : Nat} {y : L1Line} :
    y ∈ (l.map (fun x => if x.core = core then { x with valid := 0 } else x)).filter L1Line.used ↔
      (∃ x ∈ l, (if x.core = core then { x with valid := 0 } else x) = y) ∧ y.used = true := by
  rw [List.mem_filter, List.mem_map]

theorem acquireEffect_acquireAt (s : State) (core scope : Nat) : AcquireEffect s (acquireAt s core scope) core scope := by
  unfold AcquireEffect acquireAt
  split
  next => rfl
  next =>
    refine ⟨rfl, fun y hy hc => ?_, fun x hx => ⟨fun hc hu => ?_, fun hc hu => ?_⟩, rfl, rfl, fun hl => ?_⟩
    · obtain ⟨⟨x, -, rfl⟩, -⟩ := mem_acquired.1 hy
      split at hc <;> simp_all
    · exact mem_acquired.2 ⟨⟨x, hx, if_neg hc⟩, used_iff.2 hu⟩
    · exact mem_acquired.2 ⟨⟨x, hx, if_pos hc⟩, used_iff.2 (by simpa using hu)⟩
    · rw [State.core_modCore, if_pos ⟨rfl, hl⟩]
      exact ⟨rfl, rfl⟩

/-! ## The release and the scope of a fence -/

/-- With work of the grove still under way a release waits inside its instruction. -/
theorem releasedWith_waits {x : Gx} {others : List Who} {sc : Nat}
    (h : (2 ≤ sc ∧ x.g.outStores ≠ 0) ∨ x.g.outWbs ≠ 0 ∨ x.g.ldx ≠ []) (k : Gx → State) :
    x.releasedWith others sc k = x.hold .inside x.g := by
  refine if_pos ?_
  simp only [releaseQuiet, Bool.not_eq_true', Bool.and_eq_false_iff, Bool.or_eq_false_iff, decide_eq_false_iff_not, Nat.not_lt,
    beq_eq_false_iff_ne, List.isEmpty_eq_false_iff]
  tauto

theorem hold_inside (x : Gx) (g : Grove) : x.hold .inside g = x.put { g with wait := .inside, held := some x.i } :=
  if_neg (by simp [Wait.endsStep])

/-- A scope that SCOPEPOL does not clip stays as it is. -/
theorem clipped_same {x : Gx} {sc : Nat} (h : sc ≠ 6 ∨ (x.s.d.part x.st.part).scopeOn = false) (k : Gx → Nat → State) :
    x.clipped sc k = k x sc := by
  have hn : ¬ (sc = 6 ∧ (x.s.d.part x.st.part).scopeOn = true) := by
    rintro ⟨h6, ho⟩
    simp [h6, ho] at h
  simp only [Gx.clipped, clipScope, if_neg hn]
  rfl

/-- Under SCOPEPOL.CLIP a system scope is noted; it becomes partition scope, or with TRAP a SCOPE trap. -/
theorem clipped_system {x : Gx} (h : (x.s.d.part x.st.part).scopeOn = true) (k : Gx → Nat → State) :
    let noted := x.s.modPart x.st.part (fun p => { p with scopeclip := true })
    x.clipped 6 k = if (x.s.d.part x.st.part).scopeTrap then (x.at noted).trapAll cSCOPE 1 0 else k (x.at noted) 4 := by
  simp only [Gx.clipped, clipScope, h, and_self, if_true]
  cases (x.s.d.part x.st.part).scopeTrap <;> rfl

/-- A grove retires alike whatever its instruction has noted of its progress. -/
theorem retire_prog (g : Grove) (p : Prog) : Grove.retire { g with prog := p } = g.retire := rfl

/-- A release with nothing left to wait for, then an acquire. -/
theorem fence_acts {x : Gx} {sc : Nat} (h : ReleaseReady x.s x.st x.g sc) (hp : x.g.prog = Prog.none)
    (hs : x.s.stand? x.st.uid = some x.st) (hg : x.st.grove? x.g.slot = some x.g) :
    x.released sc (fun y => acquireAt y.fin y.st.core sc) = acquireAt (x.s.setGrove x.st.uid x.g.retire) x.st.core sc := by
  obtain ⟨p, he⟩ := releasedWith_ready (others := []) h hp hs hg (fun _ _ hw => absurd hw List.not_mem_nil)
    (fun y => acquireAt y.fin y.st.core sc)
  exact he.trans (congrArg (fun r => acquireAt (x.s.setGrove x.st.uid r) x.st.core sc) (retire_prog x.g p))

/-- Settles O30: the scope is clipped or not (`clipped_same`, `clipped_system`), the release waits (`releasedWith_waits`) or lets
the acquire follow (`fence_acts`), and an acquire leaves what `acquireEffect_acquireAt` says. -/
theorem fencesReleaseThenAcquire : Obligations.FencesReleaseThenAcquire := by
  unfold Obligations.FencesReleaseThenAcquire
  intro s st g sc h hprog p noted
  let x : Gx := ⟨s, st, g, g.enabled, .fence sc⟩
  have hx : exec (.fence sc) s = .next (x.clipped sc.toNat (fun x scope => x.released scope (fun x =>
      acquireAt x.fin x.st.core scope))) := h.groveInstr _
  refine ⟨fun hc hr => ?acts, fun hc hw => ?waits, fun h6 ho ht => ?traps, fun h6 ho ht hr => ?clips⟩
  case acts =>
    exact ⟨_, hx.trans (next_eq ((clipped_same hc _).trans (fence_acts hr hprog h.stand h.grove))), acquireEffect_acquireAt _ _ _⟩
  case waits =>
    exact hx.trans (next_eq ((clipped_same hc _).trans ((releasedWith_waits hw _).trans (hold_inside x g))))
  case traps =>
    rw [h6] at hx
    exact hx.trans (next_eq ((clipped_system ho _).trans (if_pos ht)))
  case clips =>
    rw [h6] at hx
    refine ⟨_, hx.trans (next_eq ((clipped_system ho _).trans ((if_neg (by rw [show (s.d.part st.part).scopeTrap = false from ht]; decide)).trans
      (fence_acts ?_ hprog h.stand h.grove)))), acquireEffect_acquireAt _ _ _⟩
    exact ⟨hr.stores, hr.writeBacks, hr.reads, fun h => absurd h (by decide)⟩

end Sys2Proof
end

section
/-! # Byte masks and the bytes of a line (04 R83, R85; 05 R105; 02 R31)

Which bytes the model's masks name, and what its operations on lines do to each byte. Proofs about homes and L1s speak of single
bytes and go through these lemmas. -/

namespace Sys2Proof.Machine

/-! ## Masks gathered from a list -/

theorem getLsbD_foldl_or {α : Type} {w : Nat} (c : α → Prop) [DecidablePred c] (f : α → BitVec w) (l : List α) (a : BitVec w) (i : Nat) :
    (l.foldl (fun m x => if c x then m ||| f x else m) a).getLsbD i = (a.getLsbD i || l.any (fun x => decide (c x) && (f x).getLsbD i)) := by
  induction l generalizing a with
  | nil => simp
  | cons x l ih =>
    rw [List.foldl_cons, ih, List.any_cons]
    by_cases h : c x <;> simp [h, Bool.or_assoc]

/-- As `getLsbD_foldl_or`, with every element. -/
theorem getLsbD_foldl_or_all {α : Type} {w : Nat} (f : α → BitVec w) (l : List α) (a : BitVec w) (i : Nat) :
    (l.foldl (fun m x => m ||| f x) a).getLsbD i = (a.getLsbD i || l.any (fun x => (f x).getLsbD i)) := by
  simpa using getLsbD_foldl_or (fun _ => True) f l a i

/-- `n` set bits from bit `n * k` up. -/
theorem getLsbD_block {w n : Nat} (x : BitVec w) (hx : ∀ j, x.getLsbD j = (decide (j < w) && decide (j < n))) (hn : 0 < n) (k i : Nat) :
    (x <<< (n * k)).getLsbD i = (decide (i < w) && decide (i / n = k)) := by
  have hk : i / n = k ↔ n * k ≤ i ∧ i - n * k < n := by
    rw [Nat.div_eq_iff hn, Nat.mul_comm k n]
    omega
  rw [BitVec.getLsbD_shiftLeft, hx]
  simp only [hk]
  by_cases h1 : i < w
  · have h3 : i - n * k < w := Nat.lt_of_le_of_lt (Nat.sub_le ..) h1
    by_cases h2 : n * k ≤ i <;> simp [h1, h2, h3]
  · simp [h1]

/-- Two masks with the same bytes are equal. -/
theorem byteMask_ext {a b : ByteMask} (h : ∀ i, i < 128 → a.getLsbD i = b.getLsbD i) : a = b := BitVec.eq_of_getLsbD_eq h

theorem byteMask_eq_zero_iff {a : ByteMask} : a = 0#128 ↔ ∀ i, a.getLsbD i = false :=
  ⟨fun h i => by rw [h, BitVec.getLsbD_zero], fun h => byteMask_ext fun i _ => by rw [h, BitVec.getLsbD_zero]⟩

theorem byteMask_ne_zero_iff {a : ByteMask} : a ≠ 0#128 ↔ ∃ i, a.getLsbD i = true := by
  simp [byteMask_eq_zero_iff]

theorem getLsbD_all (i : Nat) : (~~~0#128 : ByteMask).getLsbD i = decide (i < 128) := by
  rw [BitVec.getLsbD_not, BitVec.getLsbD_zero, Bool.not_false, Bool.and_true]

theorem and_all (m : ByteMask) : m &&& ~~~0#128 = m :=
  BitVec.eq_of_getLsbD_eq fun i hi => by rw [BitVec.getLsbD_and, getLsbD_all, decide_eq_true hi, Bool.and_true]

theorem getLsbD_lt {w : Nat} {a : BitVec w} {i : Nat} (h : a.getLsbD i = true) : i < w := BitVec.lt_of_getLsbD h

/-- A mask without the bytes of another, and empty: every byte is the other's. -/
theorem and_not_eq_zero_iff {a b : ByteMask} : a &&& ~~~b = 0#128 ↔ ∀ i, a.getLsbD i = true → b.getLsbD i = true := by
  rw [byteMask_eq_zero_iff]
  refine forall_congr' fun i => ?_
  rw [BitVec.getLsbD_and, BitVec.getLsbD_not]
  by_cases h : a.getLsbD i = true
  · simp [h, getLsbD_lt h]
  · simp [h]

theorem and_eq_zero_iff {a b : ByteMask} : a &&& b = 0#128 ↔ ∀ i, a.getLsbD i = true → b.getLsbD i = false := by
  simp [byteMask_eq_zero_iff]

theorem maskSub_iff {a b : ByteMask} : maskSub a b = true ↔ ∀ i, a.getLsbD i = true → b.getLsbD i = true := by
  rw [maskSub, beq_iff_eq, and_not_eq_zero_iff]

/-! ## Whole words, units and halves -/

theorem extractLsb'_ne_zero_iff {m : ByteMask} {k n : Nat} : m.extractLsb' k n ≠ 0#n ↔ ∃ j, j < n ∧ m.getLsbD (k + j) = true := by
  constructor
  · intro h
    by_contra hc
    refine h (BitVec.eq_of_getLsbD_eq fun j hj => ?_)
    simp only [not_exists, not_and, Bool.not_eq_true] at hc
    simp [hj, hc j hj]
  · rintro ⟨j, hj, hm⟩ h
    have := congrArg (·.getLsbD j) h
    simp [hj, hm] at this

/-- The low `n` bits. -/
theorem getLsbD_ones (w n j : Nat) : (BitVec.ofNat w (2 ^ n - 1)).getLsbD j = (decide (j < w) && decide (j < n)) := by
  rw [BitVec.getLsbD_ofNat, Nat.testBit_two_pow_sub_one]

/-- Blocks of `n` bytes that a mask touches. -/
theorem getLsbD_blocks {n N : Nat} {ones : ByteMask} (h1 : ∀ j, ones.getLsbD j = (decide (j < 128) && decide (j < n))) (hn : 0 < n)
    (hN : 128 ≤ n * N) (m : ByteMask) (i : Nat) :
    ((List.range N).foldl (fun acc k => if m.extractLsb' (n * k) n ≠ 0#n then acc ||| (ones <<< (n * k)) else acc) 0#128).getLsbD i = true ↔
      i < 128 ∧ ∃ j, j / n = i / n ∧ m.getLsbD j = true := by
  rw [getLsbD_foldl_or]
  simp only [BitVec.getLsbD_zero, Bool.false_or, List.any_eq_true, List.mem_range, Bool.and_eq_true, decide_eq_true_eq,
    extractLsb'_ne_zero_iff, getLsbD_block ones h1 hn]
  constructor
  · rintro ⟨k, hk, ⟨j, hj, hm⟩, hi, rfl⟩
    exact ⟨hi, _, Nat.mul_add_div hn .. ▸ by simp [Nat.div_eq_of_lt hj], hm⟩
  · rintro ⟨hi, j, hji, hm⟩
    refine ⟨i / n, Nat.div_lt_of_lt_mul (by omega), ⟨j % n, Nat.mod_lt _ hn, ?_⟩, hi, rfl⟩
    rwa [← hji, Nat.div_add_mod]

/-- Words are whole (04 R83). -/
theorem getLsbD_wordsOf {m : ByteMask} {i : Nat} : (wordsOf m).getLsbD i = true ↔ i < 128 ∧ ∃ j, j / 4 = i / 4 ∧ m.getLsbD j = true :=
  getLsbD_blocks (n := 4) (N := 32) (getLsbD_ones 128 4) (by decide) (by decide) m i

/-- Units are whole (05 R105). -/
theorem getLsbD_unitsOf {m : ByteMask} {i : Nat} : (unitsOf m).getLsbD i = true ↔ i < 128 ∧ ∃ j, j / 8 = i / 8 ∧ m.getLsbD j = true :=
  getLsbD_blocks (n := 8) (N := 16) (getLsbD_ones 128 8) (by decide) (by decide) m i

theorem getLsbD_wordsOf_of {m : ByteMask} {i : Nat} (h : m.getLsbD i = true) : (wordsOf m).getLsbD i = true :=
  getLsbD_wordsOf.2 ⟨getLsbD_lt h, i, rfl, h⟩

theorem getLsbD_unitsOf_of {m : ByteMask} {i : Nat} (h : m.getLsbD i = true) : (unitsOf m).getLsbD i = true :=
  getLsbD_unitsOf.2 ⟨getLsbD_lt h, i, rfl, h⟩

@[simp] theorem wordsOf_zero : wordsOf 0#128 = 0#128 := by decide

/-- The halves that a mask touches (04 R100). -/
theorem mem_halvesOf {line h : Nat} {m : ByteMask} : h ∈ halvesOf line m ↔ ∃ i, m.getLsbD i = true ∧ h = 2 * line + i / 64 := by
  have hpart (k : Nat) (c : Nat) : h ∈ (if m.extractLsb' k 64 ≠ 0#64 then [c] else []) ↔ h = c ∧ ∃ j, j < 64 ∧ m.getLsbD (k + j) = true := by
    rw [← extractLsb'_ne_zero_iff]
    split <;> simp_all
  rw [halvesOf, List.mem_append, hpart, hpart]
  constructor
  · rintro (⟨rfl, j, hj, hm⟩ | ⟨rfl, j, hj, hm⟩)
    · exact ⟨_, hm, by omega⟩
    · exact ⟨_, hm, by omega⟩
  · rintro ⟨i, hm, rfl⟩
    have := getLsbD_lt hm
    obtain hi | hi := Nat.lt_or_ge i 64
    · exact .inl ⟨by omega, i, hi, by simpa using hm⟩
    · exact .inr ⟨by omega, i - 64, by omega, by rwa [show 64 + (i - 64) = i by omega]⟩

/-! ## Ranges of bytes -/

theorem getLsbD_maskRange {off len i : Nat} (h : off + len ≤ 128) :
    (maskRange off len).getLsbD i = true ↔ off ≤ i ∧ i < off + len := by
  rw [maskRange, BitVec.getLsbD_ofNat, Nat.testBit_mul_two_pow, Nat.testBit_two_pow_sub_one]
  simp only [Bool.and_eq_true, decide_eq_true_eq]
  omega

theorem getLsbD_maskOf {f : Nat → Bool} {i : Nat} : (maskOf f).getLsbD i = true ↔ i < 128 ∧ f i = true := by
  have hone (k : Nat) : (1#128 <<< k).getLsbD i = (decide (i < 128) && decide (i = k)) := by
    rw [BitVec.getLsbD_shiftLeft, BitVec.getLsbD_one]
    by_cases h1 : i < 128 <;> by_cases h2 : i < k <;> simp [h1, h2] <;> omega
  rw [maskOf, getLsbD_foldl_or]
  simp only [hone, BitVec.getLsbD_zero, Bool.false_or, List.any_eq_true, List.mem_range, Bool.and_eq_true, decide_eq_true_eq]
  exact ⟨fun ⟨k, _, hf, hi, e⟩ => ⟨hi, e ▸ hf⟩, fun ⟨hi, hf⟩ => ⟨i, hi, hf, hi, rfl⟩⟩

/-! ## The bytes of a line -/

theorem getLsbD_expandMask (m : ByteMask) (j : Nat) : (expandMask m).getLsbD j = m.getLsbD (j / 8) := by
  rw [expandMask, getLsbD_foldl_or, Bool.eq_iff_iff]
  simp only [getLsbD_block (n := 8) 0xFF#1024 (getLsbD_ones 1024 8) (by decide), BitVec.getLsbD_zero, Bool.false_or,
    List.any_eq_true, List.mem_range, Bool.and_eq_true, decide_eq_true_eq]
  exact ⟨fun ⟨k, _, hm, _, e⟩ => e ▸ hm, fun hm => ⟨j / 8, getLsbD_lt hm, hm, by have := getLsbD_lt hm; omega, rfl⟩⟩

theorem byteOf_eq (d : LineBits) (i : Nat) : Sys2Proof.byteOf d i = lineByte d i := rfl

theorem lineByte_ext {a b : Byte} (h : ∀ j, j < 8 → a.getLsbD j = b.getLsbD j) : a = b := BitVec.eq_of_getLsbD_eq h

/-- Merging takes the bytes under the mask from the new line. -/
@[simp] theorem lineByte_mergeLine (old new : LineBits) (m : ByteMask) (i : Nat) :
    lineByte (mergeLine old new m) i = if m.getLsbD i then lineByte new i else lineByte old i := by
  apply lineByte_ext
  intro j hj
  have e : (8 * i + j) / 8 = i := by omega
  by_cases hm : m.getLsbD i = true
  · have := getLsbD_lt hm
    simp [lineByte, mergeLine, hj, getLsbD_expandMask, e, hm]
  · by_cases hi : i < 128
    · simp [lineByte, mergeLine, hj, getLsbD_expandMask, e, hm]
      omega
    · have hge (d : LineBits) : d.getLsbD (8 * i + j) = false := BitVec.getLsbD_of_ge d _ (by omega)
      simp [lineByte, hj, hm, hge]

theorem line_ext {a b : LineBits} (h : ∀ i, i < 128 → lineByte a i = lineByte b i) : a = b := by
  refine BitVec.eq_of_getLsbD_eq fun j hj => ?_
  have := congrArg (·.getLsbD (j % 8)) (h (j / 8) (by omega))
  simpa [lineByte, Nat.mod_lt, Nat.div_add_mod] using this

@[simp] theorem mergeLine_zero (old new : LineBits) : mergeLine old new 0#128 = old :=
  line_ext fun i _ => by simp

theorem ofBytes_digit (bs : List Byte) (k : Nat) : ofBytes bs / 2 ^ (8 * k) % 256 = (bs.getD k 0).toNat := by
  induction bs generalizing k with
  | nil => simp [ofBytes]
  | cons b bs ih =>
    have := b.isLt
    cases k with
    | zero => simp [ofBytes]; omega
    | succ k =>
      rw [List.getD_cons_succ, ← ih, ofBytes, Nat.mul_succ, Nat.add_comm (8 * k), Nat.pow_add, ← Nat.div_div_eq_div_mul]
      congr 2
      omega

/-- Bytes placed in a line stand where they were placed. -/
theorem lineByte_bytesAsLine {off i : Nat} {bs : List Byte} (h : off + bs.length ≤ 128) (h1 : off ≤ i) :
    lineByte (bytesAsLine off bs) i = bs.getD (i - off) 0 := by
  apply BitVec.eq_of_toNat_eq
  have hlt : ofBytes bs * 2 ^ (8 * off) < 2 ^ 1024 := by
    refine Nat.lt_of_lt_of_le (Nat.mul_lt_mul_of_pos_right (ofBytes_lt bs) (Nat.two_pow_pos _)) ?_
    rw [show (256 : Nat) = 2 ^ 8 from rfl, ← Nat.pow_mul, ← Nat.pow_add]
    exact Nat.pow_le_pow_right Nat.two_pos (by omega)
  rw [lineByte, bytesAsLine, BitVec.extractLsb'_toNat, BitVec.toNat_ofNat, Nat.mod_eq_of_lt hlt, Nat.shiftRight_eq_div_pow,
    ← ofBytes_digit, show 8 * i = 8 * off + 8 * (i - off) by omega, Nat.pow_add, Nat.mul_comm (ofBytes bs), Nat.mul_div_mul_left _ _ (Nat.two_pow_pos _)]

/-- A line put together from its bytes. -/
theorem lineByte_bytesAsLine_zero {bs : List Byte} (h : bs.length ≤ 128) (i : Nat) : lineByte (bytesAsLine 0 bs) i = bs.getD i 0 :=
  lineByte_bytesAsLine (off := 0) (by simpa using h) (Nat.zero_le i)

/-! ## Masked writes of memory -/

theorem getD_memBytes {m : List Cell} {a n k : Nat} (h : k < n) : (memBytes m a n).getD k 0 = memByte m (a + k) := by
  simp [memBytes, List.getD_eq_getElem?_getD, h]

/-- Bytes under a mask, as a fold over some places of the line. -/
theorem memByte_memMerge_places {m : List Cell} (hm : Memory.wf m = true) (pa : Nat) (mask : ByteMask) (d : LineBits) (l : List Nat) (a : Nat) :
    memByte (l.foldl (fun acc i => if mask.getLsbD i then memSet acc (pa + i) (lineByte d i) else acc) m) a =
      if pa ≤ a ∧ a - pa ∈ l ∧ mask.getLsbD (a - pa) = true then lineByte d (a - pa) else memByte m a := by
  induction l generalizing m with
  | nil => simp
  | cons i l ih =>
    rw [List.foldl_cons, ih (by split; exacts [memSet_wf hm _ _, hm])]
    simp only [List.mem_cons]
    by_cases h : pa ≤ a ∧ a - pa ∈ l ∧ mask.getLsbD (a - pa) = true
    · rw [if_pos h, if_pos ⟨h.1, .inr h.2.1, h.2.2⟩]
    · rw [if_neg h]
      by_cases hi : mask.getLsbD i = true
      · rw [if_pos hi, memByte_memSet hm]
        by_cases ha : a = pa + i
        · subst ha
          rw [if_pos rfl, if_pos ⟨by omega, .inl (by omega), by rwa [Nat.add_sub_cancel_left]⟩, Nat.add_sub_cancel_left]
        · rw [if_neg ha, if_neg]
          rintro ⟨h1, h2 | h2, h3⟩
          · omega
          · exact h ⟨h1, h2, h3⟩
      · rw [if_neg hi, if_neg]
        rintro ⟨h1, h2 | h2, h3⟩
        · exact hi (h2 ▸ h3)
        · exact h ⟨h1, h2, h3⟩

/-- Bytes of a line written under a mask, and every other byte of memory as before. -/
theorem memByte_memMerge {m : List Cell} (hm : Memory.wf m = true) (pa : Nat) (mask : ByteMask) (d : LineBits) (a : Nat) :
    memByte (memMerge m pa mask d) a = if pa ≤ a ∧ mask.getLsbD (a - pa) = true then lineByte d (a - pa) else memByte m a := by
  rw [memMerge, memByte_memMerge_places hm]
  refine if_congr ?_ rfl rfl
  rw [List.mem_range]
  exact ⟨fun h => ⟨h.1, h.2.2⟩, fun h => ⟨h.1, getLsbD_lt h.2, h.2⟩⟩

end Sys2Proof.Machine
end

section
/-! # Lines of an L1 (04 R85 to R88)

What a core's L1 holds of a line after an update, and how the stores under way of a line lie over its bytes. -/

namespace Sys2Proof.Machine

/-! ## Finding a line -/

theorem find?_filter_of_imp {α : Type} {p q : α → Bool} {l : List α} (h : ∀ x, q x = true → p x = true) : (l.filter p).find? q = l.find? q := by
  rw [List.find?_filter]
  congr 1
  funext x
  cases hq : q x
  · simp
  · simp [h x hq]

/-- A line that is put into an L1 is found there when something of it is left; every other line is found as before. -/
theorem l1Find_l1Put (s : State) (x : L1Line) (c l : Nat) :
    l1Find (l1Put s x) c l = if c = x.core ∧ l = x.line then (if x.used then some x else none) else l1Find s c l := by
  have hrest : (s.m.l1.filter (fun y => !(y.core == x.core && y.line == x.line))).find? (fun y => y.core == c && y.line == l) =
      if c = x.core ∧ l = x.line then none else l1Find s c l := by
    split
    next h =>
      obtain ⟨rfl, rfl⟩ := h
      rw [List.find?_eq_none]
      intro y hy
      have hne := (List.mem_filter.1 hy).2
      rw [Bool.not_eq_true'] at hne
      rw [hne]
      decide
    next h =>
      refine find?_filter_of_imp fun y hy => ?_
      simp only [Bool.and_eq_true, beq_iff_eq] at hy
      obtain ⟨rfl, rfl⟩ := hy
      rw [Bool.not_eq_true', Bool.and_eq_false_iff, beq_eq_false_iff_ne, beq_eq_false_iff_ne]
      tauto
  simp only [l1Find, l1Put, State.modM_m]
  cases hu : x.used
  · rw [if_neg (by simp), hrest]
    simp [l1Find]
  · rw [if_pos rfl, List.find?_cons, hrest]
    by_cases h : c = x.core ∧ l = x.line
    · obtain ⟨rfl, rfl⟩ := h
      simp
    · have : (x.core == c && x.line == l) = false := by
        simp only [Bool.and_eq_false_iff, beq_eq_false_iff_ne, ne_eq]
        omega
      simp [this, h, l1Find]

theorem l1Find_key {s : State} {c l : Nat} {x : L1Line} (h : l1Find s c l = some x) : x.core = c ∧ x.line = l := by
  simpa using List.find?_some h

/-! ## Stores under way over the bytes of a line -/

theorem getLsbD_pendMask (x : L1Line) (i : Nat) : x.pendMask.getLsbD i = x.pend.any (fun p => p.mask.getLsbD i) := by
  rw [L1Line.pendMask, getLsbD_foldl_or_all, BitVec.getLsbD_zero, Bool.false_or]

/-- A byte with the stores under way over it. -/
def stored (ps : List PendStore) (i : Nat) (b : Byte) : Byte :=
  ps.foldl (fun b p => if p.mask.getLsbD i then lineByte p.data i else b) b

theorem stored_append (ps qs : List PendStore) (i : Nat) (b : Byte) : stored (ps ++ qs) i b = stored qs i (stored ps i b) := List.foldl_append

theorem lineByte_view (x : L1Line) (i : Nat) : lineByte x.view i = stored x.pend i (lineByte x.data i) := by
  have h (ps : List PendStore) (d : LineBits) :
      lineByte (ps.foldl (fun d p => mergeLine d p.data p.mask) d) i = stored ps i (lineByte d i) := by
    induction ps generalizing d with
    | nil => rfl
    | cons p ps ih => rw [List.foldl_cons, ih, lineByte_mergeLine]; rfl
  exact h x.pend x.data

/-- Where no store under way writes, the byte is the line's. -/
theorem stored_none {ps : List PendStore} {i : Nat} (h : ps.any (fun p => p.mask.getLsbD i) = false) (b : Byte) : stored ps i b = b := by
  induction ps with
  | nil => rfl
  | cons p ps ih =>
    simp only [List.any_cons, Bool.or_eq_false_iff] at h
    rw [stored, List.foldl_cons, h.1]
    exact ih h.2

theorem any_dropPend (ps : List PendStore) (m : ByteMask) (i : Nat) :
    (dropPend ps m).any (fun p => p.mask.getLsbD i) = (ps.any (fun p => p.mask.getLsbD i) && !m.getLsbD i) := by
  rw [dropPend, List.any_map, Bool.eq_iff_iff]
  simp only [List.any_eq_true, Function.comp_apply, BitVec.getLsbD_and, BitVec.getLsbD_not, Bool.and_eq_true, decide_eq_true_eq]
  exact ⟨fun ⟨p, hp, h, _, hm⟩ => ⟨⟨p, hp, h⟩, hm⟩, fun ⟨⟨p, hp, h⟩, hm⟩ => ⟨p, hp, h, getLsbD_lt h, hm⟩⟩

theorem stored_dropPend (ps : List PendStore) (m : ByteMask) (i : Nat) (b : Byte) :
    stored (dropPend ps m) i b = if m.getLsbD i then b else stored ps i b := by
  by_cases hm : m.getLsbD i = true
  · rw [if_pos hm, stored_none]
    rw [any_dropPend, hm]
    simp
  · rw [if_neg hm]
    induction ps generalizing b with
    | nil => rfl
    | cons p ps ih =>
      have hp : (p.mask &&& ~~~m).getLsbD i = p.mask.getLsbD i := by
        by_cases h : p.mask.getLsbD i = true
        · rw [BitVec.getLsbD_and, BitVec.getLsbD_not, h, Bool.eq_false_iff.2 hm]
          simp [getLsbD_lt h]
        · simp [h]
      rw [dropPend, List.map_cons, stored, List.foldl_cons, hp]
      exact ih _

@[simp] theorem getLsbD_own (x : L1Line) (i : Nat) : x.own.getLsbD i = (x.reg.getLsbD i || x.pendMask.getLsbD i) := BitVec.getLsbD_or

/-- A line with a registered byte, a read copy or a store under way is kept. -/
theorem used_of_reg {x : L1Line} {i : Nat} (h : x.reg.getLsbD i = true) : x.used = true := by
  have : x.reg ||| x.valid ≠ 0#128 := byteMask_ne_zero_iff.2 ⟨i, by simp [h]⟩
  simp [L1Line.used, this]

theorem used_of_valid {x : L1Line} {i : Nat} (h : x.valid.getLsbD i = true) : x.used = true := by
  have : x.reg ||| x.valid ≠ 0#128 := byteMask_ne_zero_iff.2 ⟨i, by simp [h]⟩
  simp [L1Line.used, this]

theorem used_of_pend {x : L1Line} (h : x.pend ≠ []) : x.used = true := by simp [L1Line.used, h]

end Sys2Proof.Machine
end

section
/-! # HBM lines at their homes (02 R31; 03 R69 to R73, R80; 04 R83 to R88)

A line of HBM that no window covers and that its slice holds: what an access, a write and a request without another registrant do. -/

namespace Sys2Proof.Machine

/-- An address of HBM (02 R31). -/
def Hbm (pa : Nat) : Prop := pa < 0x00B2D05E0000

section
variable {s : State} {line pa : Nat}

theorem Hbm.region (h : Hbm pa) (s : State) : regionOf s pa = .hbm := if_pos h

theorem Hbm.removed (h : Hbm pa) (s : State) : removedAt s pa = false := by
  rw [removedAt, h.region]

theorem Hbm.outside (h : Hbm pa) (s : State) : outsideByte s pa = true := by
  rw [outsideByte, h.region]

theorem Hbm.memLines (h : Hbm (line * 128)) (s : State) : memLinesOf s line = [line] := by
  rw [memLinesOf, h.region]

theorem Hbm.held (h : Hbm (line * 128)) (s : State) : stackHeld s line = s.d.mgmt.heldStacks.contains (stackOf (line * 128)) := by
  rw [stackHeld, h.region]

/-! ## Lines that a slice holds -/

theorem isSome_l2Home : (l2Home s line).isSome = true ↔ ∃ y ∈ s.m.l2, y.line = line ∧ y.visitor = none := by
  simp [l2Home]

theorem inSlice_eq (s : State) (line : Nat) : inSlice s line = (l2Home s line).isSome := by
  rw [Bool.eq_iff_iff, isSome_l2Home]
  simp [inSlice]

/-- An access of a held line changes the order and the marks of its slice's lines, and every line held stays so. -/
theorem l2Access_held (h : (l2Home s line).isSome) (part mark : Nat) (read : Bool) :
    ∃ l2, l2Access s line part mark read = s.modM (fun m => { m with l2 := l2 }) ∧
      ∀ l, (l2Home s l).isSome → (l2Home (s.modM (fun m => { m with l2 := l2 })) l).isSome := by
  obtain ⟨y, hy⟩ := Option.isSome_iff_exists.1 h
  have hv : y.line = line ∧ y.visitor = none := by simpa [l2Home] using List.find?_some hy
  refine ⟨_, by rw [l2Access, hy]; rfl, fun l hl => ?_⟩
  obtain ⟨z, hz, rfl, hzv⟩ := isSome_l2Home.1 hl
  refine isSome_l2Home.2 ?_
  by_cases hzl : z.line = y.line
  · exact ⟨_, List.mem_cons_self, hzl.symm, hv.2⟩
  · exact ⟨z, List.mem_cons_of_mem _ (List.mem_filter.2 ⟨hz, by simp [hzl]⟩), rfl, hzv⟩

/-! ## Writes (04 R85, R87) -/

/-- What a write of an HBM line leaves alone: everything but memory, its marks, the slices' lines, the rows and the counters. -/
def State.links (s : State) : State :=
  s.modM (fun m => { m with mem := [], lost := [], poison := [], unverified := [], l2 := [], rows := [], ctrs := [] })

theorem links_openRow (s : State) (line : Nat) : (openRow s line).links = s.links := by
  simp only [openRow]; split <;> rfl

theorem links_memWrite (s : State) (line : Nat) : (memWrite s line).links = s.links := by
  unfold memWrite
  split
  · exact links_openRow s line
  · exact links_openRow s line
  all_goals rfl

theorem links_markDirty (s : State) (line : Nat) : (markDirty s line).links = s.links := by
  unfold markDirty
  split
  · rfl
  · exact links_memWrite s line

theorem mem_openRow (s : State) (line : Nat) : (openRow s line).m.mem = s.m.mem := by
  simp only [openRow]; split <;> rfl

theorem mem_memWrite (s : State) (line : Nat) : (memWrite s line).m.mem = s.m.mem := by
  unfold memWrite
  split
  · exact mem_openRow s line
  · exact mem_openRow s line
  all_goals rfl

theorem mem_markDirty (s : State) (line : Nat) : (markDirty s line).m.mem = s.m.mem := by
  unfold markDirty
  split
  · rfl
  · exact mem_memWrite s line

/-- The state of a write of an HBM line before the line is marked. -/
def written (s : State) (line : Nat) (mask : ByteMask) (d : LineBits) (clean : ByteMask) : State :=
  s.modM (fun m => { m with
    lost := m.lost.filter (fun w => !(w / 32 == line && clean.getLsbD (4 * (w % 32))))
    mem := memMerge m.mem (line * 128) mask d
    unverified := if mask = ~~~0#128 then m.unverified.filter (· ≠ line) else m.unverified
    poison := if mask = ~~~0#128 then m.poison.filter (· ≠ line) else m.poison })

theorem homeWrite_hbm (h : Hbm (line * 128)) (mask : ByteMask) (d : LineBits) (clean : ByteMask) (whos : List Who) :
    homeWrite s line mask d clean whos =
      if mask = 0#128 then written s line mask d clean else markDirty (written s line mask d clean) line := by
  unfold homeWrite
  simp only
  rw [h.region]
  rfl

theorem links_homeWrite (h : Hbm (line * 128)) (mask : ByteMask) (d : LineBits) (clean : ByteMask) (whos : List Who) :
    (homeWrite s line mask d clean whos).links = s.links := by
  rw [homeWrite_hbm h]
  split
  · rfl
  · exact links_markDirty _ line

theorem mem_homeWrite (h : Hbm (line * 128)) (mask : ByteMask) (d : LineBits) (clean : ByteMask) (whos : List Who) :
    (homeWrite s line mask d clean whos).m.mem = memMerge s.m.mem (line * 128) mask d := by
  rw [homeWrite_hbm h]
  split
  · rfl
  · exact mem_markDirty _ line

/-- What is linked to neither memory nor its marks is the same in states that agree so far. -/
theorem State.eq_of_links {s t : State} (h : t.links = s.links) :
    t.m.firn = s.m.firn ∧ t.m.l1 = s.m.l1 ∧ t.m.toSlice = s.m.toSlice ∧ t.m.toCore = s.m.toCore ∧
      t.m.lineWaits = s.m.lineWaits ∧ t.m.fills = s.m.fills ∧ t.m.halves = s.m.halves ∧ t.stands = s.stands ∧ t.d = s.d ∧ t.stamp = s.stamp :=
  ⟨congrArg (·.m.firn) h, congrArg (·.m.l1) h, congrArg (·.m.toSlice) h, congrArg (·.m.toCore) h, congrArg (·.m.lineWaits) h,
    congrArg (·.m.fills) h, congrArg (·.m.halves) h, congrArg (·.stands) h, congrArg (·.d) h, congrArg (·.stamp) h⟩

/-! ## Reads -/

/-- The bytes and the marks of an HBM line at its home. -/
theorem homeLine_hbm (h : Hbm (line * 128)) :
    (∀ i, i < 128 → lineByte (homeLine s line).bytes i = memByte s.m.mem (line * 128 + i) ∧
      (homeLine s line).poison.getLsbD i = s.m.poison.contains line ∧
      (homeLine s line).lost.getLsbD i = s.m.lost.contains ((line * 128 + i) / 4)) ∧
    (homeLine s line).stamp = s.stamp := by
  have e : homeLine s line = ⟨bytesAsLine 0 (memBytes s.m.mem (line * 128) 128),
      if linePoisoned s (line * 128) then ~~~0#128 else 0, maskOf (fun i => s.m.lost.contains ((line * 128 + i) / 4)), s.stamp, s.stamp⟩ := by
    unfold homeLine
    simp only
    rw [h.region]
  have hp : linePoisoned s (line * 128) = s.m.poison.contains line := by
    rw [linePoisoned, h.removed, Bool.or_false, Nat.mul_div_cancel _ (by decide)]
  rw [e]
  refine ⟨fun i hi => ⟨?_, ?_, ?_⟩, rfl⟩
  · rw [lineByte_bytesAsLine_zero (by rw [length_memBytes]), getD_memBytes hi]
  · rw [hp]
    cases s.m.poison.contains line
    · simp
    · rw [if_pos rfl, getLsbD_all, decide_eq_true hi]
  · rw [Bool.eq_iff_iff, getLsbD_maskOf]
    exact and_iff_right hi

end

/-! ## Requests without another registrant -/

section
variable {s : State} {line : Nat}

theorem dropShared_none {hs : List Nat} (h : ∀ k ∈ hs, halfState s k ≠ 1) : dropShared s hs = s :=
  List.foldlRecOn (motive := fun t => t = s) hs _ rfl fun t ht k hk => by rw [ht, if_neg (h k hk)]

/-- The host caches no half of an `HbmLine`. -/
theorem halfState_of_hbmLine (h : HbmLine s line) (m : ByteMask) : ∀ k ∈ halvesOf line m, halfState s k = 0 := by
  obtain ⟨-, -, -, h0, h1⟩ := h
  intro k hk
  obtain ⟨i, hi, rfl⟩ := mem_halvesOf.1 hk
  have := getLsbD_lt hi
  obtain h | h : i / 64 = 0 ∨ i / 64 = 1 := by omega
  · rwa [h]
  · rwa [h]

/-- A request is an atomic's. -/
def Req.atomic (r : Req) : Bool := match r with
  | .atom .. => true
  | _ => false

/-- The registrants that a request meets: those of its words, and for an atomic the asking core too. -/
def registrants (s : State) (core line : Nat) (r : Req) : List FirnEntry :=
  (firnOf s line).filter (fun e => (r.atomic || e.core != core) &&
    wordsOf e.mask &&& wordsOf r.mask != 0#128)

/-- A request of a line that the host does not cache: served at once, or the registrants are asked. -/
theorem takeReq_hbm (h : HbmLine s line) (core : Nat) (r : Req) (by_ : Nat) :
    takeReq s core line r by_ =
      if registrants s core line r = [] then finishReq s ⟨line, core, r, by_, [], [], 0, 0, 0⟩
      else ((registrants s core line r).foldl (fun acc e => sendCore acc e.core line
        (if r.reads then .fwd (wordsOf e.mask) else .recall (wordsOf e.mask &&& wordsOf r.mask))) s).modM
          (fun m => { m with lineWaits := m.lineWaits ++ [⟨line, core, r, by_, (registrants s core line r).map (·.core), [], 0, 0, 0⟩] }) := by
  have hms : (halvesOf line r.mask).filter (fun h => halfState s h == 2) = [] :=
    List.filter_eq_nil_iff.2 fun k hk => by rw [halfState_of_hbmLine h _ k hk]; decide
  have hds : (if r.reads = true then s else dropShared s (halvesOf line r.mask)) = s := by
    rw [dropShared_none fun k hk => by rw [halfState_of_hbmLine h _ k hk]; decide, ite_self]
  unfold takeReq
  simp only [hms, hds]
  by_cases he : registrants s core line r = []
  · rw [if_pos he]
    refine (if_pos ⟨List.isEmpty_iff.2 he, rfl⟩).trans (congrArg (finishReq s) ?_)
    exact congrArg (fun l => LineWait.mk line core r by_ (l.map (·.core)) [] 0 0 0) he
  · rw [if_neg he]
    exact if_neg fun h => he (List.isEmpty_iff.1 h.1)

/-- A held HBM line of no window, about which no request waits, is ready. -/
theorem homeReady_held (hr : Hbm (line * 128)) (hn : windowAt s (line * 128) = none) (hw : ∀ w ∈ s.m.lineWaits, w.line ≠ line)
    (hs : (l2Home s line).isSome) (part : Nat) : homeReady s line part = true := by
  have hb : lineBusy s line = false := by simpa [lineBusy] using hw
  have hg : groupReady s line = true := by rw [groupReady, hn]
  have ho : homeOpen s line part = true := by simp [homeOpen, inSlice_eq, hs, Hbm.region hr, l2Room]
  rw [homeReady, hb, hg, ho]
  rfl

theorem homeReady_of_hbmLine (h : HbmLine s line) (hs : (l2Home s line).isSome) (part : Nat) : homeReady s line part = true := by
  obtain ⟨hr, hn, hw, -⟩ := h
  exact homeReady_held hr hn hw hs part

/-- A message whose turn has come is served at once. -/
theorem served_atHome {m : ToSlice} (h : AtHome s m) (k : State → ToSlice → State) : served s m k = k s m := by
  obtain ⟨-, hc, ha, ht⟩ := h
  have harr : arrived s m = (m, s) := if_pos hc
  have hpay : payAll (tokensOf s m + 1) s m = (m, s) := by simp [payAll, ha]
  simp only [served, harr, hpay, ha, ht]
  rfl

/-- A request of a held HBM line is taken at once, when no entry of the firn table has to be drained for it. -/
theorem takeHead_held {m : ToSlice} (h : HbmLine s m.line) (hs : (l2Home s m.line).isSome) (hroom : makeRoom s m = s) :
    ∃ l2, takeHead s m = takeReq ((dropUp s m).modM (fun k => { k with l2 := l2 })) m.core m.line m.req m.by_ := by
  obtain ⟨l2, he, -⟩ := l2Access_held (s := dropUp s m) hs (reqPart s m) 0 (readsData m.req)
  refine ⟨l2, ?_⟩
  unfold takeHead
  simp only [hroom, homeReady_of_hbmLine h hs, if_true, inSlice_eq, hs, Bool.true_or, he]

/-- A request that meets no registrant is served at once. -/
theorem takeHead_alone {m : ToSlice} (h : HbmLine s m.line) (hs : (l2Home s m.line).isSome) (hroom : makeRoom s m = s)
    (hr : registrants s m.core m.line m.req = []) : ∃ l2, takeHead s m =
      finishReq ((dropUp s m).modM (fun k => { k with l2 := l2 })) ⟨m.line, m.core, m.req, m.by_, [], [], 0, 0, 0⟩ := by
  obtain ⟨l2, he⟩ := takeHead_held h hs hroom
  exact ⟨l2, he.trans ((takeReq_hbm (s := (dropUp s m).modM (fun k => { k with l2 := l2 })) h m.core m.req m.by_).trans (if_pos hr))⟩

/-- A request that meets one registrant asks it, and waits. -/
theorem takeHead_asks {m : ToSlice} {e : FirnEntry} (h : HbmLine s m.line) (hs : (l2Home s m.line).isSome) (hroom : makeRoom s m = s)
    (hr : registrants s m.core m.line m.req = [e]) : ∃ l2, takeHead s m =
      (sendCore ((dropUp s m).modM (fun k => { k with l2 := l2 })) e.core m.line
        (if m.req.reads then .fwd (wordsOf e.mask) else .recall (wordsOf e.mask &&& wordsOf m.req.mask))).modM
          (fun k => { k with lineWaits := k.lineWaits ++ [⟨m.line, m.core, m.req, m.by_, [e.core], [], 0, 0, 0⟩] }) := by
  obtain ⟨l2, he⟩ := takeHead_held h hs hroom
  have hr' : registrants ((dropUp s m).modM (fun k => { k with l2 := l2 })) m.core m.line m.req = [e] := hr
  refine ⟨l2, he.trans ((takeReq_hbm (s := (dropUp s m).modM (fun k => { k with l2 := l2 })) h m.core m.req m.by_).trans ?_)⟩
  rw [hr', if_neg (List.cons_ne_nil _ _)]
  rfl

/-- A firn table that is not full makes room by itself. -/
theorem drainFor_none (h : s.m.firn.length < 8192) (slice : Nat) : drainFor s slice = none :=
  if_pos (Nat.lt_of_le_of_lt (List.length_filter_le _ _) h)

theorem makeRoom_none (h : s.m.firn.length < 8192) (m : ToSlice) : makeRoom s m = s := by
  unfold makeRoom
  split
  · simp [drainFor_none h]
  all_goals rfl

theorem makeRoom_of_not_reg {m : ToSlice} (h : ∀ k w, m.req ≠ .reg k w) : makeRoom s m = s := by
  unfold makeRoom
  split
  · exact absurd ‹_› (h _ _)
  all_goals rfl

/-- A registration in a table that is not full: the core has an entry of the line that names the bytes. -/
theorem register_room (h : s.m.firn.length < 8192) (core line part : Nat) (mask : ByteMask) :
    ∃ firn, register s core line part mask = s.modM (fun m => { m with firn := firn }) ∧
      ∃ e ∈ firn, e.core = core ∧ e.line = line ∧ mask &&& ~~~e.mask = 0#128 := by
  unfold register
  split
  next ha =>
    obtain ⟨e, he, hc⟩ := List.any_eq_true.1 ha
    obtain ⟨hm, hl⟩ := List.mem_filter.1 he
    refine ⟨_, rfl, _, List.mem_map.2 ⟨e, hm, if_pos ⟨by simpa using hc, by simpa using hl⟩⟩, by simpa using hc, by simpa using hl, ?_⟩
    exact and_not_eq_zero_iff.2 fun i hi => by simp [hi]
  next =>
    simp only [drainFor_none h]
    exact ⟨_, rfl, _, List.mem_append_right _ (List.mem_singleton.2 rfl), rfl, rfl, by simp⟩

theorem markWritten_none (h : windowAt s (line * 128) = none) (mask : ByteMask) : markWritten s line mask = s := by
  rw [markWritten, h]

theorem clearElems_none (h : windowAt s (line * 128) = none) (mask : ByteMask) : clearElems s line mask = s := by
  rw [clearElems, h]

end

end Sys2Proof.Machine
end

section
/-! # Messages of the registration protocol (04 R83 to R88, R93, R102)

What a home slice does with a request, an answer or a write-back whose turn has come, and what a core does with what its home sends:
the state that each leaves, written out. -/

namespace Sys2Proof.Machine

/-! ## A grove's counts and replies -/

/-- Changes a grove where it is. -/
def groveMod (slot : Nat) (f : Grove → Grove) (st : Stand) : Stand :=
  { st with groves := st.groves.map (fun g => if g.slot = slot then f g else g) }

/-- Changes a grove of a stand of the state. -/
def modGrove (s : State) (w : Who) (f : Grove → Grove) : State := s.modStand w.uid (groveMod w.slot f)

section
variable {f h : Grove → Grove} (hf : ∀ g, (f g).slot = g.slot)
include hf

theorem grove?_groveMod (slot : Nat) (st : Stand) : (groveMod slot f st).grove? slot = (st.grove? slot).map f := by
  simp only [Stand.grove?, groveMod, List.find?_map]
  have hp : (fun g => g.slot == slot) ∘ (fun g => if g.slot = slot then f g else g) = fun g : Grove => g.slot == slot := by
    funext g
    simp only [Function.comp_apply]
    split <;> simp [hf]
  rw [hp]
  cases hg : st.groves.find? (fun g => g.slot == slot) with
  | none => rfl
  | some g => exact congrArg some (if_pos (by simpa using List.find?_some hg))

theorem groveNow_modGrove (s : State) (w : Who) : groveNow (modGrove s w f) w = (groveNow s w).map f := by
  rw [groveNow, groveNow, modGrove, State.stand?_modStand (f := groveMod w.slot f) fun _ => rfl]
  cases hs : s.stand? w.uid with
  | none => rfl
  | some st =>
    rw [Option.map_some, if_pos (State.stand?_uid hs)]
    exact grove?_groveMod hf w.slot st

theorem groveMod_groveMod (slot : Nat) (st : Stand) : groveMod slot h (groveMod slot f st) = groveMod slot (fun g => h (f g)) st := by
  unfold groveMod
  rw [List.map_map]
  congr 2
  funext g
  by_cases hs : g.slot = slot
  · simp [hs, hf]
  · simp [hs]

theorem modGrove_modGrove (s : State) (w : Who) : modGrove (modGrove s w f) w h = modGrove s w (fun g => h (f g)) := by
  unfold modGrove State.modStand
  rw [List.map_map]
  congr 2
  funext st
  by_cases hu : st.uid = w.uid
  · rw [Function.comp_apply, if_pos hu, if_pos hu, if_pos (show (groveMod w.slot f st).uid = w.uid from hu)]
    exact groveMod_groveMod hf w.slot st
  · simp [hu]

end

/-- A store of a grove that is performed counts no more. -/
def performedStore (g : Grove) : Grove := { g with outStores := g.outStores - 1 }

theorem addOut_neg (s : State) (w : Who) : addOut s w (-1) = modGrove s w performedStore := by
  have h (n : Nat) : ((n : Int) + -1).toNat = n - 1 := by omega
  simp only [addOut, h]
  rfl

theorem addWbs_neg (s : State) (w : Who) : addWbs s [w] (-1) = modGrove s w (fun g => { g with outWbs := g.outWbs - 1 }) := by
  have h (n : Nat) : ((n : Int) + -1).toNat = n - 1 := by omega
  simp only [addWbs, h, List.foldl_cons, List.foldl_nil]
  rfl

/-- A reply of an atomic as its grove takes it: none for a lane that a predicate has suppressed, nor for a store. -/
def tookReply (lane : Nat) (old : Word) (fl : BitVec 5) (g : Grove) : Grove :=
  { g with
    outStores := g.outStores - 1
    prog := if lane = 1024 ∨ g.prog.watched.getLsbD lane = true then g.prog
      else { g.prog with replies := g.prog.replies ++ [(lane, old, fl)] } }

theorem atomReply_eq (s : State) (w : Who) (lane : Nat) (old : Word) (fl : BitVec 5) :
    atomReply s w lane old fl = modGrove s w (tookReply lane old fl) := by
  unfold atomReply
  rw [addOut_neg]
  by_cases hl : lane = 1024
  · simp only [hl, if_true]
    exact congrArg (modGrove s w) (funext fun g => by simp [performedStore, tookReply])
  · have hm (u : State) : u.modStand w.uid (fun st => { st with groves := st.groves.map (fun g =>
        if g.slot = w.slot ∧ !g.prog.watched.getLsbD lane then
          { g with prog := { g.prog with replies := g.prog.replies ++ [(lane, old, fl)] } } else g) }) =
        modGrove u w (fun g => if g.prog.watched.getLsbD lane then g
          else { g with prog := { g.prog with replies := g.prog.replies ++ [(lane, old, fl)] } }) := by
      refine congrArg (u.modStand w.uid) (funext fun st => ?_)
      rw [groveMod]
      congr 2
      funext g
      by_cases h1 : g.slot = w.slot <;> simp [h1]
      cases g.prog.watched.getLsbD lane <;> rfl
    rw [if_neg hl]
    simp only [hm]
    rw [modGrove_modGrove (f := performedStore) (fun _ => rfl)]
    refine congrArg (modGrove s w) (funext fun g => ?_)
    cases hw : g.prog.watched.getLsbD lane <;> simp [performedStore, tookReply, hl, hw]

theorem atomBad_eq (s : State) (w : Who) (lane code off : Nat) :
    atomBad s w lane code off = modGrove s w (fun g => { g with
      outStores := g.outStores - 1
      prog := { g.prog with faults := g.prog.faults ++ [⟨lane, code, 0, BitVec.ofNat 64 off⟩] } }) := by
  unfold atomBad
  rw [addOut_neg]
  exact modGrove_modGrove (f := performedStore) (fun _ => rfl) s w

end Sys2Proof.Machine
end

section
/-! # Requests of a held line: their answers (04 R83, R85, R88, R102) -/

namespace Sys2Proof.Machine

variable {s : State} {line core : Nat}

/-- No registrant of a line: no request meets one. -/
theorem registrants_none {r : Req} (h : ∀ e ∈ s.m.firn, e.line ≠ line) : registrants s core line r = [] := by
  have hf : firnOf s line = [] := List.filter_eq_nil_iff.2 fun e he => by simpa using h e he
  rw [registrants, hf, List.filter_nil]

/-- A REG meets the registrants of its words but its own core. -/
theorem registrants_reg {mask : ByteMask} {w : Who}
    (h : ∀ e ∈ s.m.firn, e.line = line → e.core = core ∨ wordsOf e.mask &&& wordsOf mask = 0#128) :
    registrants s core line (.reg mask w) = [] := by
  refine List.filter_eq_nil_iff.2 fun e he => ?_
  obtain ⟨hm, hl⟩ := List.mem_filter.1 he
  obtain hc | hc := h e hm (by simpa using hl)
  · simp [hc, Req.atomic]
  · simp [Req.mask, hc]

theorem registrants_reg_one {mask : ByteMask} {w : Who} {e : FirnEntry} (h : s.m.firn.filter (fun e => e.line == line) = [e])
    (hc : e.core ≠ core) (hw : wordsOf e.mask &&& wordsOf mask ≠ 0#128) : registrants s core line (.reg mask w) = [e] := by
  rw [registrants, firnOf, h, List.filter_cons_of_pos (by simp [hc, Req.mask, hw]), List.filter_nil]

/-! ## The answers -/

/-- A REG that meets nobody registers its bytes and is granted. -/
theorem finishReq_reg (hn : windowAt s (line * 128) = none) (hlen : s.m.firn.length < 8192) (mask : ByteMask) (w : Who) (by_ : Nat) :
    ∃ firn l2 fills lost, finishReq s ⟨line, core, .reg mask w, by_, [], [], 0, 0, 0⟩ = s.modM (fun m => { m with
        firn := firn, l2 := l2, fills := fills, lost := lost, toCore := m.toCore ++ [⟨core, line, .grant mask w⟩] }) ∧
      ∃ e ∈ firn, e.core = core ∧ e.line = line ∧ mask &&& ~~~e.mask = 0#128 := by
  obtain ⟨firn, he, hfirn⟩ := register_room hlen core line (partOfCore s core) mask
  have hn' : windowAt (s.modM (fun m => { m with firn := firn })) (line * 128) = none := hn
  refine ⟨firn, _, _, _, by unfold finishReq; simp only [he, markWritten_none hn', clearElems_none hn']; rfl, hfirn⟩

/-- Bytes that supply nothing change nothing of a line. -/
theorem over_nothing {a : Leaving} (hm : a.mask = 0#128) (hc : a.clean = 0#128) (d : LineData) : a.over d = d := by
  rw [Leaving.over, hm, hc, mergeLine_zero, and_all, and_all]

/-- A core without registered words of a line supplies nothing. -/
theorem supplied_none (h : wordsAt s core line = 0#128) : (supplied s core line).mask = 0#128 ∧ (supplied s core line).clean = 0#128 := by
  unfold supplied
  simp only [h]
  generalize hf : List.foldl _ _ _ = flown
  have hflown : flown.mask = 0#128 ∧ flown.clean = 0#128 := by
    rw [← hf]
    refine List.foldlRecOn (motive := fun a : Leaving => a.mask = 0#128 ∧ a.clean = 0#128) _ _ ⟨rfl, rfl⟩ fun a ha t _ => ?_
    split
    · split <;> simp [ha]
    · exact ha
  split <;> simp [hflown]

/-- The read of a line that nobody has registered gives the home's bytes. -/
theorem replyLine_none (hr : Hbm (line * 128)) (h : ∀ e ∈ s.m.firn, e.line ≠ line) (r : Req) (by_ : Nat) :
    replyLine s ⟨line, core, r, by_, [], [], 0, 0, 0⟩ = homeLine s line := by
  have hf : firnOf s line = [] := List.filter_eq_nil_iff.2 fun e he => by simpa using h e he
  have hs := supplied_none (s := s) (core := core) (line := line) (by rw [wordsAt, hf]; rfl)
  rw [replyLine, hr.removed, if_neg (by decide), over_nothing hs.1 hs.2]
  exact over_nothing (a := ⟨0, 0, 0⟩) rfl rfl _

/-- A read is answered with the home's bytes. -/
theorem finishReq_read (hr : Hbm (line * 128)) (h : ∀ e ∈ s.m.firn, e.line ≠ line) (id part by_ : Nat) :
    finishReq s ⟨line, core, .read id part, by_, [], [], 0, 0, 0⟩ = sendCore s core line (.fill id (homeLine s line)) := by
  have hf (fence : Nat) (k : Bool) : freshHostLine s line fence k = s := by
    rw [freshHostLine, hr.region]
  unfold finishReq
  simp only [hf, replyLine_none hr h]

/-- Bytes as a number, byte by byte. -/
theorem ofBytes_map_range (f : Nat → Byte) (n : Nat) :
    ofBytes ((List.range n).map f) = ((List.range n).map (fun k => (f k).toNat * 2 ^ (8 * k))).sum := by
  induction n generalizing f with
  | zero => rfl
  | succ n ih =>
    have hmul : (List.range n).map (fun k => (f (k + 1)).toNat * 2 ^ (8 * (k + 1))) =
        (List.range n).map (fun k => 256 * ((f (k + 1)).toNat * 2 ^ (8 * k))) :=
      List.map_congr_left fun k _ => by rw [Nat.mul_succ, Nat.pow_add]; ring
    simp only [List.range_succ_eq_map, List.map_cons, List.map_map, ofBytes, List.sum_cons, Function.comp_def, Nat.succ_eq_add_one]
    rw [ih (fun k => f (k + 1)), hmul, List.sum_map_mul_left]
    simp

/-- A byte of the number that some bytes are. -/
theorem byte_of_ofBytes (f : Nat → Byte) {n k : Nat} (h : k < n) : BitVec.ofNat 8 (ofBytes ((List.range n).map f) / 2 ^ (8 * k)) = f k := by
  apply BitVec.eq_of_toNat_eq
  rw [BitVec.toNat_ofNat, ofBytes_digit]
  simp [List.getD_eq_getElem?_getD, h]

/-- No byte of a line that is neither poisoned nor lost is bad. -/
theorem badByte_none {d : LineData} {off n : Nat} (hp : ∀ k, k < n → d.poison.getLsbD (off + k) = false)
    (hl : ∀ k, k < n → d.lost.getLsbD (off + k) = false) : badByte d off n = none := by
  have hf (m : ByteMask) (h : ∀ k, k < n → m.getLsbD (off + k) = false) : (List.range n).find? (fun k => m.getLsbD (off + k)) = none :=
    List.find?_eq_none.2 fun k hk => by simp [h k (List.mem_range.1 hk)]
  rw [badByte, hf _ hp, hf _ hl]
  rfl

/-- An element of a line written at its home. -/
theorem memByte_homeWrite_element {addr size : Nat} (hwf : Memory.wf s.m.mem = true) (hr : Hbm (line * 128)) (ha : addr / 128 = line)
    (hs : addr % 128 + size ≤ 128) (v : Nat) (clean : ByteMask) (whos : List Who) (a : Nat) :
    memByte (homeWrite s line (maskRange (addr % 128) size) (bytesAsLine (addr % 128) (toBytes size v)) clean whos).m.mem a =
      if addr ≤ a ∧ a < addr + size then BitVec.ofNat 8 (v / 2 ^ (8 * (a - addr))) else memByte s.m.mem a := by
  rw [mem_homeWrite hr, memByte_memMerge hwf]
  simp only [getLsbD_maskRange hs]
  by_cases h : addr ≤ a ∧ a < addr + size
  · rw [if_pos h, if_pos (by omega), lineByte_bytesAsLine (by rwa [length_toBytes]) (by omega),
      show a - line * 128 - addr % 128 = a - addr by omega, getD_toBytes v (by omega)]
  · rw [if_neg h, if_neg (by omega)]

/-- An atomic acts on memory, and its core is told the old element. -/
theorem finishReq_atom {op : HomeOp} (hwf : Memory.wf s.m.mem = true) (hr : Hbm (line * 128)) (hn : windowAt s (line * 128) = none)
    (hlost : ∀ l ∈ s.m.lost, l / 32 ≠ line) (hpoison : line ∉ s.m.poison ∨ op.op = 9) (ha : op.addr / 128 = line)
    (hs : op.addr % 128 + op.size ≤ 128) (w : Who) (by_ : Nat) {old : Nat}
    (ho : old = ((List.range op.size).map (fun k => (memByte s.m.mem (op.addr + k)).toNat * 2 ^ (8 * k))).sum) :
    ∃ u, finishReq s ⟨line, core, .atom op w, by_, [], [], 0, 0, 0⟩ =
        sendCore u core line (.atomDone w op.lane (BitVec.ofNat 64 old) (atomicNew op old).2) ∧ u.m.toCore = s.m.toCore ∧
      (∀ k, k < op.size → memByte u.m.mem (op.addr + k) = BitVec.ofNat 8 (((atomicNew op old).1).getD old / 2 ^ (8 * k))) ∧
      ∀ a, a < op.addr ∨ op.addr + op.size ≤ a → memByte u.m.mem a = memByte s.m.mem a := by
  obtain ⟨hline, -⟩ := homeLine_hbm (s := s) hr
  rw [← ofBytes_map_range] at ho
  have hbad : (if op.op = 9 then none else badByte (homeLine s line) (op.addr % 128) op.size) = none := by
    split
    · rfl
    next h9 =>
      refine badByte_none (fun k hk => ?_) fun k hk => ?_
      · obtain ⟨-, hp, -⟩ := hline (op.addr % 128 + k) (by omega)
        simpa [hp, h9] using hpoison
      · obtain ⟨-, -, hl⟩ := hline (op.addr % 128 + k) (by omega)
        rw [hl]
        simpa using fun hm => hlost _ hm (by omega)
  have hold : ofBytes (lineBytes (homeLine s line).bytes (op.addr % 128) op.size) = old := by
    refine (congrArg ofBytes (List.map_congr_left fun k hk => ?_)).trans ho.symm
    obtain ⟨hb, -⟩ := hline (op.addr % 128 + k) (by have := List.mem_range.1 hk; omega)
    rw [hb, show line * 128 + (op.addr % 128 + k) = op.addr + k by omega]
  unfold finishReq
  simp only [hbad, hold]
  cases hv : (atomicNew op old).1 with
  | none =>
    refine ⟨_, rfl, ?_⟩
    simp only [markWritten_none hn]
    refine ⟨rfl, fun k hk => ?_, fun a _ => rfl⟩
    rw [Option.getD_none, ho]
    exact (byte_of_ofBytes (fun k => memByte s.m.mem (op.addr + k)) hk).symm
  | some v =>
    refine ⟨_, rfl, ?_, fun k hk => ?_, fun a hout => ?_⟩
    · exact (State.eq_of_links (links_homeWrite hr _ _ _ _)).2.2.2.1
    · refine (memByte_homeWrite_element hwf hr ha hs v _ _ _).trans ?_
      rw [if_pos (by omega), Nat.add_sub_cancel_left]
      rfl
    · exact (memByte_homeWrite_element hwf hr ha hs v _ _ _).trans (if_neg (by omega))

end Sys2Proof.Machine
end

section
/-! # What a core does with its home's messages (04 R85 to R88, R95, R96) -/

namespace Sys2Proof.Machine

variable {s : State} {line core : Nat} {x : L1Line}

/-! ## Grants -/

/-- The bytes that a grant brings from memory: asked for without a store, still the core's, and not on their way home. -/
def grantFetch (s : State) (x : L1Line) (p : PendStore) : ByteMask :=
  p.ask &&& ~~~p.mask &&& ~~~x.reg &&& (firnOf s x.line).foldl (fun m e => if e.core = x.core then m ||| e.mask else m) 0#128 &&&
    ~~~inFlight s x.core x.line

theorem getLsbD_grantFetch (s : State) (x : L1Line) (p : PendStore) {i : Nat} (hi : i < 128) : (grantFetch s x p).getLsbD i =
    (p.ask.getLsbD i && !p.mask.getLsbD i && !x.reg.getLsbD i &&
      s.m.firn.any (fun e => e.core == x.core && e.line == x.line && e.mask.getLsbD i) && !(inFlight s x.core x.line).getLsbD i) := by
  have hany : ((firnOf s x.line).any fun e => decide (e.core = x.core) && e.mask.getLsbD i) =
      s.m.firn.any (fun e => e.core == x.core && e.line == x.line && e.mask.getLsbD i) := by
    rw [firnOf, List.any_filter]
    refine congrArg s.m.firn.any (funext fun e => ?_)
    rw [Bool.and_left_comm, Bool.and_assoc]
    rfl
  simp only [grantFetch, BitVec.getLsbD_and, BitVec.getLsbD_not, getLsbD_foldl_or, BitVec.getLsbD_zero, Bool.false_or, hany, hi,
    decide_true, Bool.true_and]

/-- The line of an L1 once its oldest store is granted. -/
def granted (s : State) (x : L1Line) (p : PendStore) (rest : List PendStore) : L1Line :=
  let fetch := grantFetch s x p
  let h := homeLine s x.line
  { x with
    data := mergeLine (mergeLine x.data p.data p.mask) h.bytes fetch
    reg := x.reg ||| p.mask ||| fetch
    valid := x.valid &&& ~~~(x.reg ||| p.mask ||| fetch)
    pend := rest
    poison := (x.poison &&& ~~~(p.mask ||| fetch)) ||| (h.poison &&& fetch)
    lost := (x.lost &&& ~~~fullMask p.mask) ||| (h.lost &&& wordsOf (p.mask ||| fetch) &&& ~~~fullMask p.mask &&& ~~~wordsOf x.reg) }

theorem takeGrant_oldest (hx : l1Find s core line = some x) {p : PendStore} {rest : List PendStore} (hp : x.pend = p :: rest) (w : Who) :
    takeGrant s core line w = addOut (l1Put s (granted s x p rest)) w (-1) := by
  obtain ⟨rfl, rfl⟩ := l1Find_key hx
  unfold takeGrant
  simp only [hx, hp]
  rfl

/-- The oldest store of a line is performed, and the bytes asked for without a store come from memory. -/
theorem granted_bytes (hr : Hbm (x.line * 128)) (p : PendStore) (rest : List PendStore) {i : Nat} (hi : i < 128) :
    (granted s x p rest).reg.getLsbD i = (x.reg.getLsbD i || p.mask.getLsbD i || (grantFetch s x p).getLsbD i) ∧
      lineByte (granted s x p rest).data i = if (grantFetch s x p).getLsbD i then memByte s.m.mem (x.line * 128 + i)
        else if p.mask.getLsbD i then lineByte p.data i else lineByte x.data i := by
  obtain ⟨hline, -⟩ := homeLine_hbm (s := s) hr
  simp only [granted, BitVec.getLsbD_or, lineByte_mergeLine, (hline i hi).1, true_and]

/-! ## Words that a core gives up -/

/-- Bytes of stores under way that stay: their word is registered and not given up, though its unit is. -/
def staying (x : L1Line) (words : ByteMask) : ByteMask := x.pendMask &&& (unitsOf words &&& ~~~words &&& wordsOf x.reg)

section
variable (x) {words : ByteMask} {i : Nat}

/-- Of the words given up, every byte of the core's own leaves. -/
theorem leave_word (h : words.getLsbD i = true) : (x.leave words).1.mask.getLsbD i = (x.reg.getLsbD i || x.pendMask.getLsbD i) ∧
    (staying x words).getLsbD i = false := by
  simp [L1Line.leave, staying, h, getLsbD_unitsOf_of h, decide_eq_true (getLsbD_lt h)]

/-- Outside their units nothing leaves. -/
theorem leave_outside (h : (unitsOf words).getLsbD i = false) : (x.leave words).1.mask.getLsbD i = false ∧
    (staying x words).getLsbD i = false := by
  have hw : words.getLsbD i = false := by
    by_contra hc
    rw [getLsbD_unitsOf_of (by simpa using hc)] at h
    cases h
  simp [L1Line.leave, staying, h, hw]

theorem leave_reg (hi : i < 128) : (x.leave words).2.reg.getLsbD i = ((x.reg.getLsbD i && !words.getLsbD i) || (staying x words).getLsbD i) := by
  simp [L1Line.leave, staying, hi]

theorem leave_valid (hi : i < 128) : (x.leave words).2.valid.getLsbD i =
    ((x.valid.getLsbD i || (x.leave words).1.mask.getLsbD i) && !(staying x words).getLsbD i) := by
  simp [L1Line.leave, staying, hi]

theorem leave_pend : (x.leave words).2.pend = dropPend x.pend ((x.leave words).1.mask ||| staying x words) := rfl

theorem leave_pendMask : (x.leave words).2.pendMask.getLsbD i =
    (x.pendMask.getLsbD i && !((x.leave words).1.mask.getLsbD i || (staying x words).getLsbD i)) := by
  rw [getLsbD_pendMask, getLsbD_pendMask, leave_pend, any_dropPend, BitVec.getLsbD_or]

/-- What the core's loads see of the line does not change. -/
theorem leave_view : lineByte (x.leave words).2.view i = lineByte x.view i := by
  have hd : lineByte (x.leave words).2.data i =
      if ((x.leave words).1.mask ||| staying x words).getLsbD i then lineByte x.view i else lineByte x.data i := lineByte_mergeLine ..
  rw [lineByte_view, leave_pend, stored_dropPend, hd]
  split
  · rfl
  · rw [lineByte_view]

end

/-- The line of an L1 that has given up words. -/
def gaveUp (x : L1Line) (words : ByteMask) : L1Line := { (x.leave words).2 with pulled := (pulledElems x.pulled words).2 }

/-- A core gives up words: its line, and what that leaves alone. -/
theorem giveUp_some (hx : l1Find s core line = some x) (words : ByteMask) :
    (giveUp s core line words).1 = (x.leave words).1 ∧ (giveUp s core line words).2.m.l1 = (l1Put s (gaveUp x words)).m.l1 ∧
      (giveUp s core line words).2.m.mem = s.m.mem ∧ (giveUp s core line words).2.m.toSlice = s.m.toSlice := by
  have hb (u : State) (n : Nat) : (bumpPred u core line n).m = u.m := by
    unfold bumpPred; split <;> rfl
  unfold giveUp
  simp only [hx]
  refine ⟨trivial, ?_, ?_, ?_⟩ <;> split <;> simp only [dropVisitor, settleReplies, overtake, State.modM_m, hb] <;> rfl

/-! ## Replies of reads -/

/-- The line of an L1 with a reply as its read copy. -/
def installed (x : L1Line) (d : LineData) : L1Line :=
  { x with
    data := mergeLine d.bytes x.data x.own
    valid := ~~~x.own
    poison := (d.poison &&& ~~~x.own) ||| (x.poison &&& x.own)
    lost := (d.lost &&& ~~~x.own) ||| (x.lost &&& x.own) }

theorem installFill_some (hx : l1Find s core line = some x) (by_ : Nat) (d : LineData) :
    installFill s core line by_ d = l1Put s (installed x d) := by
  have hroom : l1HasRoom s core line = true := by simp [l1HasRoom, hx]
  have htake : l1Take s core line by_ = (x, s) := by rw [l1Take, hx]
  rw [installFill, if_pos hroom, htake]
  rfl

/-- A reply lies under the core's own bytes. -/
theorem lineByte_installed (d : LineData) (i : Nat) :
    lineByte (installed x d).view i = if x.own.getLsbD i then lineByte x.view i else lineByte d.bytes i := by
  have hdata : lineByte (installed x d).data i = if x.own.getLsbD i then lineByte x.data i else lineByte d.bytes i := lineByte_mergeLine ..
  rw [lineByte_view, hdata, lineByte_view]
  cases hp : x.pend.any (fun p => p.mask.getLsbD i)
  · rw [show (installed x d).pend = x.pend from rfl, stored_none hp, stored_none hp]
  · have ho : x.own.getLsbD i = true := by rw [getLsbD_own, getLsbD_pendMask, hp, Bool.or_true]
    rw [if_pos ho, if_pos ho]
    rfl

/-- Every byte of a line with a reply is a byte of the core's own or of the read copy. -/
theorem used_installed (d : LineData) : (installed x d).used = true := by
  by_cases hp : x.pend = []
  · by_cases hr : x.reg.getLsbD 0 = true
    · exact used_of_reg (x := installed x d) hr
    · refine used_of_valid (x := installed x d) (i := 0) ?_
      simp only [installed, BitVec.getLsbD_not, getLsbD_own, getLsbD_pendMask, hp, List.any_nil]
      simpa using hr
  · exact used_of_pend (x := installed x d) hp

/-- A reply that fills no visitor copy waits for no way. -/
theorem visits_not {f : Fill} (h : homeDie s f.line = coreDie f.core ∨ f.novis = true) (d : LineData) : visits s f d = false := by
  obtain h | h := h <;> simp [visits, h]

/-- It may end what is older at its die, and changes no fill but for that. -/
theorem fillVisit_not {f : Fill} (h : homeDie s f.line = coreDie f.core ∨ f.novis = true) (d : LineData) :
    ∃ l2 fills, fillVisit s f d = s.modM (fun m => { m with l2 := l2, fills := fills }) ∧ ∀ y ∈ fills, ∃ z ∈ s.m.fills, y.id = z.id := by
  unfold fillVisit
  split
  · exact ⟨s.m.l2, s.m.fills, rfl, fun y hy => ⟨y, hy, rfl⟩⟩
  · simp only [visits_not h, Bool.false_eq_true, if_false]
    refine ⟨_, _, rfl, fun y hy => ?_⟩
    obtain ⟨z, hz, rfl⟩ := List.mem_map.1 hy
    exact ⟨z, hz, by split <;> rfl⟩

/-- A reply that was not overtaken: the loads that wait for it take its bytes, and it becomes the line's read copy. -/
theorem takeFill_installs {f : Fill} {id : Nat} (hx : l1Find s core line = some x) (hf : s.m.fills.find? (fun f => f.id == id) = some f)
    (htfu : f.tfu = none) (hover : f.overtaken = false) (hsamp : f.samp = none)
    (h : homeDie s f.line = coreDie f.core ∨ f.novis = true) (d : LineData) :
    ∃ stands l2 fills, takeFill s core line id d =
        l1Put ({ s with stands := stands }.modM (fun m => { m with l2 := l2, fills := fills })) (installed x d) ∧
      ∀ y ∈ fills, y.id ≠ id := by
  let u : State := { s.modM (fun m => { m with fills := m.fills.filter (fun y => y.id ≠ id) }) with
    stands := s.stands.map (fun st => { st with groves := st.groves.map (·.takeLine id line (ownOver s core line d)) }) }
  obtain ⟨l2, fills, hv, hfills⟩ := fillVisit_not (s := u) (f := f) h d
  refine ⟨u.stands, l2, fills, ?_, fun y hy => ?_⟩
  · unfold takeFill
    simp only [hf, htfu, hover, hsamp]
    exact (congrArg (fun t => installFill t core line f.uid d) hv).trans
      (installFill_some (s := u.modM (fun m => { m with l2 := l2, fills := fills })) (show l1Find _ core line = some x from hx) _ _)
  · obtain ⟨z, hz, he⟩ := hfills y hy
    rw [he]
    simpa using (List.mem_filter.1 hz).2

end Sys2Proof.Machine
end

section
/-! # Answers and write-backs at the home (04 R85, R87, R88, R93) -/

namespace Sys2Proof.Machine

variable {s : State} {line core : Nat}

/-! ## Requests that wait -/

/-- The first of a list that satisfies more, when the first that satisfies less does. -/
theorem find?_and {α : Type} {p q : α → Bool} {l : List α} {x : α} (h : l.find? p = some x) (hq : q x = true) :
    l.find? (fun y => p y && q y) = some x := by
  obtain ⟨hp, as, bs, rfl, has⟩ := List.find?_eq_some_iff_append.1 h
  exact List.find?_eq_some_iff_append.2 ⟨by simp [hp, hq], as, bs, rfl, fun a ha => by have := has a ha; simp_all⟩

/-- A request that still waits for a core or for the host is not served. -/
theorem tryFinish_waits {w : LineWait} (h : s.m.lineWaits.find? (fun w => w.line == line) = some w) (hw : w.need ≠ [] ∨ w.halves ≠ []) :
    tryFinish s line = s := by
  rw [tryFinish, h]
  exact if_neg (by simp only [List.isEmpty_iff]; tauto)

/-- The request that waits for a core, once the core has answered. -/
theorem find?_answered {w : LineWait} {f : LineWait → LineWait} (hf : ∀ w, (f w).line = w.line)
    (h : s.m.lineWaits.find? (fun w => w.line == line) = some w) (hc : core ∈ w.need) :
    (answered s core line f).m.lineWaits.find? (fun w => w.line == line) = some (f { w with need := w.need.erase core }) := by
  have hl : w.line = line := by simpa using List.find?_some h
  simp only [answered, State.modM_m, List.find?_map]
  have hp : (fun w : LineWait => w.line == line) ∘ (fun w => if w.line = line ∧ w.need.contains core then
      f { w with need := w.need.erase core } else w) = fun w => w.line == line := by
    funext w
    simp only [Function.comp_apply]
    split
    · rw [hf]
    · rfl
  rw [hp, h, Option.map_some, if_pos ⟨hl, by simpa using hc⟩]

/-! ## Words that come home -/

/-- The words of a line that has one registrant. -/
theorem wordsAt_one {e : FirnEntry} (h : s.m.firn.filter (fun e => e.line == line) = [e]) (hc : e.core = core) :
    wordsAt s core line = wordsOf e.mask := by
  rw [wordsAt, firnOf, h, List.foldl_cons, List.foldl_nil, if_pos hc, BitVec.zero_or]

/-- What is left of a line's only entry names none of the words that were taken from it. -/
theorem firnRemove_one {e : FirnEntry} (h : s.m.firn.filter (fun e => e.line == line) = [e]) (hc : e.core = core) (words : ByteMask) :
    ∀ f ∈ (firnRemove s core line words).m.firn, f.line = line → f.mask &&& words = 0#128 := by
  intro f hf hl
  obtain ⟨g, hg, rfl⟩ := List.mem_map.1 (List.mem_filter.1 hf).1
  have hline : g.line = line := by split at hl <;> exact hl
  have hge : g = e := by
    have : g ∈ s.m.firn.filter (fun e => e.line == line) := List.mem_filter.2 ⟨hg, by simpa using hline⟩
    simpa [h] using this
  rw [if_pos ⟨hge ▸ hc, hline⟩]
  exact and_eq_zero_iff.2 fun i hi => by
    rw [BitVec.getLsbD_and, BitVec.getLsbD_not] at hi
    simp_all only [Bool.and_eq_true, Bool.not_eq_true']

/-- Entries only lose bytes. -/
theorem firnRemove_less {m : ByteMask} (h : ∀ f ∈ s.m.firn, f.line = line → f.mask &&& m = 0#128) (c l : Nat) (words : ByteMask) :
    ∀ f ∈ (firnRemove s c l words).m.firn, f.line = line → f.mask &&& m = 0#128 := by
  intro f hf hl
  obtain ⟨g, hg, rfl⟩ := List.mem_map.1 (List.mem_filter.1 hf).1
  split at hl
  · rw [if_pos ‹_›]
    have := and_eq_zero_iff.1 (h g hg hl)
    exact and_eq_zero_iff.2 fun i hi => this i (by simp_all)
  · rw [if_neg ‹_›]
    exact h g hg hl

/-- A write of the words that their core holds: memory under the mask, the entry without them, all else as before. -/
theorem mergeOwn_one {e : FirnEntry} {mask : ByteMask} (hwf : Memory.wf s.m.mem = true) (hr : Hbm (line * 128))
    (h : s.m.firn.filter (fun e => e.line == line) = [e]) (hc : e.core = core) (hm : mask &&& ~~~wordsOf e.mask = 0#128)
    (bytes : LineBits) (clean : ByteMask) :
    ∃ u, mergeOwn s core line mask bytes clean = firnRemove u core line (wordsOf mask) ∧ u.links = s.links ∧
      ∀ a, memByte u.m.mem a = if line * 128 ≤ a ∧ mask.getLsbD (a - line * 128) = true then lineByte bytes (a - line * 128)
        else memByte s.m.mem a := by
  have hown : mask &&& wordsAt s core line = mask := by
    rw [wordsAt_one h hc]
    refine byteMask_ext fun i _ => ?_
    have := and_not_eq_zero_iff.1 hm i
    rw [BitVec.getLsbD_and]
    cases hi : mask.getLsbD i <;> simp_all
  unfold mergeOwn
  simp only [hown]
  refine ⟨_, rfl, ?_, fun a => ?_⟩
  · split
    · rfl
    · exact links_homeWrite hr ..
  · split
    next h0 => rw [h0, if_neg (by simp)]
    next => rw [mem_homeWrite hr, memByte_memMerge hwf]

theorem lineWaits_mergeOwn (hr : Hbm (line * 128)) (core : Nat) (mask : ByteMask) (bytes : LineBits) (clean : ByteMask) :
    (mergeOwn s core line mask bytes clean).m.lineWaits = s.m.lineWaits := by
  unfold mergeOwn
  simp only
  split
  · rfl
  · exact (State.eq_of_links (links_homeWrite hr ..)).2.2.2.2.1

/-- Two descriptions of a line of memory under a mask. -/
theorem line_of_memory {m m' : List Cell} {mask : ByteMask} {bytes : LineBits} (h : ∀ a, memByte m' a =
      if line * 128 ≤ a ∧ mask.getLsbD (a - line * 128) = true then lineByte bytes (a - line * 128) else memByte m a) :
    (∀ a, a < line * 128 ∨ line * 128 + 128 ≤ a → memByte m' a = memByte m a) ∧
      ∀ i, i < 128 → memByte m' (line * 128 + i) = if mask.getLsbD i then lineByte bytes i else memByte m (line * 128 + i) := by
  refine ⟨fun a ha => ?_, fun i _ => ?_⟩
  · rw [h, if_neg]
    rintro ⟨h1, h2⟩
    have := getLsbD_lt h2
    omega
  · rw [h, Nat.add_sub_cancel_left]
    simp

/-! ## DATA and WB -/

/-- A waiting request with the bytes of an answer. -/
def keepAnswer (mask : ByteMask) (bs : LineBits) (clean : ByteMask) (w : LineWait) : LineWait :=
  { w with
    acc := mergeLine w.acc bs mask
    accMask := w.accMask ||| mask
    clean := (w.clean &&& ~~~wordsOf mask) ||| (clean &&& wordsOf mask) }

/-- An answer to a forwarded read is kept for the reply. -/
theorem takeData_forwarded {m : ToSlice} {mask : ByteMask} {bs : LineBits} {clean : ByteMask} {lw : LineWait}
    (hreq : m.req = .data true mask bs clean) (h : s.m.lineWaits.find? (fun w => w.line == m.line) = some lw) (hc : m.core ∈ lw.need)
    (hn : lw.need.erase m.core ≠ []) :
    takeData s m = answered (dropUp s m) m.core m.line (keepAnswer mask bs clean) ∧
      (answered (dropUp s m) m.core m.line (keepAnswer mask bs clean)).m.lineWaits.find? (fun w => w.line == m.line) =
        some (keepAnswer mask bs clean { lw with need := lw.need.erase m.core }) := by
  have hfind := find?_answered (s := dropUp s m) (f := keepAnswer mask bs clean) (fun _ => rfl) h hc
  refine ⟨?_, hfind⟩
  unfold takeData
  simp only [hreq]
  exact tryFinish_waits hfind (.inl hn)

/-- An answer to a recall: the words come into memory, and its request waits for what else it needs. -/
theorem takeData_recalled {m : ToSlice} (hr : Hbm (m.line * 128)) {mask : ByteMask} {bs : LineBits} {clean : ByteMask} {lw : LineWait} {e : FirnEntry}
    (hreq : m.req = .data false mask bs clean) (h : s.m.lineWaits.find? (fun w => w.line == m.line) = some lw) (hc : m.core ∈ lw.need)
    (he : s.m.firn.filter (fun e => e.line == m.line) = [e]) (hec : e.core = m.core) (hm : mask &&& ~~~wordsOf e.mask = 0#128)
    (hall : wordsOf lw.req.mask &&& wordsOf e.mask &&& ~~~wordsOf mask = 0#128) (hn : lw.need.erase m.core ≠ [] ∨ lw.halves ≠ []) :
    ∃ words, let t := answered (firnRemove (mergeOwn (dropUp s m) m.core m.line mask bs clean) m.core m.line words) m.core m.line id
      takeData s m = t ∧ t.m.lineWaits.find? (fun w => w.line == m.line) = some { lw with need := lw.need.erase m.core } := by
  have hat : wordsAt s m.core m.line = wordsOf e.mask := wordsAt_one he hec
  have hfind := find?_and (q := fun w => w.need.contains m.core) h (by simpa using hc)
  have hpair : mask &&& ~~~wordsAt (dropUp s m) m.core m.line = 0#128 := by rw [show wordsAt (dropUp s m) m.core m.line = _ from hat]; exact hm
  have hw : (mergeOwn (dropUp s m) m.core m.line mask bs clean).m.lineWaits = s.m.lineWaits := lineWaits_mergeOwn hr ..
  have hfound := find?_answered (s := firnRemove (mergeOwn (dropUp s m) m.core m.line mask bs clean) m.core m.line
    (wordsOf lw.req.mask &&& wordsOf e.mask)) (f := id) (fun _ => rfl) ((congrArg (List.find? (fun w => w.line == m.line)) hw).trans h) hc
  refine ⟨wordsOf lw.req.mask &&& wordsOf e.mask, ?_, hfound⟩
  unfold takeData
  simp only [hreq, hfind, hat, mergeWords, hpair, mergePair, if_true, hall, loseWords]
  exact tryFinish_waits hfound hn

/-- The acknowledgement of a write-back of an HBM line. -/
theorem ackWb_hbm (hr : Hbm (line * 128)) (core : Nat) (ws : List Who) : ackWb s core line ws =
    s.modM (fun k => { k with toCore := k.toCore ++ if ws = [] then [] else [⟨core, line, .wbAck ws⟩] }) := by
  cases ws with
  | nil => simp [ackWb, State.modM]
  | cons w ws =>
    rw [ackWb, hr.region]
    rfl

end Sys2Proof.Machine
end

section
/-! # A core that is lost (04 R99) -/

namespace Sys2Proof.Machine

/-! ## What homes' operations do to what cores hold and to lost words -/

/-- A core has no registration, no L1 line and no fill under way. -/
def Absent (s : State) (core : Nat) : Prop :=
  (∀ e ∈ s.m.firn, e.core ≠ core) ∧ (∀ y ∈ s.m.l1, y.core ≠ core) ∧ ∀ f ∈ s.m.fills, f.core ≠ core

/-- A word is marked lost, or its line is poisoned. -/
def Marked (s : State) (w : Nat) : Prop := w ∈ s.m.lost ∨ w / 32 ∈ s.m.poison

/-- A line of a serac group that is resident. -/
def Grouped (s : State) (line : Nat) : Prop := ∃ g ∈ s.m.groups, line ∈ groupLines (s.d.windows.getD g.win Window.reset) g.base

/-- Nothing comes to a core that has nothing, a quarantined core stays so, no request begins to wait, groups only leave, and
outside the lines of `X` no word loses its mark. -/
structure Dwindles (X : Nat → Prop) (s t : State) : Prop where
  windows : t.d.windows = s.d.windows
  quarantined : ∀ c, (s.d.core c).quarantined = true → (t.d.core c).quarantined = true
  waits : s.m.lineWaits = [] → t.m.lineWaits = []
  absent : ∀ c, Absent s c → Absent t c
  groups : ∀ g ∈ t.m.groups, ∃ h ∈ s.m.groups, h.win = g.win ∧ h.base = g.base
  marked : ∀ w, ¬ X (w / 32) → Marked s w → Marked t w

section
variable {X Y : Nat → Prop} {s t u : State}

theorem Dwindles.refl (X : Nat → Prop) (s : State) : Dwindles X s s :=
  ⟨rfl, fun _ h => h, fun h => h, fun _ h => h, fun g h => ⟨g, h, rfl, rfl⟩, fun _ _ h => h⟩

theorem Dwindles.trans (h : Dwindles X s t) (h' : Dwindles X t u) : Dwindles X s u where
  windows := h'.windows.trans h.windows
  quarantined c hc := h'.quarantined c (h.quarantined c hc)
  waits hs := h'.waits (h.waits hs)
  absent c hc := h'.absent c (h.absent c hc)
  groups g hg := by
    obtain ⟨k, hk, hw, hb⟩ := h'.groups g hg
    obtain ⟨j, hj, hw', hb'⟩ := h.groups k hk
    exact ⟨j, hj, hw'.trans hw, hb'.trans hb⟩
  marked w hX hw := h'.marked w hX (h.marked w hX hw)

theorem Dwindles.mono (h : Dwindles X s t) (hXY : ∀ l, X l → Y l) : Dwindles Y s t :=
  { h with marked := fun w hY => h.marked w fun hX => hY (hXY _ hX) }

theorem Dwindles.grouped (h : Dwindles X s t) {line : Nat} (hg : Grouped t line) : Grouped s line := by
  obtain ⟨g, hg, hl⟩ := hg
  obtain ⟨k, hk, hw, hb⟩ := h.groups g hg
  exact ⟨k, hk, by rw [hw, hb, ← h.windows]; exact hl⟩

theorem Dwindles.foldl {α : Type} {f : State → α → State} {l : List α} (h : ∀ s, ∀ x ∈ l, Dwindles X s (f s x)) (s : State) :
    Dwindles X s (l.foldl f s) := by
  induction l generalizing s with
  | nil => exact .refl X s
  | cons x l ih => exact (h s x List.mem_cons_self).trans (ih (fun s y hy => h s y (List.mem_cons_of_mem x hy)) _)

theorem Dwindles.ite {c : Prop} [Decidable c] (ht : Dwindles X s t) (hu : Dwindles X s u) : Dwindles X s (if c then t else u) := by
  split <;> assumption

/-- What cores hold, and the marks. -/
def State.holdings (s : State) : List Window × List Core × List LineWait × List FirnEntry × List L1Line × List Fill × List Group × List Nat × List Nat :=
  (s.d.windows, s.d.cores, s.m.lineWaits, s.m.firn, s.m.l1, s.m.fills, s.m.groups, s.m.lost, s.m.poison)

theorem Dwindles.of_holdings (h : t.holdings = s.holdings) : Dwindles X s t := by
  obtain ⟨hw, hc, hl, hf, hl1, hfi, hg, hlo, hp⟩ := by simpa [State.holdings] using h
  refine ⟨hw, fun c => ?_, fun h => hl.trans h, fun c => ?_, fun g hg' => ⟨g, hg ▸ hg', rfl, rfl⟩, fun w _ => ?_⟩
  · rw [Dev.core, Dev.core, hc]; exact id
  · rw [Absent, Absent, hf, hl1, hfi]; exact id
  · rw [Marked, Marked, hlo, hp]; exact id

theorem holdings_foldl {α : Type} {f : State → α → State} (h : ∀ s x, (f s x).holdings = s.holdings) (l : List α) (s : State) :
    (l.foldl f s).holdings = s.holdings := by
  induction l generalizing s with
  | nil => rfl
  | cons x l ih => exact (ih _).trans (h s x)

end

/-! ### Memory -/

section
variable (X : Nat → Prop) (s : State) (line : Nat)

theorem holdings_openRow : (openRow s line).holdings = s.holdings := by
  simp only [openRow]; split <;> rfl

theorem holdings_memWrite : (memWrite s line).holdings = s.holdings := by
  unfold memWrite
  split
  · exact holdings_openRow s line
  · exact holdings_openRow s line
  all_goals rfl

theorem holdings_markDirty : (markDirty s line).holdings = s.holdings := by
  unfold markDirty
  split
  · rfl
  · exact holdings_memWrite s line

theorem holdings_storeAliasElem (w : Window) (k v : Nat) : (storeAliasElem s w k v).holdings = s.holdings := by
  simp only [storeAliasElem]; split <;> rfl

/-- A change of the marks that keeps those outside `X`. -/
theorem Dwindles.of_marks {X : Nat → Prop} {s : State} {l p : List Nat} (hl : ∀ w ∈ s.m.lost, ¬ X (w / 32) → w ∈ l ∨ w / 32 ∈ p)
    (hp : ∀ n ∈ s.m.poison, ¬ X n → n ∈ p) : Dwindles X s (s.modM (fun m => { m with lost := l, poison := p })) :=
  ⟨rfl, fun _ h => h, fun h => h, fun _ h => h, fun g h => ⟨g, h, rfl, rfl⟩,
    fun w hX h => h.elim (fun h => hl w h hX) fun h => .inr (hp _ h hX)⟩

theorem dwindles_memRead : Dwindles X s (memRead s line) := by
  have ho := holdings_openRow s line
  rw [memRead]
  refine .ite (Dwindles.trans (.of_holdings ho) (Dwindles.trans (.of_marks (l := (openRow s line).m.lost)
    (p := if (openRow s line).m.poison.contains line then (openRow s line).m.poison else line :: (openRow s line).m.poison)
    (fun w h _ => .inl h) fun n hn _ => ?_) (.of_holdings rfl))) (.of_holdings ho)
  split
  · exact hn
  · exact List.mem_cons_of_mem _ hn

theorem dwindles_poisonLost : Dwindles X s (poisonLost s line) := by
  have hpoison (l : Nat) (hl : l ∈ s.m.poison ∨ l = line) : l ∈ if s.m.poison.contains line then s.m.poison else line :: s.m.poison := by
    by_cases h : line ∈ s.m.poison
    · rw [if_pos (by simpa using h)]
      obtain hl | rfl := hl <;> assumption
    · rw [if_neg (by simpa using h)]
      simpa [or_comm] using hl
  refine .ite (.of_marks (fun w h _ => ?_) fun n h _ => hpoison n (.inl h)) (.refl X s)
  by_cases hw : w / 32 = line
  · exact .inr (hpoison _ (.inr hw))
  · exact .inl (List.mem_filter.2 ⟨h, by simpa using hw⟩)

theorem dwindles_setGroup {s : State} {g h : Group} (hg : h ∈ s.m.groups) (hw : g.win = h.win) (hb : g.base = h.base) : Dwindles X s (setGroup s g) := by
  refine ⟨rfl, fun _ h => h, fun h => h, fun _ h => h, fun k hk => ?_, fun _ _ h => h⟩
  obtain ⟨k', hk', rfl⟩ := List.mem_map.1 hk
  split
  · exact ⟨h, hg, hw.symm, hb.symm⟩
  · exact ⟨k', hk', rfl, rfl⟩

theorem dwindles_writeGroup (w : Window) (mask : ByteMask) (d : LineBits) : Dwindles X s (writeGroup s w line mask d) := by
  unfold writeGroup
  simp only
  split
  · exact .refl X s
  · next g hg => exact .ite (.refl X s) (dwindles_setGroup X (List.mem_of_find?_eq_some hg) rfl rfl)

/-- The lost words that stay lost when words of a line are written. -/
def lostAfter (s : State) (line : Nat) (clean : ByteMask) : List Nat :=
  s.m.lost.filter (fun w => !(w / 32 == line && clean.getLsbD (4 * (w % 32))))

/-- What a write at a home does to the marks: the words that it cleans lose theirs, and a line written whole may lose its poison. -/
theorem homeWrite_marks (mask : ByteMask) (d : LineBits) (clean : ByteMask) (whos : List Who) :
    ∃ p, (p = s.m.poison ∨ mask = ~~~0#128 ∧ p = s.m.poison.filter (· ≠ line)) ∧
      Dwindles X (s.modM (fun m => { m with lost := lostAfter s line clean, poison := p })) (homeWrite s line mask d clean whos) := by
  have hp : (if mask = ~~~0#128 then s.m.poison.filter (· ≠ line) else s.m.poison) = s.m.poison ∨
      mask = ~~~0#128 ∧ (if mask = ~~~0#128 then s.m.poison.filter (· ≠ line) else s.m.poison) = s.m.poison.filter (· ≠ line) := by
    split <;> simp_all
  unfold homeWrite
  simp only
  split
  · refine ⟨_, .inl rfl, ?_⟩
    split
    · exact .refl _ _
    · split
      · exact dwindles_writeGroup X _ line _ mask d
      · exact .trans (.of_holdings (holdings_foldl (fun _ _ => holdings_storeAliasElem ..) _ _))
          (.of_holdings (holdings_foldl holdings_memWrite _ _))
  · exact ⟨_, hp, .of_holdings rfl⟩
  · exact ⟨_, hp, .ite (.of_holdings rfl) (.of_holdings (holdings_markDirty ..))⟩
  · exact ⟨_, hp, .ite (.of_holdings rfl) (.of_holdings (holdings_markDirty ..))⟩
  · exact ⟨_, .inl rfl, .refl _ _⟩
  · exact ⟨_, .inl rfl, .refl _ _⟩

theorem dwindles_homeWrite (mask : ByteMask) (d : LineBits) (clean : ByteMask) (whos : List Who) :
    Dwindles (· = line) s (homeWrite s line mask d clean whos) := by
  obtain ⟨p, hp, h⟩ := homeWrite_marks (· = line) s line mask d clean whos
  refine .trans (.of_marks (fun w hw hX => .inl (List.mem_filter.2 ⟨hw, by simp [hX]⟩)) fun n hn hX => ?_) h
  obtain rfl | ⟨-, rfl⟩ := hp
  · exact hn
  · exact List.mem_filter.2 ⟨hn, by simpa using hX⟩

/-- Of lost words, the bytes at their home. -/
def loseBytes (words : ByteMask) : State :=
  match regionOf s (line * 128) with
  | .host => if inSlice s line then
      s.modM (fun m => { m with hostLines := ⟨line, { homeLine s line with bytes := mergeLine (homeLine s line).bytes 0 words },
        s.m.hostLines.any (fun x => x.line == line && x.k01)⟩ :: m.hostLines.filter (·.line ≠ line) })
    else s
  | .hbm | .tier2 _ | .decoded | .device | .hole => homeWrite s line words 0 0 []

/-- The words of a line that a byte mask names by their first bytes. -/
def namedWords (words : ByteMask) : List Nat := (List.range 32).filter (fun w => words.getLsbD (4 * w))

/-- Lost words, marked and counted. -/
def markLost (words : ByteMask) : State :=
  (s.modM (fun m => { m with
    lost := m.lost ++ ((namedWords words).map (line * 32 + ·)).filter (fun w => !m.lost.contains w)
    lostCnts := spSet 0 m.lostCnts (homeSlice s line)
      (min (spGet 0 m.lostCnts (homeSlice s line) + (namedWords words).length) (2 ^ 32 - 1)) })).modMgmt
    (fun g => { g with lostCnt := min (g.lostCnt + (namedWords words).length) (2 ^ 32 - 1) })

theorem loseWords_eq {words : ByteMask} (h : words ≠ 0#128) : loseWords s line words =
    if inSlice (markLost (loseBytes s line words) line words) line ||
        regionOf (markLost (loseBytes s line words) line words) (line * 128) == .decoded
    then markLost (loseBytes s line words) line words else poisonLost (markLost (loseBytes s line words) line words) line := if_neg h

theorem loseBytes_marks (words : ByteMask) : ∃ p, (p = s.m.poison ∨ words = ~~~0#128 ∧ p = s.m.poison.filter (· ≠ line)) ∧
    Dwindles X (s.modM (fun m => { m with poison := p })) (loseBytes s line words) := by
  have hlost : lostAfter s line 0 = s.m.lost := List.filter_eq_self.2 fun w _ => by simp
  have hmarks := homeWrite_marks X s line words 0 0 []
  rw [hlost] at hmarks
  unfold loseBytes
  split
  · exact ⟨s.m.poison, .inl rfl, .ite (.of_holdings rfl) (.refl X s)⟩
  all_goals exact hmarks

theorem mem_lost_markLost {w : Nat} {words : ByteMask} : w ∈ (markLost s line words).m.lost ↔
    w ∈ s.m.lost ∨ ∃ i, i < 32 ∧ words.getLsbD (4 * i) = true ∧ w = line * 32 + i := by
  simp only [markLost, State.modMgmt_m, State.modM_m, List.mem_append, List.mem_filter, List.mem_map, namedWords, List.mem_range]
  constructor
  · rintro (h | ⟨⟨i, ⟨hi, hw⟩, rfl⟩, -⟩)
    · exact .inl h
    · exact .inr ⟨i, hi, hw, rfl⟩
  · rintro (h | ⟨i, hi, hw, rfl⟩)
    · exact .inl h
    · by_cases h : line * 32 + i ∈ s.m.lost
      · exact .inl h
      · exact .inr ⟨⟨i, ⟨hi, hw⟩, rfl⟩, by simpa using h⟩

theorem dwindles_markLost (words : ByteMask) : Dwindles X s (markLost s line words) :=
  .trans (.of_marks (l := (markLost s line words).m.lost) (p := s.m.poison) (fun _ h _ => .inl ((mem_lost_markLost s line).2 (.inl h))) fun _ h _ => h)
    (.of_holdings rfl)

/-- Words that become lost are marked, and no word loses its mark. -/
theorem dwindles_loseWords (words : ByteMask) : Dwindles X s (loseWords s line words) ∧
    ∀ i, i < 32 → words.getLsbD (4 * i) = true → Marked (loseWords s line words) (line * 32 + i) := by
  by_cases hz : words = 0#128
  · exact ⟨by rw [loseWords, if_pos hz]; exact .refl X s, fun i _ h => by rw [hz] at h; simp at h⟩
  have hlast (Z : Nat → Prop) : Dwindles Z (markLost (loseBytes s line words) line words) (loseWords s line words) := by
    rw [loseWords_eq s line hz]
    exact .ite (.refl Z _) (dwindles_poisonLost Z _ line)
  have hmarked (i : Nat) (hi : i < 32) (h : words.getLsbD (4 * i) = true) : Marked (loseWords s line words) (line * 32 + i) :=
    (hlast (fun _ => False)).marked _ id (.inl ((mem_lost_markLost _ line).2 (.inr ⟨i, hi, h, rfl⟩)))
  refine ⟨?_, hmarked⟩
  obtain ⟨p, hp, hu⟩ := loseBytes_marks X s line words
  have ht := (hu.trans (dwindles_markLost X _ line words)).trans (hlast X)
  refine ⟨ht.windows, ht.quarantined, ht.waits, ht.absent, ht.groups, fun w hX hw => ?_⟩
  obtain rfl | ⟨hall, rfl⟩ := hp
  · exact ht.marked w hX hw
  · by_cases hl : w / 32 = line
    · have := hmarked (w % 32) (Nat.mod_lt _ (by decide)) (by rw [hall, BitVec.getLsbD_not]; simp; omega)
      rwa [show line * 32 + w % 32 = w by omega] at this
    · exact ht.marked w hX (hw.imp id fun h => List.mem_filter.2 ⟨h, by simpa using hl⟩)

/-! ### Recalls and departures -/

theorem dwindles_settleFlight (core : Nat) (words : ByteMask) : Dwindles (· = line) s (settleFlight s core line words) := by
  refine .trans (.foldl (fun u t _ => ?_) s) (.of_holdings rfl)
  refine .ite ?_ (.refl _ u)
  split
  · exact dwindles_homeWrite ..
  · exact dwindles_homeWrite ..
  · exact .refl _ u

theorem dwindles_l1Put {core : Nat} {x y : L1Line} (hy : l1Find s core line = some y) (hx : x.core = y.core) : Dwindles X s (l1Put s x) := by
  refine ⟨rfl, fun _ h => h, fun h => h, fun c ⟨hf, hl, hr⟩ => ⟨hf, fun z hz => ?_, hr⟩, fun g h => ⟨g, h, rfl, rfl⟩, fun _ _ h => h⟩
  have hmem : z = x ∨ z ∈ s.m.l1 := by
    have hz : z ∈ if x.used then x :: s.m.l1.filter (fun y => !(y.core == x.core && y.line == x.line)) else
      s.m.l1.filter (fun y => !(y.core == x.core && y.line == x.line)) := hz
    split at hz
    · exact (List.mem_cons.1 hz).imp id fun h => (List.mem_filter.1 h).1
    · exact .inr (List.mem_filter.1 hz).1
  obtain rfl | hz := hmem
  · rw [hx]; exact hl y (List.mem_of_find?_eq_some hy)
  · exact hl z hz

theorem dwindles_bumpPred (core n : Nat) : Dwindles X s (bumpPred s core line n) := by
  refine .ite (.refl X s) ⟨rfl, fun c h => ?_, fun h => h, fun _ h => h, fun g h => ⟨g, h, rfl, rfl⟩, fun _ _ h => h⟩
  rw [State.core_modCore]
  split
  · next hc => rw [hc.1] at h; exact h
  · exact h

/-- Fills whose lines and cores stay. -/
theorem dwindles_mapFills {s t : State} {f : Fill → Fill} (hf : ∀ x, (f x).core = x.core)
    (h : t.holdings = (s.modM (fun m => { m with fills := m.fills.map f })).holdings) : Dwindles X s t := by
  refine Dwindles.trans (t := s.modM (fun m => { m with fills := m.fills.map f }))
    ⟨rfl, fun _ h => h, fun h => h, fun c ⟨hr, hl, hx⟩ => ⟨hr, hl, fun z hz => ?_⟩, fun g h => ⟨g, h, rfl, rfl⟩, fun _ _ h => h⟩ (.of_holdings h)
  obtain ⟨y, hy, rfl⟩ := List.mem_map.1 hz
  rw [hf]
  exact hx y hy

theorem dwindles_giveUp (core : Nat) (words : ByteMask) : Dwindles X s (giveUp s core line words).2 := by
  unfold giveUp
  split
  · exact .refl X s
  · next x hx =>
    have hput := (dwindles_l1Put X s line hx (x := gaveUp x words) rfl).trans (dwindles_bumpPred X _ line core (pulledElems x.pulled words).1)
    have hover := hput.trans (dwindles_mapFills X (f := fun f => if f.core = core ∧ f.line = line then { f with overtaken := true } else f)
      (fun f => by split <;> rfl) (t := settleReplies (overtake (bumpPred (l1Put s (gaveUp x words)) core line (pulledElems x.pulled words).1) core line) core line
        (x.leave words).1) rfl)
    refine .ite hover (hover.trans (dwindles_mapFills X (f := fun f => if coreDie f.core = coreDie core ∧ f.line = line then { f with novis := true } else f)
      (fun f => by split <;> rfl) rfl))

theorem dwindles_firnRemove (core : Nat) (words : ByteMask) : Dwindles X s (firnRemove s core line words) := by
  refine ⟨rfl, fun _ h => h, fun h => h, fun c ⟨hr, hl, hx⟩ => ⟨fun e he => ?_, hl, hx⟩, fun g h => ⟨g, h, rfl, rfl⟩, fun _ _ h => h⟩
  obtain ⟨e, he', rfl⟩ := List.mem_map.1 (List.mem_filter.1 he).1
  split <;> exact hr e he'

theorem dwindles_recallWords (pick : FirnEntry → ByteMask) : Dwindles (· = line) s (recallWords s line pick) := by
  refine .trans (.foldl (fun u q _ => ?_) s) (.foldl (fun u q _ => ?_) _)
  · exact ((dwindles_settleFlight u line _ _).trans (dwindles_homeWrite ..)).trans (dwindles_loseWords _ _ line _).1
  · exact ((dwindles_giveUp _ u line _ _).trans (dwindles_homeWrite ..)).trans (dwindles_firnRemove ..)

theorem dwindles_recallNow (words : ByteMask) : Dwindles (· = line) s (recallNow s line words) := by
  refine (dwindles_recallWords s line _).trans
    ⟨rfl, fun _ h => h, fun h => ?_, fun _ h => h, fun g h => ⟨g, h, rfl, rfl⟩, fun _ _ h => h⟩
  exact List.map_eq_nil_iff.2 h

theorem dwindles_poisonMore (mem : List Cell) {p : List Nat} (hp : ∀ n ∈ s.m.poison, n ∈ p) :
    Dwindles X s (s.modM (fun m => { m with mem := mem, poison := p })) :=
  .trans (.of_marks (l := s.m.lost) (fun _ h _ => .inl h) fun n hn _ => hp n hn) (.of_holdings rfl)

/-- A group that departs takes marks from its own lines only. -/
theorem dwindles_departNow (base : Nat) : Dwindles (Grouped s) s (departNow s base) := by
  unfold departNow
  split
  · exact .refl _ s
  · next g hg =>
    have hgroup (l : Nat) (hl : l ∈ groupLines (s.d.windows.getD g.win Window.reset) base) : Grouped s l := by
      have hb : g.base = base := by simpa using List.find?_some hg
      exact ⟨g, List.mem_of_find?_eq_some hg, by rw [hb]; exact hl⟩
    extract_lets w lines s1 g1 bb s2
    have h1 : Dwindles (Grouped s) s s1 :=
      .ite (.refl _ s) (.foldl (fun u l hl => (dwindles_recallNow u l _).mono fun k hk => hk ▸ hgroup l hl) s)
    have h2 : Dwindles (Grouped s) s1 s2 := by
      refine .ite (.refl _ s1) (.foldl (fun u j _ => ?_) s1)
      extract_lets i lostAt el els isLost poisoned nf key upd acc code acc2
      have hread : Dwindles (Grouped s) u acc := .foldl (fun u l _ => dwindles_memRead _ u l) u
      have hupd (k n : Nat) (a : State) : Dwindles (Grouped s) a (upd k n a) := .of_holdings rfl
      have hcount : Dwindles (Grouped s) acc acc2 := (hupd 0 1 acc).trans (hupd 2 nf _)
      refine .ite (hread.trans (hupd 1 1 acc)) (.trans ((hread.trans hcount).trans (dwindles_poisonMore _ acc2 _ fun n hn => ?_))
        (.of_holdings (holdings_foldl holdings_memWrite _ _)))
      split
      · exact List.mem_append_left _ hn
      · exact hn
    refine (h1.trans h2).trans ⟨rfl, fun _ h => h, fun h => h, fun _ h => h, fun g h => ⟨g, (List.mem_filter.1 h).1, rfl, rfl⟩,
      fun w hX h => h.imp (fun h => ?_) id⟩
    exact List.mem_filter.2 ⟨h, Bool.not_eq_true' _ ▸ Bool.eq_false_iff.2 fun h => hX (hgroup _ (List.contains_iff_mem.1 h))⟩

theorem dwindles_dropStale (die stamp : Nat) : Dwindles X s (dropStale s die line stamp) :=
  dwindles_mapFills X (f := fun f => if coreDie f.core = die ∧ f.line = line ∧ _ then { f with novis := true } else f)
    (fun f => by split <;> rfl) rfl

theorem dwindles_evictLine (x : L2Line) : Dwindles (Grouped s) s (evictLine s x) := by
  unfold evictLine
  extract_lets u v
  have hu (Z : Nat → Prop) : Dwindles Z s u := .of_holdings rfl
  split
  · exact (hu _).trans (dwindles_dropStale ..)
  · split
    · exact .ite ((hu _).trans ((dwindles_departNow u _).mono fun _ => (hu (fun _ => False)).grouped)) (hu _)
    · have hv : Dwindles (Grouped s) s v := (hu _).trans (.of_holdings rfl)
      exact hv.trans (.trans (.ite (.of_holdings (holdings_memWrite ..)) (.refl _ _)) (dwindles_poisonLost ..))

theorem dwindles_l2Alloc (slice part mark : Nat) (visitor : Option LineData) : Dwindles (Grouped s) s (l2Alloc s slice line part mark visitor) := by
  unfold l2Alloc
  split
  · exact .refl _ s
  · next p _ =>
    have hleave : Dwindles (Grouped s) s (match p.2 with | some v => evictLine s v | none => s) := by
      split
      · exact dwindles_evictLine ..
      · exact .refl _ s
    exact hleave.trans (.of_holdings rfl)

theorem dwindles_l2Access (part mark : Nat) (read : Bool) : Dwindles (Grouped s) s (l2Access s line part mark read) := by
  unfold l2Access
  split
  · exact .of_holdings rfl
  · extract_lets u
    have hu : Dwindles (Grouped s) s u := .foldl (fun u l _ => dwindles_memRead _ u l) s
    exact .ite hu (hu.trans ((dwindles_l2Alloc u line _ _ _ _).mono fun _ => hu.grouped))

/-! ## The core's entries -/

/-- An entry of a core that is lost. -/
def loseEntry (s : State) (e : FirnEntry) : State :=
  loseWords (if homeOpen s e.line e.part then l2Access s e.line e.part 0 false else s) e.line (wordsOf e.mask)

theorem dwindles_loseEntry (e : FirnEntry) : Dwindles (Grouped s) s (loseEntry s e) ∧
    ∀ i, i < 32 → (wordsOf e.mask).getLsbD (4 * i) = true → Marked (loseEntry s e) (e.line * 32 + i) := by
  have hlose (u : State) (Z : Nat → Prop) := dwindles_loseWords Z u e.line (wordsOf e.mask)
  exact ⟨.trans (.ite (dwindles_l2Access ..) (.refl _ s)) (hlose _ _).1, (hlose _ (fun _ => False)).2⟩

/-- Every word of the entries becomes lost, or its line poisoned, unless it is a resident group's. -/
theorem dwindles_loseEntries (es : List FirnEntry) (s : State) : Dwindles (Grouped s) s (es.foldl loseEntry s) ∧
    ∀ e ∈ es, ¬ Grouped s e.line → ∀ i, i < 32 → (wordsOf e.mask).getLsbD (4 * i) = true → Marked (es.foldl loseEntry s) (e.line * 32 + i) := by
  induction es generalizing s with
  | nil => exact ⟨.refl _ s, fun _ h => absurd h List.not_mem_nil⟩
  | cons e es ih =>
    obtain ⟨hhead, hmarked⟩ := dwindles_loseEntry s e
    obtain ⟨htail, hes⟩ := ih (loseEntry s e)
    refine ⟨hhead.trans (htail.mono fun _ => hhead.grouped), fun k hk hg i hi hw => ?_⟩
    obtain rfl | hk := List.mem_cons.1 hk
    · exact htail.marked _ (fun h => hg (hhead.grouped (by rwa [show (k.line * 32 + i) / 32 = k.line by omega] at h))) (hmarked i hi hw)
    · exact hes k hk (fun h => hg (hhead.grouped h)) i hi hw

/-- What a core holds is dropped. -/
def dropCore (s : State) (core : Nat) : State :=
  ((s.m.fills.filter (fun f => f.core == core && f.pin)).foldl (fun s f => unpinLine s f.line) s).modM (fun m => { m with
    firn := m.firn.filter (fun e => e.core ≠ core)
    l1 := m.l1.filter (fun x => x.core ≠ core)
    toSlice := m.toSlice.filter (fun t => t.core ≠ core)
    toCore := m.toCore.filter (fun t => t.core ≠ core)
    fills := m.fills.filter (fun f => f.core ≠ core)
    lineWaits := (m.lineWaits.filter (fun w => w.core ≠ core)).map (fun w => { w with need := w.need.erase core }) })

theorem loseCore_eq (core : Nat) : loseCore s core =
    let u := (s.m.firn.filter (fun e => e.core == core)).foldl loseEntry (dropCore s core)
    (u.m.lineWaits.map (·.line)).foldl tryFinish u := rfl

theorem holdings_dropCore (core : Nat) : (dropCore s core).holdings = (s.modM (fun m => { m with
    firn := m.firn.filter (fun e => e.core ≠ core)
    l1 := m.l1.filter (fun x => x.core ≠ core)
    fills := m.fills.filter (fun f => f.core ≠ core)
    lineWaits := (m.lineWaits.filter (fun w => w.core ≠ core)).map (fun w => { w with need := w.need.erase core }) })).holdings := by
  have h := holdings_foldl (f := fun s (f : Fill) => unpinLine s f.line) (fun _ _ => rfl) (s.m.fills.filter (fun f => f.core == core && f.pin)) s
  simp only [State.holdings, Prod.mk.injEq] at h
  obtain ⟨hw, hc, hl, hf, hl1, hfi, hg, hlo, hp⟩ := h
  simp only [State.holdings, dropCore, State.modM_m, State.modM_d, hw, hc, hl, hf, hl1, hfi, hg, hlo, hp]

/-- With no request that waits, a lost core is gone from the memory system, and its words of no resident group are lost or
their lines poisoned. -/
theorem loseCore_gone (core : Nat) (hw : s.m.lineWaits = []) : Absent (loseCore s core) core ∧
    (∀ c, (s.d.core c).quarantined = true → ((loseCore s core).d.core c).quarantined = true) ∧
      ∀ e ∈ s.m.firn, e.core = core → ¬ Grouped s e.line → ∀ i, i < 32 → (wordsOf e.mask).getLsbD (4 * i) = true →
        Marked (loseCore s core) (e.line * 32 + i) := by
  have h := holdings_dropCore s core
  simp only [State.holdings, Prod.mk.injEq, State.modM_m, State.modM_d] at h
  obtain ⟨hwin, hc, hl, hf, hl1, hfi, hg, -, -⟩ := h
  obtain ⟨hd, hmarked⟩ := dwindles_loseEntries (s.m.firn.filter (fun e => e.core == core)) (dropCore s core)
  have hnone := hd.waits (by rw [hl, hw]; rfl)
  have heq : loseCore s core = (s.m.firn.filter (fun e => e.core == core)).foldl loseEntry (dropCore s core) := by
    rw [loseCore_eq]
    simp only [hnone, List.map_nil, List.foldl_nil]
  have hsub : Grouped (dropCore s core) = Grouped s := by
    unfold Grouped
    rw [hg, hwin]
  rw [heq]
  refine ⟨hd.absent core ⟨?_, ?_, ?_⟩, fun c hq => hd.quarantined c (by rw [Dev.core, hc]; exact hq), fun e he hec hng i hi hw => ?_⟩
  · rw [hf]; exact fun e he => by simpa using (List.mem_filter.1 he).2
  · rw [hl1]; exact fun e he => by simpa using (List.mem_filter.1 he).2
  · rw [hfi]; exact fun e he => by simpa using (List.mem_filter.1 he).2
  · exact hmarked e (List.mem_filter.2 ⟨he, by simpa using hec⟩) (by rw [hsub]; exact hng) i hi hw

end

end Sys2Proof.Machine
end

section
/-! # The registration protocol (04 R83 to R88, R93, R95, R96, R99; 18 R382) -/

namespace Sys2Proof

open Machine

/-! ## Events at a home and at a core -/

theorem AtHome.regTaken {s : State} {m : ToSlice} (h : AtHome s m) {mask : ByteMask} {w : Who} (hr : m.req = .reg mask w) :
    exec (.regTaken m.core m.line) s = .next (takeHead s m) := by
  refine next_eq ?_
  simp only [h.next, hr]
  exact served_atHome h _

theorem AtHome.atomicAtHome {s : State} {m : ToSlice} (h : AtHome s m) {op : HomeOp} {w : Who} (hr : m.req = .atom op w) :
    exec (.atomicAtHome m.core m.line) s = .next (takeHead s m) := by
  refine next_eq ?_
  simp only [h.next, hr]
  exact served_atHome h _

theorem AtHome.homeRead {s : State} {m : ToSlice} (h : AtHome s m) {id part : Nat} (hr : m.req = .read id part) (fails : Bool) :
    exec (.homeRead m.core m.line fails) s =
      .next (takeHead (if fails && homeReady s m.line (reqPart s m) then corruptLine s m.line else s) m) := by
  refine next_eq ?_
  simp only [h.next, hr]
  exact served_atHome h _

theorem AtHome.wbTaken {s : State} {m : ToSlice} (h : AtHome s m) {mask : ByteMask} {bs : LineBits} {clean : ByteMask} {ws : List Who}
    (hr : m.req = .wb mask bs clean ws) : exec (.wbTaken m.core m.line) s =
      .next (if inSlice s m.line || !(memLinesOf s m.line).any (stackHeld s) then takeWb s m else s) := by
  refine next_eq ?_
  simp only [h.next, hr]
  exact served_atHome h _

theorem AtHome.dataAnswer {s : State} {m : ToSlice} (h : AtHome s m) {fwd : Bool} {mask : ByteMask} {bs : LineBits} {clean : ByteMask}
    (hr : m.req = .data fwd mask bs clean) : exec (.dataAnswer m.core m.line) s = .next (takeData s m) := by
  refine next_eq ?_
  simp only [h.next, hr]
  exact served_atHome h _

section
variable {s : State} {core line : Nat}

theorem AtCore.grant {mask : ByteMask} {w : Who} (h : AtCore s core line (.grant mask w)) :
    exec (.grant core line) s = .next (takeGrant (dropDown s ⟨core, line, .grant mask w⟩) core line w) := by
  refine next_eq ?_
  rw [show headDown s core line = _ from h]

theorem AtCore.fwd {words : ByteMask} (h : AtCore s core line (.fwd words)) :
    let x := (l1Find s core line).getD (L1Line.empty core line 0)
    exec (.fwdRead core line) s = .next (sendSlice (dropDown s ⟨core, line, .fwd words⟩) core line
      (.data true (x.reg &&& words) x.data (wordsOf (x.reg &&& words) &&& ~~~x.lost)) (askerOf s core line)) := by
  refine next_eq ?_
  rw [show headDown s core line = _ from h]

theorem AtCore.recall {words : ByteMask} (h : AtCore s core line (.recall words)) :
    let r := giveUp (dropDown s ⟨core, line, .recall words⟩) core line words
    exec (.recall core line) s = .next (sendSlice r.2 core line (.data false r.1.mask r.1.bytes r.1.clean) (askerOf s core line)) := by
  refine next_eq ?_
  rw [show headDown s core line = _ from h]

theorem AtCore.fill {id : Nat} {d : LineData} (h : AtCore s core line (.fill id d)) : exec (.fillReply core line) s =
    .next (if visitWaits s id d then s else takeFill (dropDown s ⟨core, line, .fill id d⟩) core line id d) := by
  refine next_eq ?_
  rw [show headDown s core line = _ from h]

theorem AtCore.atomDone {w : Who} {lane : Nat} {old : Word} {fl : BitVec 5} (h : AtCore s core line (.atomDone w lane old fl)) :
    exec (.fillReply core line) s = .next (modGrove (dropDown s ⟨core, line, .atomDone w lane old fl⟩) w (tookReply lane old fl)) := by
  refine next_eq ?_
  rw [show headDown s core line = _ from h]
  exact atomReply_eq ..

theorem AtCore.atomBad {w : Who} {lane : Nat} {lost : Bool} {off : Nat} (h : AtCore s core line (.atomBad w lane lost off)) :
    exec (.fillReply core line) s = .next (modGrove (dropDown s ⟨core, line, .atomBad w lane lost off⟩) w (fun g => { g with
      outStores := g.outStores - 1
      prog := { g.prog with faults := g.prog.faults ++ [⟨lane, if lost then cOWNERLOST else cPOISON, 0, BitVec.ofNat 64 off⟩] } })) := by
  refine next_eq ?_
  rw [show headDown s core line = _ from h]
  exact atomBad_eq ..

theorem AtCore.wbAck {w : Who} (h : AtCore s core line (.wbAck [w])) : exec (.fillReply core line) s =
    .next (modGrove (dropDown s ⟨core, line, .wbAck [w]⟩) w (fun g => { g with outWbs := g.outWbs - 1 })) := by
  refine next_eq ?_
  rw [show headDown s core line = _ from h]
  exact addWbs_neg ..

/-- A grove that the state holds, after a change of it alone. -/
theorem groveNow_some {w : Who} {g : Grove} {f : Grove → Grove} {u : State} (hg : groveNow s w = some g) (hu : u.stands = s.stands)
    (hf : ∀ g, (f g).slot = g.slot) : groveNow (modGrove u w f) w = some (f g) := by
  rw [groveNow_modGrove hf, groveNow, stand?_eq_of_stands hu, ← groveNow, hg]
  rfl

/-- A message that is taken and changes one grove. -/
theorem next_modGrove {i : Instr} {c : ToCore} {w : Who} {f : Grove → Grove} (h : exec i s = .next (modGrove (dropDown s c) w f))
    (hf : ∀ g, (f g).slot = g.slot) : ∃ t, exec i s = .next t ∧ t.d = s.d ∧ t.m.mem = s.m.mem ∧
      ∀ g, groveNow s w = some g → groveNow t w = some (f g) :=
  ⟨_, h, rfl, rfl, fun _ hg => groveNow_some hg rfl hf⟩

end

/-- Settles O49: it holds, clause by clause from what a home and a core do with the next message. -/
theorem registrationProtocol : Obligations.RegistrationProtocol := by
  unfold Obligations.RegistrationProtocol
  intro s core line hform x sent mem other
  obtain ⟨hwf, -⟩ := hform
  refine ⟨?reg, ?grant, ?fwd, ?recalls, ?forwarded, ?recalled, ?wb, ?read, ?fill, ?done, ?bad, ?ack, ?atom, ?gone⟩
  case reg =>
    rintro m mask w hm rfl rfl hreq hl hs
    refine ⟨fun hno hlen => ?granted, fun e he hc hw hlen => ?asked⟩
    case granted =>
      obtain ⟨l2, hhead⟩ := takeHead_alone hl hs (makeRoom_none hlen m) (hreq ▸ registrants_reg hno)
      rw [hreq] at hhead
      obtain ⟨firn, _, _, _, hfin, hfirn⟩ := finishReq_reg (s := (dropUp s m).modM (fun k => { k with l2 := l2 })) (core := m.core)
        hl.2.1 hlen mask w m.by_
      exact ⟨_, (hm.regTaken hreq).trans (next_eq (hhead.trans hfin)), rfl, rfl, rfl, hfirn⟩
    case asked =>
      obtain ⟨l2, hhead⟩ := takeHead_asks hl hs (makeRoom_none hlen m) (hreq ▸ registrants_reg_one he hc hw)
      rw [hreq] at hhead
      exact ⟨_, (hm.regTaken hreq).trans (next_eq hhead), rfl, rfl, rfl, _, rfl, rfl, rfl, rfl, rfl⟩
  case grant =>
    intro mask w p rest hc hx hp hr hn pulled hne
    obtain ⟨y, hy⟩ := Option.isSome_iff_exists.1 hx
    obtain rfl : x = y := by simp only [x, hy, Option.getD_some]
    obtain ⟨hcore, hline⟩ := l1Find_key hy
    let u := dropDown s ⟨core, line, .grant mask w⟩
    have hpulled (i : Nat) (hi : i < 128) : (grantFetch u x p).getLsbD i = pulled i := by
      rw [getLsbD_grantFetch _ _ _ hi, hcore, hline]
      rfl
    have hbytes (i : Nat) (hi : i < 128) := granted_bytes (s := u) (x := x) (by rw [hline]; exact hr) p rest hi
    have hused : (granted u x p rest).used = true := by
      obtain h | ⟨i, hi, h⟩ := hne
      · obtain ⟨i, hi⟩ := byteMask_ne_zero_iff.1 h
        exact used_of_reg (i := i) (by rw [(hbytes i (getLsbD_lt hi)).1, hi]; simp)
      · exact used_of_reg (i := i) (by rw [(hbytes i hi).1, hpulled i hi, h]; simp)
    refine ⟨_, granted u x p rest, hc.grant.trans (next_eq ((takeGrant_oldest (s := u) hy hp w).trans (addOut_neg _ w))), ?_, rfl, rfl,
      fun i hi => ⟨?_, ?_⟩, fun g hg => ?_⟩
    · exact (l1Find_l1Put u (granted u x p rest) core line).trans ((if_pos ⟨hcore.symm, hline.symm⟩).trans (if_pos hused))
    · rw [(hbytes i hi).1, hpulled i hi]
    · rw [byteOf_eq, (hbytes i hi).2, hpulled i hi, hline]
      rfl
    · exact congrArg (Option.map (·.outStores)) (groveNow_some (f := performedStore) hg rfl fun _ => rfl)
  case fwd =>
    intro words hc
    exact ⟨_, _, hc.fwd, rfl, rfl, rfl, rfl, rfl, rfl⟩
  case recalls =>
    intro words hc hne
    obtain ⟨y, hy⟩ : ∃ y, l1Find s core line = some y := by
      by_contra hnone
      rw [← Option.ne_none_iff_exists', not_not] at hnone
      exact hne (by simp [x, hnone])
    obtain rfl : x = y := by simp only [x, hy, Option.getD_some]
    obtain ⟨hcore, hline⟩ := l1Find_key hy
    let u := dropDown s ⟨core, line, .recall words⟩
    obtain ⟨hleft, hl1, hmem, hts⟩ := giveUp_some (s := u) hy words
    have hword (i : Nat) (hi : words.getLsbD i = true) := leave_word x hi
    have hused : (gaveUp x words).used = true := by
      obtain ⟨i, hi⟩ := byteMask_ne_zero_iff.1 hne
      obtain ⟨hreg, hw⟩ : x.reg.getLsbD i = true ∧ words.getLsbD i = true := by simpa using hi
      refine used_of_valid (x := gaveUp x words) (i := i) ((leave_valid x (getLsbD_lt hw)).trans ?_)
      simp [hword i hw, hreg]
    refine ⟨_, gaveUp x words, _, _, _, hc.recall, hmem, congrArg (· ++ [_]) hts, rfl, rfl, by rw [hleft]; rfl, ?_, fun i hi hw => ?_,
      fun i hi hw => ?_, fun i _ => leave_view x⟩
    · show List.find? _ (giveUp u core line words).2.m.l1 = _
      rw [hl1]
      exact (l1Find_l1Put u (gaveUp x words) core line).trans ((if_pos ⟨hcore.symm, hline.symm⟩).trans (if_pos hused))
    · obtain ⟨hout, hstay⟩ := hword i hw
      refine ⟨hout, (leave_reg x hi).trans ?_, (leave_pendMask x).trans ?_, (leave_valid x hi).trans ?_⟩
      · rw [hw, hstay]; simp
      · rw [hout, hstay, Bool.or_false, Bool.or_comm]; cases x.pendMask.getLsbD i <;> rfl
      · rw [hstay, Bool.not_false, Bool.and_true]
    · obtain ⟨hout, hstay⟩ := leave_outside x hw
      have hwords : words.getLsbD i = false := Bool.eq_false_iff.2 fun h => by simp [getLsbD_unitsOf_of h] at hw
      refine ⟨hout, (leave_reg x hi).trans ?_, (leave_pendMask x).trans ?_⟩
      · rw [hwords, hstay]; simp
      · rw [hout, hstay]; simp
  case forwarded =>
    rintro m mask bs clean lw hm rfl rfl hreq hw hc hn
    obtain ⟨ht, hfind⟩ := takeData_forwarded hreq hw hc hn
    exact ⟨_, (hm.dataAnswer hreq).trans (next_eq ht), rfl, rfl, _, hfind, rfl, rfl, rfl, fun i _ => lineByte_mergeLine ..⟩
  case recalled =>
    rintro m mask bs clean lw e hm rfl rfl hreq hr he hec hmask hw hc hall hn
    obtain ⟨words, ht, hfind⟩ := takeData_recalled hr hreq hw hc he hec hmask hall hn
    obtain ⟨u, hu, hlinks, hmem⟩ := mergeOwn_one (s := dropUp s m) hwf hr he hec hmask bs clean
    obtain ⟨hout, hin⟩ := line_of_memory hmem
    have hm' : (mergeOwn (dropUp s m) m.core m.line mask bs clean).m.mem = u.m.mem := congrArg (·.m.mem) hu
    have hfirn := firnRemove_one (s := u) (by rw [(State.eq_of_links hlinks).1]; exact he) hec (wordsOf mask)
    refine ⟨_, (hm.dataAnswer hreq).trans (next_eq ht), fun a ha => (congrArg (memByte · a) hm').trans (hout a ha),
      fun i hi => (congrArg (memByte · _) hm').trans (hin i hi), firnRemove_less (by rw [hu]; exact hfirn) _ _ _,
      congrArg (Option.map (·.need)) hfind⟩
  case wb =>
    rintro m mask bs clean ws e hm rfl rfl hreq hr he hec hmask
    have hex := hm.wbTaken hreq
    rw [inSlice_eq, Hbm.memLines hr, List.any_cons, List.any_nil, Bool.or_false] at hex
    refine ⟨fun hnone hheld => hex.trans (next_eq (if_neg ?_)), fun hgo => ?_⟩
    · simp [hheld, Option.isNone_iff_eq_none.1 hnone]
    · obtain ⟨u, hu, hlinks, hmem⟩ := mergeOwn_one (s := dropUp s m) hwf hr he hec hmask bs clean
      obtain ⟨hout, hin⟩ := line_of_memory hmem
      have hm' : (mergeOwn (dropUp s m) m.core m.line mask bs clean).m.mem = u.m.mem := congrArg (·.m.mem) hu
      have hfirn := firnRemove_one (s := u) (by rw [(State.eq_of_links hlinks).1]; exact he) hec (wordsOf mask)
      have htake : takeWb s m = ackWb (dropVisitor (mergeOwn (dropUp s m) m.core m.line mask bs clean) (coreDie m.core) m.line) m.core m.line ws := by
        unfold takeWb
        simp only [hreq]
      refine ⟨_, hex.trans (next_eq ((if_pos (by simpa using hgo)).trans (htake.trans (ackWb_hbm hr _ _)))),
        fun a ha => (congrArg (memByte · a) hm').trans (hout a ha), ?_, fun i hi => (congrArg (memByte · _) hm').trans (hin i hi),
        by rw [hu]; exact hfirn⟩
      exact congrArg (· ++ _) ((congrArg (·.m.toCore) hu).trans (State.eq_of_links hlinks).2.2.2.1)
  case read =>
    rintro m id part hm rfl rfl hreq hl hs hno hlost fails
    obtain ⟨v, hv⟩ : ∃ v, (if fails && homeReady s m.line (reqPart s m) then corruptLine s m.line else s) =
        s.modM (fun k => { k with unverified := v }) := by
      split
      · exact ⟨_, rfl⟩
      · exact ⟨s.m.unverified, rfl⟩
    obtain ⟨l2, hhead⟩ := takeHead_alone (s := s.modM (fun k => { k with unverified := v })) hl hs
      (makeRoom_of_not_reg fun _ _ h => by rw [hreq] at h; cases h) (registrants_none hno)
    rw [hreq, finishReq_read (s := (dropUp (s.modM (fun k => { k with unverified := v })) m).modM
      (fun k => { k with l2 := l2 })) hl.1 hno] at hhead
    obtain ⟨hline, hstamp⟩ := homeLine_hbm (s := (dropUp (s.modM (fun k => { k with unverified := v })) m).modM
      (fun k => { k with l2 := l2 })) (line := m.line) hl.1
    refine ⟨_, _, (hm.homeRead hreq fails).trans (next_eq ((congrArg (takeHead · m) hv).trans hhead)), rfl, rfl, rfl, hstamp,
      byteMask_ext fun i hi => ?_, fun i hi => ⟨(hline i hi).1, (hline i hi).2.1⟩⟩
    rw [(hline i hi).2.2, BitVec.getLsbD_zero]
    exact Bool.eq_false_iff.2 fun h => hlost _ (List.contains_iff_mem.1 h) (by omega)
  case fill =>
    intro id d f hc hx hf htfu hover hsamp hdie
    obtain ⟨y, hy⟩ := Option.isSome_iff_exists.1 hx
    obtain rfl : x = y := by simp only [x, hy, Option.getD_some]
    obtain ⟨hcore, hline⟩ := l1Find_key hy
    have hwaits : visitWaits s id d = false := by simp [visitWaits, hf, visits_not hdie]
    obtain ⟨stands, l2, fills, ht, hfills⟩ := takeFill_installs (s := dropDown s ⟨core, line, .fill id d⟩) hy hf htfu hover hsamp hdie d
    refine ⟨_, installed x d, hc.fill.trans (next_eq ((if_neg (by rw [hwaits]; decide)).trans ht)), ?_, rfl, rfl, rfl, rfl, hfills,
      fun i _ => lineByte_installed d i⟩
    exact (l1Find_l1Put _ (installed x d) core line).trans ((if_pos ⟨hcore.symm, hline.symm⟩).trans (if_pos (used_installed d)))
  case done =>
    exact fun w lane old fl hc => next_modGrove hc.atomDone fun _ => rfl
  case bad =>
    exact fun w lane lost off hc => next_modGrove hc.atomBad fun _ => rfl
  case ack =>
    exact fun w hc => next_modGrove hc.wbAck fun _ => rfl
  case atom =>
    rintro m op w hm rfl rfl hreq hl hs hno hlost hpoison ha hsize old new
    obtain ⟨l2, hhead⟩ := takeHead_alone hl hs (makeRoom_of_not_reg fun _ _ h => by rw [hreq] at h; cases h) (registrants_none hno)
    rw [hreq] at hhead
    obtain ⟨u, hfin, hcore, hin, hout⟩ := finishReq_atom (s := (dropUp s m).modM (fun k => { k with l2 := l2 })) (core := m.core)
      hwf hl.1 hl.2.1 hlost hpoison ha hsize w m.by_ (old := old) rfl
    exact ⟨_, (hm.atomicAtHome hreq).trans (next_eq (hhead.trans hfin)), congrArg (· ++ [_]) hcore, hin, hout⟩
  case gone =>
    intro hcore hw
    obtain ⟨habsent, hq, hlost⟩ := loseCore_gone (s.modCore core (fun c => { c with quarantined := true })) core hw
    obtain ⟨hf, hl, hr⟩ := habsent
    refine ⟨_, rfl, hq core (by rw [State.core_modCore, if_pos ⟨rfl, hcore⟩]), hf, hl, hr, fun e he hec _ _ hng i hi hi' => ?_⟩
    obtain h | h := hlost e he hec (fun ⟨g, hg, hl⟩ => hng g hg hl) i hi hi'
    · exact .inl h
    · exact .inr (by rwa [show (e.line * 32 + i) / 32 = e.line by omega] at h)

end Sys2Proof
end

section
/-! # Lines of HBM that no core and no request claims (04 R92, R100; 18 R373) -/

namespace Sys2Proof.Machine

/-! ## Their reads -/

/-- A line of HBM in no window that its slice holds, about which no request waits, and of which no core has registered words. -/
structure Idle (s : State) (line : Nat) : Prop where
  hbm : Hbm (line * 128)
  window : windowAt s (line * 128) = none
  waits : ∀ w ∈ s.m.lineWaits, w.line ≠ line
  firn : ∀ e ∈ s.m.firn, e.line ≠ line
  held : (l2Home s line).isSome

/-- Only the order of the slices' lines and the messages towards slices change, and every line held stays so. -/
def Touched (s t : State) : Prop :=
  (∃ l2 q, t = s.modM (fun m => { m with l2 := l2, toSlice := q })) ∧ ∀ l, (l2Home s l).isSome → (l2Home t l).isSome

section
variable {s t u : State} {line a n : Nat}

theorem Touched.refl (s : State) : Touched s s := ⟨⟨_, _, rfl⟩, fun _ h => h⟩

theorem Touched.trans (h : Touched s t) (h' : Touched t u) : Touched s u := by
  obtain ⟨⟨l2, q, rfl⟩, hh⟩ := h
  obtain ⟨⟨l2', q', rfl⟩, hh'⟩ := h'
  exact ⟨⟨l2', q', rfl⟩, fun l hl => hh' l (hh l hl)⟩

theorem Touched.same (h : Touched s t) : t.m.mem = s.m.mem ∧ t.m.poison = s.m.poison ∧ t.m.lost = s.m.lost ∧ t.m.halves = s.m.halves ∧
    t.stands = s.stands ∧ t.d = s.d := by
  obtain ⟨⟨l2, q, rfl⟩, -⟩ := h
  exact ⟨rfl, rfl, rfl, rfl, rfl, rfl⟩

theorem Idle.touched (h : Idle s line) (ht : Touched s t) : Idle t line := by
  obtain ⟨⟨l2, q, rfl⟩, hh⟩ := ht
  exact ⟨h.hbm, h.window, h.waits, h.firn, hh line h.held⟩

theorem touched_l2Access (h : Idle s line) (part mark : Nat) (read : Bool) : Touched s (l2Access s line part mark read) := by
  obtain ⟨l2, he, hl⟩ := l2Access_held h.held part mark read
  rw [he]
  exact ⟨⟨l2, s.m.toSlice, rfl⟩, hl⟩

theorem firnOf_none (h : ∀ e ∈ s.m.firn, e.line ≠ line) : firnOf s line = [] := List.filter_eq_nil_iff.2 fun e he => by simpa using h e he

theorem recallWords_none (h : ∀ e ∈ s.m.firn, e.line ≠ line) (pick : FirnEntry → ByteMask) : recallWords s line pick = s := by
  unfold recallWords
  rw [firnOf_none h]
  rfl

theorem recallNow_none (h : ∀ e ∈ s.m.firn, e.line ≠ line) (words : ByteMask) :
    ∃ q w, recallNow s line words = s.modM (fun m => { m with toSlice := q, lineWaits := w }) ∧
      ((∀ w ∈ s.m.lineWaits, w.line ≠ line) → w = s.m.lineWaits) := by
  unfold recallNow
  simp only [recallWords_none h]
  exact ⟨_, _, rfl, fun hw => (List.map_congr_left fun w hm => if_neg (hw w hm)).trans (List.map_id _)⟩

theorem touched_recallNow (h : Idle s line) (words : ByteMask) : Touched s (recallNow s line words) := by
  obtain ⟨q, w, he, hw⟩ := recallNow_none h.firn words
  rw [he, hw h.waits]
  exact ⟨⟨s.m.l2, q, rfl⟩, fun _ h => h⟩

theorem touched_foldl {f : State → Nat → State} (hf : ∀ s l, Idle s l → Touched s (f s l)) {lines : List Nat}
    (h : ∀ l ∈ lines, Idle s l) : Touched s (lines.foldl f s) := by
  induction lines generalizing s with
  | nil => exact .refl s
  | cons l ls ih =>
    have hl := hf s l (h l List.mem_cons_self)
    exact hl.trans (ih fun k hk => (h k (List.mem_cons_of_mem l hk)).touched hl)

/-! ## Runs of bytes on such lines -/

/-- Every line that a run of bytes touches is idle. -/
def IdleRun (s : State) (a n : Nat) : Prop := ∀ l ∈ spanLines a n, Idle s l

theorem mem_spanLines (h : 0 < n) : line ∈ spanLines a n ↔ ∃ k, k < n ∧ line = (a + k) / 128 := by
  simp only [spanLines, List.mem_map, List.mem_range]
  constructor
  · rintro ⟨j, hj, rfl⟩
    exact ⟨max a (128 * (a / 128 + j)) - a, by omega, by omega⟩
  · rintro ⟨k, hk, rfl⟩
    exact ⟨(a + k) / 128 - a / 128, by omega, by omega⟩

theorem IdleRun.touched (h : IdleRun s a n) (ht : Touched s t) : IdleRun t a n := fun l hl => (h l hl).touched ht

theorem IdleRun.at (h : IdleRun s a n) {k : Nat} (hk : k < n) : Idle s ((a + k) / 128) := h _ ((mem_spanLines (by omega)).2 ⟨k, hk, rfl⟩)

/-- The accesses and the recalls of a read. -/
theorem touched_drained (h : IdleRun s a n) (part : Nat) (read : Bool) : Touched s (drainSpan (spanAccess s a n part read) a n) := by
  have hacc : Touched s (spanAccess s a n part read) := by
    unfold spanAccess
    split
    · exact .refl s
    · exact touched_foldl (fun s l hl => touched_l2Access hl part 0 read) h
  refine hacc.trans ?_
  unfold drainSpan
  split
  · exact .refl _
  · exact touched_foldl (fun s l hl => touched_recallNow hl _) (h.touched hacc)

/-- The current value of an idle line is what its home holds. -/
theorem curLine_idle (h : Idle s line) : curLine s line = homeLine s line := by
  unfold curLine
  simp only [h.hbm.region, firnOf_none h.firn, List.foldl_nil, h.hbm.removed]
  rfl

/-- Bytes of idle lines as they are: memory's, with their marks. -/
theorem curBytes_idle (h : IdleRun s a n) : curBytes s a n =
    (List.range n).map (fun k => (memByte s.m.mem (a + k), s.m.poison.contains ((a + k) / 128), s.m.lost.contains ((a + k) / 4))) := by
  refine List.map_congr_left fun k hk => ?_
  have hk := List.mem_range.1 hk
  have hi := h.at hk
  have hmem : (a + k) / 128 - a / 128 < (a + n - 1) / 128 - a / 128 + 1 := by omega
  have hfind : ((List.range ((a + n - 1) / 128 - a / 128 + 1)).map (fun i => (a / 128 + i, curLine s (a / 128 + i)))).find?
      (fun x => x.1 == (a + k) / 128) = some ((a + k) / 128, curLine s ((a + k) / 128)) := by
    have hrange : (List.range ((a + n - 1) / 128 - a / 128 + 1)).find? ((fun x : Nat × LineData => x.1 == (a + k) / 128) ∘
        fun i => (a / 128 + i, curLine s (a / 128 + i))) = some ((a + k) / 128 - a / 128) := by
      refine List.find?_range_eq_some.2 ⟨?_, List.mem_range.2 hmem, fun j hj => ?_⟩
      · rw [Function.comp_apply, beq_iff_eq]; omega
      · rw [Function.comp_apply, Bool.not_eq_true', beq_eq_false_iff_ne]; omega
    rw [List.find?_map, hrange, Option.map_some, show a / 128 + ((a + k) / 128 - a / 128) = (a + k) / 128 by omega]
  obtain ⟨hb, -⟩ := homeLine_hbm (s := s) hi.hbm
  obtain ⟨hbyte, hpoison, hlost⟩ := hb ((a + k) % 128) (Nat.mod_lt _ (by decide))
  simp only [hfind, curLine_idle hi, hbyte, hpoison, hlost, Nat.div_add_mod']

/-- Bytes of idle lines as a read from outside gives them. -/
theorem outsideRead_idle (h : IdleRun s a n) : ∃ t, Touched s t ∧ outsideRead s a n = answer t
    ⟨false, (List.range n).any (fun k => s.m.poison.contains ((a + k) / 128) || s.m.lost.contains ((a + k) / 4)),
      (List.range n).map (fun k => memByte s.m.mem (a + k))⟩ := by
  have ht := touched_drained h (partOfPa s a) true
  refine ⟨_, ht, ?_⟩
  obtain ⟨hmem, hpoison, hlost, -⟩ := ht.same
  unfold outsideRead
  simp only [curBytes_idle (h.touched ht), hmem, hpoison, hlost, List.any_map, List.map_map, Function.comp_def]

/-! ## Writes of runs of bytes -/

/-- A piece of a write by an engine, the host or another module. -/
def putPiece (s : State) (p : Nat × Nat × List Byte) : State :=
  let mask := maskRange p.2.1 p.2.2.length
  homeWrite (recallNow (dropShared s (halvesOf p.1 mask)) p.1 (wordsOf mask)) p.1 mask (bytesAsLine p.2.1 p.2.2) (fullMask mask) []

theorem engineWrite_eq (s : State) (pa : Nat) (bs : List Byte) :
    engineWrite s pa bs = (linePieces (bs.length / 128 + 2) pa bs).foldl putPiece s := rfl

theorem dropShared_eq (s : State) (hs : List Nat) : ∃ v, dropShared s hs = s.modM (fun m => { m with halves := v }) := by
  induction hs generalizing s with
  | nil => exact ⟨_, rfl⟩
  | cons k ks ih =>
    rw [dropShared, List.foldl_cons]
    by_cases h : halfState s k = 1
    · obtain ⟨v, hv⟩ := ih (setHalf s k 0)
      exact ⟨v, by rw [if_pos h]; exact hv⟩
    · rw [if_neg h]
      exact ih s

/-- A piece on a line that no core has registered words of. -/
theorem putPiece_idle (hwf : Memory.wf s.m.mem = true) (hr : Hbm (line * 128)) (hf : ∀ e ∈ s.m.firn, e.line ≠ line) {off : Nat} {bs : List Byte}
    (ho : off + bs.length ≤ 128) : (putPiece s (line, off, bs)).m.firn = s.m.firn ∧ Memory.wf (putPiece s (line, off, bs)).m.mem = true ∧
      ∀ b, memByte (putPiece s (line, off, bs)).m.mem b =
        if line * 128 + off ≤ b ∧ b < line * 128 + off + bs.length then bs.getD (b - (line * 128 + off)) 0 else memByte s.m.mem b := by
  obtain ⟨v, hv⟩ := dropShared_eq s (halvesOf line (maskRange off bs.length))
  obtain ⟨q, w, hrec, -⟩ := recallNow_none (s := s.modM (fun m => { m with halves := v })) hf (wordsOf (maskRange off bs.length))
  unfold putPiece
  simp only [hv, hrec]
  refine ⟨(State.eq_of_links (links_homeWrite hr _ _ _ _)).1, ?_, fun b => ?_⟩
  · rw [mem_homeWrite hr]
    exact memMerge_wf hwf _ _ _
  · rw [mem_homeWrite hr]
    refine (memByte_memMerge hwf ..).trans ?_
    simp only [getLsbD_maskRange ho]
    by_cases hb : line * 128 + off ≤ b ∧ b < line * 128 + off + bs.length
    · rw [if_pos hb, if_pos (by omega), lineByte_bytesAsLine ho (by omega), show b - line * 128 - off = b - (line * 128 + off) by omega]
    · rw [if_neg hb, if_neg (by omega)]

/-- A write of a run stores its bytes and no others. -/
theorem stored_pieces {fuel pa : Nat} {bs : List Byte} (hfuel : bs = [] ∨ pa % 128 + bs.length ≤ 128 * fuel) (hwf : Memory.wf s.m.mem = true)
    (h : ∀ k, k < bs.length → Hbm ((pa + k) / 128 * 128) ∧ ∀ e ∈ s.m.firn, e.line ≠ (pa + k) / 128) :
    Sys2Proof.Stored s ((linePieces fuel pa bs).foldl putPiece s) pa bs := by
  induction fuel generalizing s pa bs with
  | zero =>
    have : bs.length = 0 := by
      obtain h | h := hfuel
      · rw [h]; rfl
      · omega
    exact ⟨fun k hk => by omega, fun _ _ => rfl⟩
  | succ fuel ih =>
    unfold linePieces
    split
    next he =>
      rw [List.isEmpty_iff.1 he]
      exact ⟨fun k hk => absurd hk (Nat.not_lt_zero k), fun _ _ => rfl⟩
    next he =>
      have hpos : 0 < bs.length := List.length_pos_iff.2 fun h => he (List.isEmpty_iff.2 h)
      have hfuel : pa % 128 + bs.length ≤ 128 * (fuel + 1) := hfuel.resolve_left fun h => he (List.isEmpty_iff.2 h)
      have htake : (bs.take (128 - pa % 128)).length = min (128 - pa % 128) bs.length := List.length_take
      have hdrop : (bs.drop (128 - pa % 128)).length = bs.length - (128 - pa % 128) := List.length_drop
      obtain ⟨hr, hf⟩ : Hbm (pa / 128 * 128) ∧ ∀ e ∈ s.m.firn, e.line ≠ pa / 128 := h 0 hpos
      obtain ⟨hfirn, hwf', hbyte⟩ := putPiece_idle (off := pa % 128) (bs := bs.take (128 - pa % 128)) hwf hr hf (by omega)
      obtain ⟨hin, hout⟩ := ih (s := putPiece s (pa / 128, pa % 128, bs.take (128 - pa % 128))) (pa := pa + (128 - pa % 128))
        (bs := bs.drop (128 - pa % 128)) (by
          by_cases hl : bs.length ≤ 128 - pa % 128
          · exact .inl (List.drop_eq_nil_of_le hl)
          · exact .inr (by omega)) hwf' (fun k hk => by
          rw [hfirn, show pa + (128 - pa % 128) + k = pa + (128 - pa % 128 + k) by omega]
          exact h _ (by omega))
      have hpa : pa / 128 * 128 + pa % 128 = pa := by omega
      simp only [hpa, htake] at hbyte
      rw [List.foldl_cons]
      refine ⟨fun k hk => ?_, fun b hb => ?_⟩
      · by_cases hk' : k < 128 - pa % 128
        · rw [hout _ (.inl (by omega)), hbyte, if_pos (by omega), Nat.add_sub_cancel_left]
          simp [List.getD_eq_getElem?_getD, hk']
        · have hrest := hin (k - (128 - pa % 128)) (by omega)
          rw [show pa + (128 - pa % 128) + (k - (128 - pa % 128)) = pa + k by omega] at hrest
          rw [hrest]
          simp [List.getD_eq_getElem?_getD, List.getElem?_drop, show 128 - pa % 128 + (k - (128 - pa % 128)) = k by omega]
      · rw [hout b (by omega), hbyte, if_neg (by omega)]

theorem stored_engineWrite {bs : List Byte} (hwf : Memory.wf s.m.mem = true)
    (h : IdleRun s a bs.length) : Sys2Proof.Stored s (engineWrite s a bs) a bs :=
  stored_pieces (.inr (by omega)) hwf fun _ hk => ⟨(h.at hk).hbm, (h.at hk).firn⟩

/-- A write from outside. -/
theorem stored_outsideWrite {bs : List Byte} (hwf : Memory.wf s.m.mem = true) (h : IdleRun s a bs.length) :
    Sys2Proof.Stored s (outsideWrite s a bs) a bs ∧ (outsideWrite s a bs).d.hostOut = ⟨false, false, []⟩ := by
  refine ⟨?_, rfl⟩
  have ht : Touched s (spanAccess s a bs.length (partOfPa s a) false) := by
    unfold spanAccess
    split
    · exact .refl s
    · exact touched_foldl (fun s l hl => touched_l2Access hl _ 0 false) h
  obtain ⟨hmem, -⟩ := ht.same
  obtain ⟨hin, hout⟩ := stored_engineWrite (by rwa [hmem]) (h.touched ht)
  exact ⟨hin, fun b hb => (hout b hb).trans (by rw [hmem])⟩

end

end Sys2Proof.Machine
end

section
/-! # Requests of the host and of other modules (18 R373 to R375; 04 R100) -/

namespace Sys2Proof

open Machine

/-! ## Bytes that they reach -/

section
variable {s : State} {a n : Nat}

theorem HbmSpan.idle (h : HbmSpan s a n) : IdleRun s a n := by
  intro l hl
  obtain ⟨k, hk, rfl⟩ := (mem_spanLines h.some).1 hl
  obtain ⟨hb, -, -, hw⟩ := h.bytes k hk
  obtain ⟨hq, hf⟩ := h.quiet k hk
  exact ⟨show _ < _ by omega, hw, hq, hf, h.held k hk⟩

theorem HbmSpan.region (h : HbmSpan s a n) {k : Nat} (hk : k < n) : regionOf s (a + k) = .hbm := Hbm.region (h.bytes k hk).1 s

theorem spanAny_eq_false {f : Nat → Bool} : spanAny a n f = false ↔ ∀ k, k < n → f (a + k) = false := by
  simp [spanAny]

theorem spanAll_eq_true {f : Nat → Bool} : spanAll a n f = true ↔ ∀ k, k < n → f (a + k) = true := by
  simp [spanAll]

theorem HbmSpan.notBarred (h : HbmSpan s a n) : spanAny a n (hostBarred s) = false := spanAny_eq_false.2 fun k hk => (h.bytes k hk).2.1

theorem HbmSpan.outside (h : HbmSpan s a n) : spanAll a n (outsideByte s) = true :=
  spanAll_eq_true.2 fun k hk => Hbm.outside (h.bytes k hk).1 s

theorem HbmSpan.noAlias (h : HbmSpan s a n) : spanAny a n (i4xAlias s) = false :=
  spanAny_eq_false.2 fun k hk => by rw [i4xAlias, (h.bytes k hk).2.2.1]

/-- A register of the management block is one that physical function 0 carries. -/
def managed (r : Reg) : Bool := match r with
  | .modid | .hostbase | .hostcap | .owner | .errcnt | .xfercnt | .mdrop | .fwstart | .fwstat | .partctl _ | .mailbox
  | .dumpbase | .pwrceil | .routehi _ | .routelo _ => true
  | .window _ _ | .block _ _ | .drift _ | .occ _ _ | .rimeReg _ _ _ | .skew _ | .none => false

theorem managed_ite {c : Prop} [Decidable c] {r q : Reg} (h : managed (if c then r else q) = true) :
    c ∧ managed r = true ∨ ¬ c ∧ managed q = true := by
  by_cases hc : c
  · exact .inl ⟨hc, by rwa [if_pos hc] at h⟩
  · exact .inr ⟨hc, by rwa [if_neg hc] at h⟩

/-- The offsets of these registers: each of the map's cases names another register or has such an offset. -/
theorem managed_regAt {pa : Nat} (h : managed (regAt pa) = true) : 0x1F0000000000 ≤ pa ∧
    (pa - 0x1F0000000000 ≤ 0x500 ∨ 0x10000 ≤ pa - 0x1F0000000000 ∧ pa - 0x1F0000000000 < 0x18400) := by
  unfold regAt at h
  extract_lets o at h
  generalize ho : o = p at h
  replace ho : pa - 0x1F0000000000 = p := ho
  rw [ho]
  obtain ⟨-, h⟩ | ⟨hlow, h⟩ := managed_ite h
  · exact absurd h Bool.false_ne_true
  refine ⟨by omega, ?_⟩
  clear ho hlow o
  iterate 21
    obtain ⟨hc, h⟩ | ⟨-, h⟩ := managed_ite h
    · simp only [managed, Bool.false_eq_true] at h <;> omega
  exact absurd h Bool.false_ne_true

/-- No register of the management block lies outside the device region. -/
theorem pf0Reg_eq_false {k : Nat} (hk : k < n) (h : regionOf s (a + k) ≠ .device) : pf0Reg a n = false := by
  by_contra hp
  have hp : (((n == 4 || n == 8) && a % n == 0) && managed (regAt (a / 8 * 8))) = true := Bool.eq_true_of_not_eq_false hp
  obtain ⟨hn, hm⟩ := Bool.and_eq_true_iff.1 hp
  obtain ⟨hlo, hm⟩ := managed_regAt hm
  have hn : (n = 4 ∨ n = 8) ∧ a % n = 0 := by simpa using hn
  have hlast : a + k < a / 8 * 8 + 8 := by
    obtain ⟨rfl | rfl, h⟩ := hn <;> omega
  have hlist : devListed (a + k - 0x1F0000000000) = true := by
    simp only [devListed, Bool.or_eq_true, decide_eq_true_eq]
    omega
  refine h ?_
  unfold regionOf
  simp only [hlist, if_true]
  rw [if_neg (by omega), if_neg (by omega), if_neg (by omega), if_neg (by omega), if_neg (by omega), if_neg (by omega), if_neg (by omega),
    if_pos (by omega)]

theorem homeReady_idle {line : Nat} (h : Idle s line) (part : Nat) : homeReady s line part = true :=
  homeReady_held h.hbm h.window h.waits h.held part

theorem hostReady_idle (h : IdleRun s a n) : hostReady s a n = true := by
  rw [hostReady, Bool.or_eq_true, List.all_eq_true]
  exact .inr fun l hl => homeReady_idle (h l hl) _

theorem getLsbD_runMask {line i : Nat} (h : (runMask line a n).getLsbD i = true) : ∃ k, k < n ∧ 128 * line + i = a + k := by
  unfold runMask at h
  simp only at h
  split at h
  next hlt =>
    rw [getLsbD_maskRange (by omega)] at h
    obtain ⟨h1, h2⟩ := h
    exact ⟨128 * line + i - a, by omega, by omega⟩
  next => simp at h

/-- Idle lines of which the host owns no half are ready for every agent. -/
theorem spanReady_idle (h : IdleRun s a n) (hh : HostLeaves s a n) (part : Nat) : spanReady s a n part = true := by
  rw [spanReady, Bool.or_eq_true, List.all_eq_true]
  refine .inr fun l hl => ?_
  rw [lineReady, homeReady_idle (h l hl), Bool.true_and, List.all_eq_true]
  intro k hk
  obtain ⟨i, hi, rfl⟩ := mem_halvesOf.1 hk
  obtain ⟨j, hj, he⟩ := getLsbD_runMask hi
  have := hh j hj
  rw [show (a + j) / 64 = 2 * l + i / 64 by omega] at this
  simpa using this

/-! ## Reads and writes -/

theorem readAnswer_outsideRead (h : IdleRun s a n) : ReadAnswer s (outsideRead s a n) a n := by
  obtain ⟨t, ht, he⟩ := outsideRead_idle h
  obtain ⟨hmem, -, -, -, hst, -⟩ := ht.same
  rw [he]
  exact ⟨hmem, hst, rfl, rfl, by simp [answer]⟩

theorem stored_of_mem {u t : State} {bs : List Byte} (hm : u.m.mem = s.m.mem) (h : Stored u t a bs) : Stored s t a bs := by
  obtain ⟨hin, hout⟩ := h
  exact ⟨hin, fun b hb => (hout b hb).trans (by rw [hm])⟩

/-! ## Atomics -/

theorem toBytes_eq_map (n v : Nat) : toBytes n v = (List.range n).map (fun k => BitVec.ofNat 8 (v / 2 ^ (8 * k))) := by
  refine List.ext_getElem (by simp [length_toBytes]) fun k hk _ => ?_
  rw [length_toBytes] at hk
  have := getD_toBytes v hk
  rw [List.getD_eq_getElem _ _ (by rwa [length_toBytes])] at this
  simpa using this

/-- An atomic of an agent beside the cores on bytes that are neither poisoned nor lost: it gives the old element, and the new one is stored. -/
theorem homeAtomNow_idle (hwf : Memory.wf s.m.mem = true) (h : IdleRun s a n) (hpos : 0 < n)
    (hgood : ∀ k, k < n → (a + k) / 128 ∉ s.m.poison ∧ (a + k) / 4 ∉ s.m.lost) (op : HomeOp) {old : Nat}
    (ho : old = ((List.range n).map (fun k => (memByte s.m.mem (a + k)).toNat * 2 ^ (8 * k))).sum) :
    (homeAtomNow s a n op).d.hostOut.bytes = (List.range n).map (fun k => memByte s.m.mem (a + k)) ∧
      Stored s (homeAtomNow s a n op) a ((List.range n).map (fun k => BitVec.ofNat 8 (((atomicNew op old).1).getD old / 2 ^ (8 * k)))) := by
  have ht := touched_drained h (partOfPa s a) true
  obtain ⟨hmem, hpoison, hlost, -⟩ := ht.same
  have hbad : (List.range n).any (fun k => s.m.poison.contains ((a + k) / 128) || s.m.lost.contains ((a + k) / 4)) = false :=
    List.any_eq_false.2 fun k hk => by simpa using hgood k (List.mem_range.1 hk)
  unfold homeAtomNow
  simp only [curBytes_idle (h.touched ht), hmem, hpoison, hlost, List.any_map, List.map_map, Function.comp_def, hbad, ofBytes_map_range, ← ho]
  refine ⟨rfl, ?_⟩
  cases hv : (atomicNew op old).1 with
  | none =>
    have hw : windowAt (drainSpan (spanAccess s a n (partOfPa s a) true) a n) (a / 128 * 128) = none := ((h.touched ht).at hpos).window
    refine ⟨fun k hk => ?_, fun b _ => ?_⟩
    · rw [List.length_map, List.length_range] at hk
      have hb := byte_of_ofBytes (fun k => memByte s.m.mem (a + k)) hk
      rw [ofBytes_map_range, ← ho] at hb
      simp only [Bool.false_eq_true, if_false, markWritten_none hw]
      simp [List.getD_eq_getElem?_getD, hk, answer, hmem, hb]
    · simp only [Bool.false_eq_true, if_false, markWritten_none hw]
      exact congrArg (memByte · b) hmem
  | some v =>
    rw [Option.getD_some, ← toBytes_eq_map]
    have := stored_engineWrite (s := drainSpan (spanAccess s a n (partOfPa s a) true) a n) (a := a) (bs := toBytes n v) (by rwa [hmem])
      (by rw [length_toBytes]; exact h.touched ht)
    exact stored_of_mem hmem this

/-! ## Halves that the host takes -/

theorem idle_setHalf {line : Nat} (h : Idle s line) (half v : Nat) : Idle (setHalf s half v) line := ⟨h.hbm, h.window, h.waits, h.firn, h.held⟩

theorem halfState_setHalf (hwf : spWf 0 s.m.halves = true) (half v : Nat) : halfState (setHalf s half v) half = v :=
  (spGet_spSet hwf half v half).trans (if_pos rfl)

theorem hostTakes_span (hwf : spWf 0 s.m.halves = true) {half : Nat} (h : HbmSpan s (64 * half) 64) (hh : halfState s half ≠ 2) (v : Nat) :
    ReadAnswer s (hostTakes s half v) (64 * half) 64 ∧ halfState (hostTakes s half v) half = v := by
  have hrun : IdleRun (setHalf s half v) (64 * half) 64 := fun l hl => idle_setHalf (h.idle l hl) half v
  have he : hostTakes s half v = outsideRead (setHalf s half v) (64 * half) 64 := by
    unfold hostTakes
    simp only [h.notBarred, h.outside, h.noAlias, hostServed, hostReady_idle h.idle]
    rw [if_neg (by simpa using hh)]
    simp
  rw [he]
  refine ⟨readAnswer_outsideRead hrun, ?_⟩
  obtain ⟨t, ht, ho⟩ := outsideRead_idle hrun
  obtain ⟨-, -, -, hv, -⟩ := ht.same
  rw [ho]
  exact (congrArg (fun x => spGet 0 x half) hv).trans (halfState_setHalf hwf half v)

/-- The host's data for a recalled half, with another core still to answer. -/
theorem recalledHalf_waits (hform : MemoryForm s) {w : LineWait} {half : Nat} {bs : List Byte} (hl : w.line = half / 2)
    (hw : s.m.lineWaits.find? (fun w => w.line == half / 2) = some w) (hn : w.need ≠ []) (hb : bs.length = 64) (hr : 64 * half + 64 ≤ 0x00B2D05E0000) :
    Stored s (recalledHalf s w half bs) (64 * half) bs ∧ halfState (recalledHalf s w half bs) half = (if w.req.reads then 1 else 0) ∧
      ∀ u ∈ (recalledHalf s w half bs).m.lineWaits, u.line = half / 2 → half ∉ u.halves := by
  obtain ⟨hmem, -, -, hhalves, -⟩ := hform
  have hhbm : Hbm (w.line * 128) := show _ < _ by omega
  let v := if w.req.reads then 1 else 0
  let u := homeWrite (setHalf s half v) w.line (maskRange (64 * (half % 2)) 64) (bytesAsLine (64 * (half % 2)) (bs.take 64))
    (maskRange (64 * (half % 2)) 64) []
  have hlinks := State.eq_of_links (links_homeWrite (s := setHalf s half v) hhbm (maskRange (64 * (half % 2)) 64)
    (bytesAsLine (64 * (half % 2)) (bs.take 64)) (maskRange (64 * (half % 2)) 64) [])
  obtain ⟨-, -, -, -, hwaits, -, hhalf, -⟩ := hlinks
  obtain ⟨f, he⟩ : ∃ f, recalledHalf s w half bs = u.modM (fun m => { m with
      fills := f, lineWaits := m.lineWaits.map (fun y => if y.line = w.line then { y with halves := y.halves.filter (· ≠ half) } else y) }) := by
    refine ⟨_, tryFinish_waits (w := { w with halves := w.halves.filter (· ≠ half) }) ?_ (.inl hn)⟩
    have hp : (fun y : LineWait => y.line == w.line) ∘ (fun y => if y.line = w.line then { y with halves := y.halves.filter (· ≠ half) } else y) =
        fun y => y.line == w.line := funext fun y => by simp only [Function.comp_apply]; split <;> rfl
    refine List.find?_map.trans ?_
    rw [hp]
    refine (congrArg (Option.map _) (?_ : _ = some w)).trans (congrArg some (if_pos rfl))
    exact (congrArg (List.find? _) hwaits).trans (by rw [hl]; exact hw)
  rw [he]
  refine ⟨?_, ?_, ?_⟩
  · have hbyte (b : Nat) : memByte u.m.mem b = if 64 * half ≤ b ∧ b < 64 * half + 64 then bs.getD (b - 64 * half) 0 else memByte s.m.mem b := by
      rw [show u.m.mem = _ from mem_homeWrite hhbm _ _ _ _]
      refine (memByte_memMerge hmem ..).trans ?_
      have hlen : (bs.take 64).length = 64 := by rw [List.length_take, hb]; rfl
      simp only [getLsbD_maskRange (show 64 * (half % 2) + 64 ≤ 128 by omega)]
      by_cases h : 64 * half ≤ b ∧ b < 64 * half + 64
      · rw [if_pos h, if_pos (by omega), lineByte_bytesAsLine (by rw [hlen]; omega) (by omega), List.take_of_length_le (by omega),
          show b - w.line * 128 - 64 * (half % 2) = b - 64 * half by omega]
      · rw [if_neg h, if_neg (by omega)]
    refine ⟨fun k hk => (hbyte _).trans ?_, fun b hb => (hbyte _).trans (if_neg (by omega))⟩
    rw [if_pos (by omega), Nat.add_sub_cancel_left]
  · exact (congrArg (fun x => spGet 0 x half) hhalf).trans (halfState_setHalf hhalves half v)
  · intro y hy hyl
    obtain ⟨z, -, rfl⟩ := List.mem_map.1 hy
    split at hyl
    · simp [*]
    · exact absurd (hyl.trans hl.symm) ‹_›

end

end Sys2Proof
end

section
/-! # Copies of host lines, the link, and the host's own stores (04 R92, R95, R101; 05 R126, R127) -/

namespace Sys2Proof.Machine

variable {s t : State} {core line : Nat}

/-! ## Probes -/

/-- A core sends every registered word of a line home. -/
theorem writeBack_all (s : State) (core line : Nat) :
    (writeBack s core line (~~~0#128) [] 0).m.mem = s.m.mem ∧
      (∀ y, l1Find (writeBack s core line (~~~0#128) [] 0) core line = some y → y.reg = 0#128) ∧
      ∀ x, l1Find s core line = some x →
        (x.reg = 0#128 → (writeBack s core line (~~~0#128) [] 0).m.toSlice = s.m.toSlice) ∧
        (x.reg ≠ 0#128 → ∃ u, (writeBack s core line (~~~0#128) [] 0).m.toSlice = s.m.toSlice ++ [u] ∧ u.core = core ∧ u.line = line ∧
          u.req = .wb x.reg x.data (wordsOf x.reg &&& ~~~x.lost) []) := by
  unfold writeBack
  cases hx : l1Find s core line with
  | none => exact ⟨rfl, fun y hy => by simp [hx] at hy, fun x h => by cases h⟩
  | some x =>
    have hmask : (x.wbWords (~~~0#128)).mask = x.reg := and_all x.reg
    simp only
    by_cases hreg : x.reg = 0#128
    · rw [if_pos (hmask.trans hreg)]
      refine ⟨rfl, fun y hy => ?_, fun z hz => ?_⟩
      · rw [hx] at hy; cases hy; exact hreg
      · cases hz; exact ⟨fun _ => rfl, fun h => absurd hreg h⟩
    · rw [if_neg (by rwa [hmask])]
      obtain ⟨hc, hl⟩ := l1Find_key hx
      refine ⟨rfl, fun y hy => ?_, fun z hz => ?_⟩
      · have hput := (l1Find_l1Put s { x with reg := x.reg &&& ~~~(~~~0#128), valid := x.valid ||| (x.wbWords (~~~0#128)).mask } core line).symm.trans hy
        rw [if_pos ⟨hc.symm, hl.symm⟩] at hput
        split at hput
        · cases hput; simp
        · cases hput
      · cases hz
        refine ⟨fun h => absurd h hreg, fun _ => ⟨_, rfl, rfl, rfl, ?_⟩⟩
        simp only [L1Line.wbWords, and_all]

/-- A probe with the core's own tag, with no store under way on a registered word: the copies go, and the registered words are sent home. -/
theorem probe_own (h : ¬ ∃ x, l1Find s core line = some x ∧ x.asked &&& wordsOf x.reg ≠ 0#128) :
    ∃ t, execProbe core line (partOfCore s core) s = .next t ∧ t.m.mem = s.m.mem ∧
      (∀ x', l1Find t core line = some x' → x'.valid = 0#128 ∧ x'.reg = 0#128) ∧
      (∀ f ∈ t.m.fills, f.core = core → f.line = line → f.overtaken = true) ∧
      t.m.toSlice = (writeBack s core line (~~~0#128) [] 0).m.toSlice := by
  have hready : wbReady s core line (~~~0#128) = true := by
    unfold wbReady
    cases hx : l1Find s core line with
    | none => rfl
    | some x =>
      have hz : x.asked &&& wordsOf x.reg = 0#128 := by
        by_contra hc
        exact h ⟨x, hx, hc⟩
      simp [hz]
  obtain ⟨hmem, hreg, -⟩ := writeBack_all s core line
  let u := overtake (writeBack s core line (~~~0#128) [] 0) core line
  have hover : ∀ f ∈ u.m.fills, f.core = core → f.line = line → f.overtaken = true := by
    intro f hf hc hl
    obtain ⟨g, -, rfl⟩ := List.mem_map.1 hf
    by_cases h : g.core = core ∧ g.line = line
    · rw [if_pos h]
    · rw [if_neg h] at hc hl
      exact absurd (And.intro hc hl) h
  have hprobe : execProbe core line (partOfCore s core) s = .next (match l1Find u core line with
      | some x => l1Put u { x with valid := 0 }
      | none => u) := by
    unfold execProbe
    simp only [hready]
    rfl
  refine ⟨_, hprobe, ?_⟩
  cases hx : l1Find u core line with
  | none => exact ⟨hmem, fun y hy => by simp [hx] at hy, hover, rfl⟩
  | some x =>
    obtain ⟨hc, hl⟩ := l1Find_key hx
    refine ⟨hmem, fun y hy => ?_, hover, rfl⟩
    have hput := (l1Find_l1Put u { x with valid := 0 } core line).symm.trans hy
    rw [if_pos ⟨hc.symm, hl.symm⟩] at hput
    split at hput
    · cases hput; exact ⟨rfl, hreg x hx⟩
    · cases hput

/-! ## Invalidations -/

/-- Dropping the visitor copies of some dies changes the slices' lines and the fills alone. -/
theorem dropVisitors_eq (dies : List Nat) (s : State) : ∃ l2 fills,
    dies.foldl (fun s die => dropVisitor s die line) s = s.modM (fun m => { m with l2 := l2, fills := fills }) ∧
      (∀ y, y ∈ l2 ↔ y ∈ s.m.l2 ∧ ¬ (y.line = line ∧ y.visitor.isSome ∧ ∃ die ∈ dies, y.slice = visitorSlice die line)) ∧
      ∀ f ∈ fills, ∃ g ∈ s.m.fills, f.core = g.core ∧ f.line = g.line ∧ f.overtaken = g.overtaken ∧ (g.novis = true → f.novis = true) ∧
        (coreDie f.core ∈ dies → f.line = line → f.novis = true) := by
  induction dies generalizing s with
  | nil => exact ⟨_, _, rfl, by simp, fun f hf => ⟨f, hf, rfl, rfl, rfl, id, by simp⟩⟩
  | cons die dies ih =>
    obtain ⟨l2, fills, he, hl2, hfills⟩ := ih (dropVisitor s die line)
    refine ⟨l2, fills, he, fun y => (hl2 y).trans ?_, fun f hf => ?_⟩
    · have hdrop : y ∈ (dropVisitor s die line).m.l2 ↔ y ∈ s.m.l2 ∧ ¬ (y.slice = visitorSlice die line ∧ y.line = line ∧ y.visitor.isSome = true) :=
        List.mem_filter.trans (and_congr_right fun _ => by
          rw [Bool.not_eq_true', ← Bool.not_eq_true, Bool.and_eq_true, Bool.and_eq_true, beq_iff_eq, beq_iff_eq, and_assoc])
      rw [hdrop, List.exists_mem_cons_iff]
      clear ih he hl2 hfills hdrop
      grind
    · obtain ⟨g, hg, hc, hl, ho, hn, hv⟩ := hfills f hf
      obtain ⟨k, hk, rfl⟩ := List.mem_map.1 hg
      refine ⟨k, hk, ?_⟩
      split at hc
      · next hd => exact ⟨hc, by simpa [hd] using hl, by simpa [hd] using ho, fun _ => hn (by simp [hd]), fun _ _ => hn (by simp [hd])⟩
      · next hd =>
        simp only [hd, if_false] at hl ho hn
        refine ⟨hc, hl, ho, hn, fun hm hfl => ?_⟩
        obtain h | h := List.mem_cons.1 hm
        · exact absurd ⟨by rw [← hc]; exact h, by rw [← hl]; exact hfl⟩ hd
        · exact hv h hfl

/-! ## The link -/

/-- A push reaches host memory. -/
theorem link_push (hwf : Memory.wf s.m.hostMem = true) {mask : ByteMask} {bs : LineBits} {ws : List Who} {rest : List HostPend}
    (hq : s.m.hostQ = .push line mask bs ws :: rest) (status : Nat) :
    ∃ u, execHostLinkAcknowledge status s = .next (addWbs u ws (-1)) ∧ u.m.hostQ = rest ∧ u.m.mem = s.m.mem ∧ u.stands = s.stands ∧
      ∀ b, memByte u.m.hostMem b = if hostAddr s (line * 128) ≤ b ∧ mask.getLsbD (b - hostAddr s (line * 128)) = true
        then lineByte bs (b - hostAddr s (line * 128)) else memByte s.m.hostMem b := by
  let u := s.modM (fun m => { m with hostQ := rest, hostMem := memMerge m.hostMem (hostAddr s (line * 128)) mask bs })
  have hm : u.m.hostMem = memMerge s.m.hostMem (hostAddr s (line * 128)) mask bs := rfl
  refine ⟨u, ?_, rfl, rfl, rfl, fun b => by rw [hm, memByte_memMerge hwf]⟩
  unfold execHostLinkAcknowledge
  rw [hq]
  rfl

theorem m_addWbs (ws : List Who) (n : Int) (s : State) : (addWbs s ws n).m = s.m := by
  induction ws generalizing s with
  | nil => rfl
  | cons w ws ih => exact ih _

/-- The bytes of host memory of an atomic that the host has performed. -/
theorem link_atom_done (hwf : Memory.wf s.m.hostMem = true) {op : HomeOp} {w : Who} {old : Nat}
    (ho : old = ((List.range op.size).map (fun k => (memByte s.m.hostMem (hostAddr s op.addr + k)).toNat * 2 ^ (8 * k))).sum) :
    ∃ u, hostAtomDone s op w true = modGrove u w (tookReply op.lane (BitVec.ofNat 64 old) 0) ∧ u.m.hostQ = s.m.hostQ ∧ u.stands = s.stands ∧
      ∀ k, k < op.size → memByte u.m.hostMem (hostAddr s op.addr + k) = BitVec.ofNat 8 (((atomicNew op old).1).getD old / 2 ^ (8 * k)) := by
  have hdrop (u : State) : (dropHostCopies u w (op.addr / 128)).m.hostQ = u.m.hostQ ∧ (dropHostCopies u w (op.addr / 128)).stands = u.stands ∧
      (dropHostCopies u w (op.addr / 128)).m.hostMem = u.m.hostMem := by
    unfold dropHostCopies
    split
    · unfold invalidateLine
      split <;> exact ⟨rfl, rfl, rfl⟩
    · exact ⟨rfl, rfl, rfl⟩
  have hold : ofBytes (memBytes s.m.hostMem (hostAddr s op.addr) op.size) = old := (ofBytes_map_range _ _).trans ho.symm
  unfold hostAtomDone
  rw [if_pos rfl]
  simp only [hold, atomReply_eq]
  refine ⟨_, rfl, ?_⟩
  rw [(hdrop _).1, (hdrop _).2.1, (hdrop _).2.2]
  cases hv : (atomicNew op old).1 with
  | none =>
    refine ⟨rfl, rfl, fun k hk => ?_⟩
    rw [Option.getD_none, ho, ← ofBytes_map_range]
    exact (byte_of_ofBytes (fun k => memByte s.m.hostMem (hostAddr s op.addr + k)) hk).symm
  | some v =>
    refine ⟨rfl, rfl, fun k hk => ?_⟩
    refine (memByte_memSetBytes hwf _ _ _).trans ?_
    rw [length_toBytes, if_pos (by omega), Nat.add_sub_cancel_left, getD_toBytes v hk]
    rfl

/-- A grove whose atomic the host has not performed. -/
def failedAtom (lane : Nat) (g : Grove) : Grove :=
  { g with
    outStores := g.outStores - 1
    prog := { g.prog with faults := g.prog.faults ++ [⟨lane, cHOSTATOMIC, 3, 0⟩] } }

theorem link_atom_failed (s : State) (op : HomeOp) (w : Who) : hostAtomDone s op w false = modGrove s w (failedAtom op.lane) := by
  unfold hostAtomDone
  rw [if_neg (by decide), addOut_neg]
  exact modGrove_modGrove (f := performedStore) (h := fun g => { g with prog := { g.prog with faults := g.prog.faults ++ [⟨op.lane, cHOSTATOMIC, 3, 0⟩] } })
    (fun _ => rfl) s w

/-! ## Stores of the host to its own memory -/

/-- The memories and the stands. -/
def State.stores (s : State) : List Cell × List Cell × List Stand := (s.m.mem, s.m.hostMem, s.stands)

theorem stores_foldl {α : Type} {f : State → α → State} (h : ∀ s x, (f s x).stores = s.stores) (l : List α) (s : State) :
    (l.foldl f s).stores = s.stores := by
  induction l generalizing s with
  | nil => rfl
  | cons x l ih => exact (ih _).trans (h s x)

section
variable (h : ∀ s : State, regionOf s (line * 128) = .host)
include h

theorem stores_homeWrite (s : State) (mask : ByteMask) (d : LineBits) (clean : ByteMask) (whos : List Who) :
    (homeWrite s line mask d clean whos).stores = s.stores := by
  unfold homeWrite
  simp only [h]
  rfl

theorem stores_loseWords (s : State) (words : ByteMask) : (loseWords s line words).stores = s.stores := by
  by_cases hz : words = 0#128
  · rw [loseWords, if_pos hz]
  have hp (u : State) : (poisonLost u line).stores = u.stores := by
    unfold poisonLost; split <;> rfl
  have hb : (loseBytes s line words).stores = s.stores := by
    unfold loseBytes
    rw [h]
    simp only
    split <;> rfl
  rw [loseWords_eq s line hz]
  split
  · exact hb
  · exact (hp _).trans hb

theorem stores_settleFlight (s : State) (core : Nat) (words : ByteMask) : (settleFlight s core line words).stores = s.stores := by
  refine stores_foldl (fun u t => ?_) s.m.toSlice s
  split
  · split
    · exact stores_homeWrite h ..
    · exact stores_homeWrite h ..
    · rfl
  · rfl

omit h in
theorem stores_giveUp (s : State) (core : Nat) (words : ByteMask) : (giveUp s core line words).2.stores = s.stores := by
  unfold giveUp
  split
  · rfl
  · next x _ =>
    have hb (u : State) (n : Nat) : (bumpPred u core line n).stores = u.stores := by
      unfold bumpPred; split <;> rfl
    have hs (u : State) (a : Leaving) : (settleReplies (overtake u core line) core line a).stores = u.stores := rfl
    have hv (u : State) (die : Nat) : (dropVisitor u die line).stores = u.stores := rfl
    have hgive := (hs _ (x.leave words).1).trans (hb (l1Put s (gaveUp x words)) (pulledElems x.pulled words).1)
    split
    · exact hgive
    · exact (hv _ _).trans hgive

theorem stores_recallWords (s : State) (pick : FirnEntry → ByteMask) : (recallWords s line pick).stores = s.stores := by
  unfold recallWords
  refine (stores_foldl (fun u q => ?_) _ _).trans (stores_foldl (fun u q => ?_) _ _)
  · exact (stores_homeWrite h ..).trans (stores_giveUp ..)
  · exact (stores_loseWords h ..).trans ((stores_homeWrite h ..).trans (stores_settleFlight h ..))

/-- Before a store of the host, its line's words reach host memory, and nothing else of device memory or of the stands changes. -/
theorem snoopLine_keeps (hwf : Memory.wf s.m.hostMem = true) : (snoopLine s line).m.mem = s.m.mem ∧ (snoopLine s line).stands = s.stands ∧
    Memory.wf (snoopLine s line).m.hostMem = true := by
  have hrec := stores_recallWords h s (fun e => wordsOf e.mask &&& ~~~wordsOf (k01Bytes s e.core line))
  simp only [State.stores, Prod.mk.injEq] at hrec
  obtain ⟨hmem, hhost, hst⟩ := hrec
  have hwf' (u : State) (hu : Memory.wf u.m.hostMem = true) : Memory.wf (landPushes u line).m.hostMem = true :=
    foldl_wf _ (fun m q hm => by
      split
      · split
        · exact memMerge_wf hm _ _ _
        · exact hm
      · exact hm) u.m.hostQ hu
  unfold snoopLine
  extract_lets u v w
  obtain ⟨l2, fills, he, -⟩ := dropVisitors_eq (line := line) (List.range 4) w
  rw [he]
  exact ⟨hmem, hst, hwf' u (by rwa [hhost])⟩

end

/-- With no word registered and nothing on its way to the host, this changes copies alone. -/
theorem snoopLine_quiet (hf : s.m.firn = []) (hq : s.m.hostQ = []) : (snoopLine s line).d = s.d ∧ (snoopLine s line).m.hostMem = s.m.hostMem ∧
    (snoopLine s line).m.firn = [] ∧ (snoopLine s line).m.hostQ = [] := by
  have hrec (pick : FirnEntry → ByteMask) : recallWords s line pick = s := recallWords_none (fun e he => by rw [hf] at he; cases he) pick
  have hland : landPushes s line = s.modM (fun m => { m with hostMem := s.m.hostMem, hostQ := [] }) := by
    unfold landPushes State.modM
    simp only [hq]
    rfl
  unfold snoopLine
  simp only [hrec, hland]
  obtain ⟨l2, fills, he, -⟩ := dropVisitors_eq (line := line) (List.range 4) ((s.modM (fun m => { m with hostMem := s.m.hostMem, hostQ := [] })).modM
    (fun m => { m with
      hostLines := m.hostLines.filter (fun h => h.line ≠ line || h.k01)
      fills := m.fills.map (fun f => if f.line = line ∧ !f.kind01 then { f with overtaken := true } else f) }))
  rw [he]
  exact ⟨rfl, rfl, hf, rfl⟩

theorem region_apertureLine {a n : Nat} (hl : line ∈ apertureLines s a n) (t : State) : regionOf t (line * 128) = .host := by
  obtain ⟨o, ho, rfl⟩ := List.mem_map.1 (List.mem_eraseDups.1 hl)
  have ho : o < 4398046511104 := by simpa using (List.mem_filter.1 ho).2
  unfold regionOf
  rw [if_neg (by omega), if_neg (by omega), if_neg (by omega), if_neg (by omega), if_neg (by omega), if_pos (by omega)]

theorem snoopLines_keep {lines : List Nat} (h : ∀ l ∈ lines, ∀ t : State, regionOf t (l * 128) = .host) (hwf : Memory.wf s.m.hostMem = true) :
    (lines.foldl snoopLine s).m.mem = s.m.mem ∧ (lines.foldl snoopLine s).stands = s.stands ∧
      Memory.wf (lines.foldl snoopLine s).m.hostMem = true ∧
      (s.m.firn = [] → s.m.hostQ = [] → (lines.foldl snoopLine s).d = s.d ∧ (lines.foldl snoopLine s).m.hostMem = s.m.hostMem) := by
  induction lines generalizing s with
  | nil => exact ⟨rfl, rfl, hwf, fun _ _ => ⟨rfl, rfl⟩⟩
  | cons l ls ih =>
    obtain ⟨hmem, hst, hwf'⟩ := snoopLine_keeps (h l List.mem_cons_self) hwf
    obtain ⟨im, is, iw, iq⟩ := ih (s := snoopLine s l) (fun k hk => h k (List.mem_cons_of_mem l hk)) hwf'
    refine ⟨im.trans hmem, is.trans hst, iw, fun hf hq => ?_⟩
    obtain ⟨hd, hh, hf', hq'⟩ := snoopLine_quiet (line := l) hf hq
    obtain ⟨jd, jh⟩ := iq hf' hq'
    exact ⟨jd.trans hd, jh.trans hh⟩

/-- A store of the host to its own memory. -/
theorem hostStore_stores (hwf : Memory.wf s.m.hostMem = true) (a : Nat) (bs : List Byte) :
    (hostStore s a bs).m.mem = s.m.mem ∧ (hostStore s a bs).stands = s.stands ∧
      (∀ k, k < bs.length → memByte (hostStore s a bs).m.hostMem (a + k) = bs.getD k 0) ∧
      (s.m.firn = [] → s.m.hostQ = [] → (hostStore s a bs).d = s.d ∧
        ∀ b, b < a ∨ a + bs.length ≤ b → memByte (hostStore s a bs).m.hostMem b = memByte s.m.hostMem b) := by
  obtain ⟨hmem, hst, hwf', hq⟩ := snoopLines_keep (fun l hl => region_apertureLine (s := s) (a := a) (n := bs.length) hl) hwf
  refine ⟨hmem, hst, fun k hk => ?_, fun hf hq' => ?_⟩
  · refine (memByte_memSetBytes hwf' _ _ _).trans ?_
    rw [if_pos (by omega), Nat.add_sub_cancel_left]
  · obtain ⟨hd, hh⟩ := hq hf hq'
    refine ⟨hd, fun b hb => (memByte_memSetBytes hwf' _ _ _).trans ?_⟩
    rw [if_neg (by omega), hh]

end Sys2Proof.Machine
end

section
/-! # The statement on requests of the host and of modules (18 R373 to R375) -/

namespace Sys2Proof

open Machine

section
variable {s : State} {a n : Nat}

/-! ## Requests served at once -/

theorem HbmSpan.hostRead (h : HbmSpan s a n) : exec (.hostRead a n) s = .next (outsideRead s a n) := by
  have hp : pf0Reg a n = false := pf0Reg_eq_false (s := s) h.some (by rw [h.region h.some]; decide)
  refine next_eq ?_
  simp [hp, h.notBarred, h.outside, hostServed, hostReady_idle h.idle]

theorem HbmSpan.hostWrite {bs : List Byte} (h : HbmSpan s a bs.length) : exec (.hostWrite a bs) s = .next (outsideWrite s a bs) := by
  refine next_eq ?_
  simp [h.notBarred, h.noAlias, h.outside, hostServed, hostReady_idle h.idle]

/-- The bytes that another module's request may reach. -/
theorem HbmSpan.remote (h : HbmSpan s a n) (write : Bool) :
    spanAll a n (fun pa => !hostBarred s pa && (outsideByte s pa || regionOf s pa == .host) && !(write && i4xAlias s pa)) = true :=
  spanAll_eq_true.2 fun k hk => by
    rw [spanAny_eq_false.1 h.notBarred k hk, spanAll_eq_true.1 h.outside k hk, spanAny_eq_false.1 h.noAlias k hk, Bool.and_false]
    rfl

theorem HbmSpan.remoteRead (h : HbmSpan s a n) (hh : HostLeaves s a n) (bs : List Byte) :
    exec (.remoteRequest false a n bs) s = .next (outsideRead s a n) := by
  refine next_eq ?_
  have hr := h.remote false
  simp only [Bool.false_eq_true, if_false, hr, spanReady_idle h.idle hh]
  rfl

theorem HbmSpan.remoteWrite {bs : List Byte} (h : HbmSpan s a bs.length) (hh : HostLeaves s a bs.length) (n : Nat) :
    exec (.remoteRequest true a n bs) s = .next (outsideWrite s a bs) := by
  refine next_eq ?_
  have hr := h.remote true
  simp only [if_true, hr, spanReady_idle h.idle hh]
  rfl

/-- A byte of no region makes a read unsupported. -/
theorem hole_reads (h : ∃ k, k < n ∧ regionOf s (a + k) = .hole) : exec (.hostRead a n) s = .next (answer s unsupported) ∧
    exec (.remoteRequest false a n []) s = .next (answer s unsupported) := by
  obtain ⟨k, hk, hr⟩ := h
  have hp : pf0Reg a n = false := pf0Reg_eq_false (s := s) hk (by rw [hr]; decide)
  have hout : outsideByte s (a + k) = false := by rw [outsideByte, hr]
  have hspan (f : Nat → Bool) (hf : f (a + k) = false) : spanAll a n f = false := by
    rw [Bool.eq_false_iff]
    exact fun hs => by rw [spanAll_eq_true.1 hs k hk] at hf; cases hf
  refine ⟨next_eq ?_, next_eq ?_⟩
  · simp [hp, hspan _ hout]
  · simp only [Bool.false_eq_true, if_false]
    rw [hspan _ (by rw [hout, hr]; simp)]
    rfl

theorem barred_write {bs : List Byte} (h : ∃ k, k < bs.length ∧ hostBarred s (a + k) = true) :
    exec (.hostWrite a bs) s = .next (answer (countHwdrop s) ⟨false, false, []⟩) := by
  obtain ⟨k, hk, hb⟩ := h
  have hspan : spanAny a bs.length (hostBarred s) = true := by
    by_contra hc
    rw [Bool.not_eq_true] at hc
    rw [spanAny_eq_false.1 hc k hk] at hb
    cases hb
  refine next_eq ?_
  simp [hspan]

theorem HbmSpan.hostAtomic (h : HbmSpan s a n) (hn : n = 4 ∨ n = 8) (ha : a % n = 0) {op : Nat} (hop : op = 0 ∨ op = 6 ∨ op = 7) (x y : Word) :
    exec (.hostAtomicop a n op x y) s = .next (hostAtomNow s a n op x y) := by
  have hw : windowAt s a = none := (h.bytes 0 h.some).2.2.1
  have hok : hostAtomOk s a n op = true := by
    simp [hostAtomOk, h.notBarred, h.outside, hw, ha, hn, or_assoc, hop]
  refine next_eq ?_
  simp only [hok, hostServed, hostReady_idle h.idle, if_true]

/-- What the host's three AtomicOps make of an element. -/
theorem atomicNew_host (hn : n = 4 ∨ n = 8) {op : Nat} (hop : op = 0 ∨ op = 6 ∨ op = 7) (x y : Word) (old : Nat) :
    ((atomicNew ⟨op, a, n, x, y, if n = 4 then 6 else 7, 0, 0⟩ old).1).getD old =
      if op = 0 then (old + x.toNat) % 2 ^ (8 * n) else if op = 6 then x.toNat % 2 ^ (8 * n)
        else if old = x.toNat % 2 ^ (8 * n) then y.toNat % 2 ^ (8 * n) else old := by
  have hw : typeBits (if n = 4 then 6 else 7) = 8 * n := by obtain rfl | rfl := hn <;> rfl
  obtain rfl | rfl | rfl := hop
  · simp [atomicNew, hw]
  · simp [atomicNew, hw]
  · simp only [atomicNew, hw]
    split <;> simp [*]

theorem firmwareByte_span (h : HbmSpan s a n) : spanAll a n (firmwareByte s) = true :=
  spanAll_eq_true.2 fun k hk => by
    have hb := spanAny_eq_false.1 h.notBarred k hk
    rw [hostBarred, Bool.or_eq_false_iff] at hb
    rw [firmwareByte, spanAll_eq_true.1 h.outside k hk, hb.2]
    rfl

theorem inputOf_firmwareLoad (hf : s.d.mgmt.fatal = none) (hr : s.d.mgmt.fwRunning = true) (h : HbmSpan s a n) (hh : HostLeaves s a n) :
    inputOf (.firmwareLoad a n) s = outsideRead s a n := by
  have hreg : regionOf s a = .hbm := h.region h.some
  simp [inputOf, hf, hr, firmwareLoad, hreg, firmwareByte_span h, spanReady_idle h.idle hh]

theorem inputOf_firmwareStore (hf : s.d.mgmt.fatal = none) (hr : s.d.mgmt.fwRunning = true) {bs : List Byte} (h : HbmSpan s a bs.length)
    (hh : HostLeaves s a bs.length) : inputOf (.firmwareStore a bs) s = outsideWrite s a bs := by
  simp [inputOf, hf, hr, firmwareStore, firmwareByte_span h, h.noAlias, spanReady_idle h.idle hh]

end

/-- Settles O51: it holds, request by request. -/
theorem hostAndModuleRequests : Obligations.HostAndModuleRequests := by
  unfold Obligations.HostAndModuleRequests
  intro s hform
  obtain ⟨hmem, hhost, -, hhalves, -⟩ := id hform
  refine ⟨?reads, ?holes, ?writes, ?barred, ?atomics, ?halves, ?recalled, ?probes, ?invalidate, ?push, ?linkAtom, ?peer, ?expander, ?store,
    ?firmware, ?noFirmware⟩
  case reads =>
    exact fun a n h => ⟨⟨_, h.hostRead, readAnswer_outsideRead h.idle⟩, fun hh => ⟨_, h.remoteRead hh [], readAnswer_outsideRead h.idle⟩⟩
  case holes =>
    intro a n h
    obtain ⟨hr, hm⟩ := hole_reads h
    exact ⟨⟨_, hr, rfl, rfl⟩, _, hm, rfl, rfl⟩
  case writes =>
    intro a bs h
    have hst := stored_outsideWrite hmem h.idle
    exact ⟨⟨_, h.hostWrite, hst⟩, fun hh => ⟨_, h.remoteWrite hh 0, hst⟩⟩
  case barred =>
    exact fun a bs h => ⟨_, barred_write h, rfl, rfl, rfl⟩
  case atomics =>
    intro a size op x y h hn ha hop hgood old new
    obtain ⟨hbytes, hst⟩ := homeAtomNow_idle hmem h.idle h.some hgood ⟨op, a, size, x, y, if size = 4 then 6 else 7, 0, 0⟩ (old := old) rfl
    rw [atomicNew_host hn hop] at hst
    exact ⟨_, h.hostAtomic hn ha hop x y, hbytes, hst⟩
  case halves =>
    intro half h
    have htakes (v : Nat) (hh : halfState s half ≠ 2) := hostTakes_span hhalves h hh v
    refine ⟨fun hh => ⟨_, rfl, htakes 2 hh⟩, fun hh => ?_, fun hh => ⟨_, rfl, htakes 1 hh⟩⟩
    have hkeeps (v : Nat) : hostTakes s half v = s := if_pos (by simpa using hh)
    exact ⟨next_eq (hkeeps 2), next_eq (hkeeps 1)⟩
  case recalled =>
    intro half bs w hfind hfirst hn hb hr
    have hl : w.line = half / 2 := by simpa using List.find?_some hfirst
    refine ⟨_, next_eq ?_, recalledHalf_waits hform hl hfirst hn hb hr⟩
    rw [hfind]
  case probes =>
    intro core line p named
    refine ⟨fun h => ?_, fun h => ?_, fun tag htag => next_eq (if_neg (Ne.symm htag))⟩
    · obtain ⟨x, hx, hne⟩ := h
      refine next_eq ?_
      have hready : wbReady s core line (~~~0#128) = false := by
        rw [wbReady, hx, Option.map_some, Option.getD_some, and_all]
        simpa using hne
      rw [if_pos (show partOfCore s core = p from rfl), hready]
      rfl
    · obtain ⟨t, he, hm, hl1, hfills, hts⟩ := probe_own h
      obtain ⟨-, -, hwb⟩ := writeBack_all s core line
      refine ⟨t, he, hm, hl1, hfills, fun x hx => ?_⟩
      rw [hts]
      exact hwb x hx
  case invalidate =>
    intro line
    obtain ⟨l2, fills, he, hl2, hfills⟩ := dropVisitors_eq (line := line) (List.range 4) (s.modM (fun m => { m with
      hostLines := m.hostLines.filter (fun h => h.line ≠ line)
      fills := m.fills.map (fun f => if f.line = line then { f with overtaken := true } else f) }))
    refine ⟨_, next_eq he, rfl, rfl, rfl, rfl, fun f hf hfl => ?_, fun y => ?_⟩
    · obtain ⟨g, hg, hc, hl, ho, -, hv⟩ := hfills f hf
      obtain ⟨k, -, rfl⟩ := List.mem_map.1 hg
      refine ⟨?_, fun hd => hv (List.mem_range.2 hd) hfl⟩
      by_cases hk : k.line = line
      · simpa [hk] using ho
      · simp only [hk, if_false] at hl
        exact absurd (hl.symm.trans hfl) hk
    · simpa using hl2 y
  case push =>
    intro line mask bs ws rest status hq a
    obtain ⟨u, he, hrest, hm, hst, hbyte⟩ := link_push hhost hq status
    refine ⟨_, he, (congrArg (·.hostQ) (m_addWbs ..)).trans hrest, (congrArg (·.mem) (m_addWbs ..)).trans hm, fun k hk => ?_, fun b hb => ?_,
      fun hw => by rw [hw]; exact hst, fun q g hw hg => ?_⟩
    · rw [m_addWbs, hbyte, show hostAddr s (line * 128) = a from rfl, Nat.add_sub_cancel_left, if_congr (and_iff_right (Nat.le_add_right a k)) rfl rfl]
      rfl
    · rw [m_addWbs, hbyte, show hostAddr s (line * 128) = a from rfl, if_neg]
      rintro ⟨hle, hbit⟩
      have := getLsbD_lt hbit
      omega
    · rw [hw, addWbs_neg]
      exact groveNow_some hg hst fun _ => rfl
  case linkAtom =>
    intro op q rest status st g hq hs hg hlane a old new
    have hex : exec (.hostLinkAcknowledge status) s = .next (hostAtomDone (s.modM (fun m => { m with hostQ := rest })) op q (status == 0)) :=
      next_eq (by rw [hq])
    have hnow : groveNow (s.modM (fun m => { m with hostQ := rest })) q = some g :=
      (congrArg (·.bind (fun u => u.grove? q.slot)) (show (s.modM _).stand? q.uid = some st from hs)).trans hg
    by_cases hz : status = 0
    · obtain ⟨u, he, hrest, hst, hbyte⟩ := link_atom_done (s := s.modM (fun m => { m with hostQ := rest })) hhost (op := op) (w := q) (old := old) rfl
      rw [show (status == 0) = true by simpa using hz, he] at hex
      refine ⟨_, _, hex, hrest, groveNow_some hnow hst fun _ => rfl, rfl, fun _ => ⟨?_, hbyte⟩, fun h => absurd hz h⟩
      simp only [tookReply, Nat.ne_of_lt hlane, false_or]
      split <;> simp
    · rw [show (status == 0) = false by simpa using hz, link_atom_failed] at hex
      exact ⟨_, _, hex, rfl, groveNow_some hnow rfl fun _ => rfl, rfl, fun h => absurd h hz, fun _ => ⟨rfl, List.map_append⟩⟩
  case peer =>
    intro port n
    refine ⟨_, rfl, rfl, rfl, ?_, rfl⟩
    show port ∈ if s.d.peersDown.contains port then s.d.peersDown else port :: s.d.peersDown
    split <;> simp_all
  case expander =>
    intro port
    refine ⟨_, rfl, rfl, rfl, fun p => ?_⟩
    show p ∈ (if s.d.removed.contains port then s.d.removed else port :: s.d.removed) ↔ _
    split <;> simp_all
  case store => exact fun a bs => hostStore_stores hhost a bs
  case firmware =>
    refine fun hf hr => ⟨fun a n h hh => ?_, fun a bs h hh => ?_⟩
    · rw [inputOf_firmwareLoad hf hr h hh]
      exact readAnswer_outsideRead h.idle
    · rw [inputOf_firmwareStore hf hr h hh]
      exact (stored_outsideWrite hmem h.idle).1
  case noFirmware =>
    rintro i hr (⟨a, n, rfl⟩ | ⟨a, bs, rfl⟩ | ⟨a, n, k, rfl⟩ | ⟨n, rfl⟩) <;> simp [inputOf, hr]

end Sys2Proof
end

section
/-! # Accesses to plain bytes (02 R41, R46; 13 R278)

Lanes whose bytes lie in one page each, in HBM outside windows and coded ranges: their translation is at hand and no check refuses them. -/

namespace Sys2Proof

open Machine

variable {s : State} {st : Stand} {slot acc va n pa : Nat}

/-- A run inside a page is one run. -/
theorem pageRuns_one (hn : 0 < n) (h : va % 4096 + n ≤ 4096) (fuel : Nat) : pageRuns (fuel + 2) va n = [(va, n)] := by
  have hmin : min (4096 - va % 4096) n = n := by omega
  simp only [pageRuns, hmin, Nat.sub_self, if_true]
  rw [if_neg (by omega)]

theorem Plain.notRemote (h : Plain s st slot acc va n pa) (hn : 0 < n) : isRemote pa = false := by
  obtain ⟨hr, -⟩ := h.hbm 0 hn
  exact decide_eq_false (by omega)

theorem Plain.window (h : Plain s st slot acc va n pa) (hn : 0 < n) : windowAt s pa = none := (h.hbm 0 hn).2.2.1

theorem Plain.region (h : Plain s st slot acc va n pa) (hn : 0 < n) (t : State) : regionOf t pa = .hbm := Hbm.region (h.hbm 0 hn).1 t

/-- No condition of an access holds of plain bytes. -/
theorem Plain.pieceFault (h : Plain s st slot acc va n pa) (hn : 0 < n) (part : Nat) (use : Use) (whole : Bool) (cond : Nat) :
    pieceFault s part use whole pa n 0 cond = none := by
  have hres : resultFault s pa = none := by
    rw [resultFault, if_neg (by rw [h.notRemote hn]; decide), if_neg (by rw [show inSaveArea s pa = false from (h.hbm 0 hn).2.2.2]; decide),
      if_neg (by rw [isHole, h.region hn]; exact Bool.false_ne_true)]
  have hcoded : (List.range n).find? (fun i => inCoded s (pa + i)) = none :=
    List.find?_eq_none.2 fun i hi => by rw [(h.hbm i (List.mem_range.1 hi)).2.1]; decide
  unfold Machine.pieceFault
  simp only [h.notRemote hn, h.window hn, h.region hn, hres, hcoded]
  split <;> simp

/-! ## Parts of a lane's bytes -/

/-- A page that is found leads on to the bytes behind. -/
theorem lookup_add {u : Mmu} {kind k : Nat} (h : lookup s u va acc = .ok pa kind) (hk : va % 4096 + k < 4096) :
    lookup s u (va + k) acc = .ok (pa + k) kind := by
  have hpage : (va + k) / 4096 = va / 4096 ∧ (va + k) % 4096 = va % 4096 + k := by omega
  have hcan : canonical (va + k) = canonical va := by
    have hb : (va + k) >>> 56 = va >>> 56 := by
      rw [Nat.shiftRight_eq_div_pow, Nat.shiftRight_eq_div_pow]
      omega
    rw [canonical, canonical, bits, bits, hb]
  unfold lookup at h ⊢
  rw [hcan, hpage.1, hpage.2]
  simp only at h ⊢
  split at h
  · cases h
  next h1 =>
  rw [if_neg h1]
  split at h
  · cases h
  next h2 =>
  split at h
  · cases h
  next x h3 =>
  repeat' split at h
  all_goals cases h
  next h4 h5 h6 h7 h8 => rw [if_neg h4, if_neg h5, if_neg h6, if_neg h7, if_neg h8, Nat.add_assoc]

/-- Bytes inside plain bytes are plain. -/
theorem Plain.part (h : Plain s st slot acc va n pa) {k m : Nat} (hm : 0 < m) (hk : k + m ≤ n) : Plain s st slot acc (va + k) m (pa + k) := by
  have hin := h.inPage
  refine ⟨by omega, lookup_add h.page (by omega), fun j hj => ?_⟩
  have := h.hbm (k + j) (by omega)
  rwa [← Nat.add_assoc] at this

/-- Parts of `n` bytes: places and lengths. -/
def Parts (n : Nat) (qs : List (Nat × Nat)) : Prop := ∀ q ∈ qs, 0 < q.2 ∧ q.1 + q.2 ≤ n

/-- The runs of some parts. -/
def partSegs (pa : Nat) (qs : List (Nat × Nat)) : List Seg := qs.map (fun q => ⟨pa + q.1, q.2, 0⟩)

/-- The translation of parts of plain bytes. -/
theorem Plain.translateParts (h : Plain s st slot acc va n pa) {qs : List (Nat × Nat)} (hq : Parts n qs) (use : Use) :
    Machine.translateRuns s (st.mmu true slot) (qs.map (fun q => (va + q.1, q.2))) acc use = .ok (partSegs pa qs) := by
  have hruns : ((qs.map (fun q => (va + q.1, q.2))).flatMap (fun r => pageRuns (r.2 / 4096 + 2) r.1 r.2)).map
      (fun r => (r, lookup s (st.mmu true slot) r.1 acc)) = qs.map (fun q => ((va + q.1, q.2), Tr.ok (pa + q.1) 0)) := by
    rw [List.flatMap_map, List.map_flatMap, ← List.flatMap_singleton' (qs.map _), List.flatMap_map]
    refine List.flatMap_congr fun q hm => ?_
    obtain ⟨hpos, hle⟩ := hq q hm
    have hp := h.part hpos hle
    rw [pageRuns_one hpos hp.inPage, List.map_singleton, hp.page]
  have hmiss : (qs.map (fun q => ((va + q.1, q.2), Tr.ok (pa + q.1) 0))).filter (fun r => r.2 == .miss) = [] := by
    refine List.filter_eq_nil_iff.2 fun r hr => ?_
    obtain ⟨q, -, rfl⟩ := List.mem_map.1 hr
    exact Bool.false_ne_true
  have hfault : laneFault s (st.mmu true slot).part use (qs.map (fun q => ((va + q.1, q.2), Tr.ok (pa + q.1) 0))) = none := by
    have hp (w : Bool) (c : Nat) (q) (hm : q ∈ qs) : Machine.pieceFault s (st.mmu true slot).part use w (pa + q.1) q.2 0 c = none :=
      (h.part (hq q hm).1 (hq q hm).2).pieceFault (hq q hm).1 _ use w c
    have hnone {f : (Nat × Nat) × Tr → Option (Nat × Nat × Nat)} (hf : ∀ q ∈ qs, f ((va + q.1, q.2), Tr.ok (pa + q.1) 0) = none) :
        (qs.map (fun q => ((va + q.1, q.2), Tr.ok (pa + q.1) 0))).findSome? f = none :=
      List.findSome?_eq_none_iff.2 fun r hr => by
        obtain ⟨q, hm, rfl⟩ := List.mem_map.1 hr
        exact hf q hm
    unfold laneFault
    extract_lets whole piece walked
    have hpiece (c : Nat) : piece c = none := hnone fun q hm => by
      rw [Option.bind_some, hp whole c q hm]
      rfl
    have hwalked (k : Nat) : (qs.map (fun q => ((va + q.1, q.2), Tr.ok (pa + q.1) 0))).findSome? (walked k) = none := hnone fun q hm => by
      simp [walked, hp whole 3 q hm]
    simp [hpiece, hwalked]
  unfold Machine.translateRuns
  simp only [hruns, hmiss, hfault]
  exact congrArg LaneTr.ok (List.filterMap_map.trans (congrFun List.filterMap_eq_map qs))

/-- The lanes of an access with the parts of their bytes. -/
def partLanes (pa : Nat → Nat) (qs : Nat → List (Nat × Nat)) (lanes : List Nat) : List LaneSegs := lanes.map (fun l => ⟨l, partSegs (pa l) (qs l)⟩)

/-- What the lanes want. -/
def partWants (va : Nat → Nat) (qs : Nat → List (Nat × Nat)) (lanes : List Nat) : List Want :=
  lanes.map (fun l => ⟨l, (qs l).map (fun q => (va l + q.1, q.2))⟩)

section
variable {va pa : Nat → Nat} {qs : Nat → List (Nat × Nat)} {lanes : List Nat}

/-- The lanes are translated one after another. -/
theorem translateLanes_parts (use : Use) (h : ∀ l ∈ lanes, Plain s st slot acc (va l) n (pa l)) (hq : ∀ l ∈ lanes, Parts n (qs l)) (hd : lanes.Nodup)
    {segs : List LaneSegs} (hs : ∀ y ∈ segs, y.lane ∉ lanes) :
    (partWants va qs lanes).foldl (translateLane s (st.mmu true slot) acc use) ⟨segs, [], []⟩ = ⟨segs ++ partLanes pa qs lanes, [], []⟩ := by
  induction lanes generalizing segs with
  | nil => rw [partLanes, List.map_nil, List.append_nil]; rfl
  | cons l ls ih =>
    obtain ⟨hl, hd⟩ := List.nodup_cons.1 hd
    have hnew : segs.any (fun y => y.lane == l) = false :=
      List.any_eq_false.2 fun y hy => by simpa using fun (e : y.lane = l) => hs y hy (e ▸ List.mem_cons_self)
    have hone : translateLane s (st.mmu true slot) acc use ⟨segs, [], []⟩ ⟨l, (qs l).map (fun q => (va l + q.1, q.2))⟩ =
        ⟨segs ++ [⟨l, partSegs (pa l) (qs l)⟩], [], []⟩ := by
      simp only [translateLane, hnew, (h l List.mem_cons_self).translateParts (hq l List.mem_cons_self)]
      rfl
    rw [partWants, List.map_cons, List.foldl_cons, hone]
    refine (ih (fun k hk => h k (List.mem_cons_of_mem l hk)) (fun k hk => hq k (List.mem_cons_of_mem l hk)) hd fun y hy hm => ?_).trans ?_
    · obtain hy | hy := List.mem_append.1 hy
      · exact hs y hy (List.mem_cons_of_mem l hm)
      · rw [List.mem_singleton.1 hy] at hm
        exact hl hm
    · rw [List.append_assoc]
      rfl

theorem find?_partLanes {l : Nat} (h : l ∈ lanes) : (partLanes pa qs lanes).find? (fun y => y.lane == l) = some ⟨l, partSegs (pa l) (qs l)⟩ := by
  have hfind : lanes.find? (fun k => k == l) = some l := by
    cases hf : lanes.find? (fun k => k == l) with
    | none => simpa using List.find?_eq_none.1 hf l h
    | some k => rw [show k = l by simpa using List.find?_some hf]
  rw [partLanes, List.find?_map]
  exact congrArg (Option.map _) hfind

/-- An instruction whose lanes touch parts of plain bytes goes on with them. -/
theorem translated_parts {x : Gx} {k : Nat} (hp : x.g.prog = { Prog.none with aux := k }) (use : Use) (hd : lanes.Nodup)
    (h : ∀ l ∈ lanes, Plain x.s x.st x.g.slot acc (va l) n (pa l)) (hq : ∀ l ∈ lanes, Parts n (qs l)) (f : Gx → State) :
    x.translated acc use (partWants va qs lanes) [] f =
      f { x with s := dropAsks x.s x.who, g := { x.g with prog := { Prog.none with phase := 1, segs := partLanes pa qs lanes, aux := k } } } := by
  have hsegs : (partWants va qs lanes).filterMap (fun w => (partLanes pa qs lanes).find? (fun y => y.lane == w.lane)) = partLanes pa qs lanes :=
    List.filterMap_map.trans ((List.filterMap_congr fun l hl => find?_partLanes hl).trans (congrFun List.filterMap_eq_map lanes))
  have htr : translateLanes x.s (x.st.mmu true x.g.slot) acc use { Prog.none with aux := k } (partWants va qs lanes) = ⟨partLanes pa qs lanes, [], []⟩ :=
    translateLanes_parts use h hq hd (fun _ hy => absurd hy List.not_mem_nil)
  unfold Gx.translated
  rw [hp, if_neg (by exact fun h => h rfl)]
  simp only [htr, hsegs]
  rfl

/-- The lanes of an access with all their bytes. -/
def plainSegs (pa : Nat → Nat) (n : Nat) (lanes : List Nat) : List LaneSegs := lanes.map (fun l => ⟨l, [⟨pa l, n, 0⟩]⟩)

/-- An instruction whose lanes touch plain bytes goes on with them. -/
theorem translated_plain {x : Gx} (hp : x.g.prog = Prog.none) (hn : 0 < n) (use : Use) (hd : lanes.Nodup)
    (h : ∀ l ∈ lanes, Plain x.s x.st x.g.slot acc (va l) n (pa l)) (k : Gx → State) :
    x.translated acc use (lanes.map (fun l => ⟨l, [(va l, n)]⟩)) [] k =
      k { x with s := dropAsks x.s x.who, g := { x.g with prog := { Prog.none with phase := 1, segs := plainSegs pa n lanes } } } :=
  translated_parts (qs := fun _ => [(0, n)]) (k := 0) hp use hd h
    (fun _ _ => List.forall_mem_singleton.2 ⟨hn, (Nat.zero_add n).le⟩) k

end

/-! ## What the core's accesses keep -/

theorem HomesKept.refl (s : State) : HomesKept s s := ⟨rfl, ⟨fun _ h _ => h, fun _ h => h⟩, rfl⟩

/-- A grove stored back is not part of the memory system. -/
theorem HomesKept.setGrove {t : State} (h : HomesKept s t) (u : Nat) (g : Grove) : HomesKept s (t.setGrove u g) := ⟨h.rest, h.slices, h.fills⟩

theorem HomesKept.trans {t u : State} (h : HomesKept s t) (h' : HomesKept t u) : HomesKept s u where
  rest := by rw [h'.rest, h.rest]
  slices := ⟨fun y hy hv => h'.slices.1 y (h.slices.1 y hy hv) hv, fun y hy => h.slices.2 y (h'.slices.2 y hy)⟩
  fills := h'.fills.trans h.fills

/-- A change of the L1s, of messages towards homes and of walks alone. -/
theorem HomesKept.of_l1 {t : State} (h : t.m = { s.m with l1 := t.m.l1, toSlice := t.m.toSlice, walks := t.m.walks }) : HomesKept s t := by
  have hl2 : t.m.l2 = s.m.l2 := congrArg (·.l2) h
  have hf : t.m.fills = s.m.fills := congrArg (·.fills) h
  exact ⟨by rw [hl2, hf]; exact h, by rw [hl2]; exact ⟨fun _ h _ => h, fun _ h => h⟩, by rw [hf]⟩

theorem homesKept_dropVisitor (s : State) (die line : Nat) : HomesKept s (dropVisitor s die line) := by
  refine ⟨rfl, ⟨fun y hy hv => List.mem_filter.2 ⟨hy, by simp [hv]⟩, fun y hy => (List.mem_filter.1 hy).1⟩, ?_⟩
  refine (List.map_map ..).trans (List.map_congr_left fun f _ => ?_)
  rw [Function.comp_apply]
  split <;> rfl

end Sys2Proof
end

section
/-! # Bytes of a core's L1 (04 R85, R102) -/

namespace Sys2Proof

open Machine

variable {s t u : State} {core : Nat} {x : L1Line}

/-! ## Single bytes -/

theorem l1Byte_of (h : l1Find s core (a / 128) = some x) : l1Byte s core a = lineByte x.view (a % 128) := by
  rw [l1Byte, h]
  rfl

/-- A byte that the core holds registered, neither poisoned nor lost, with no store to it under way. -/
def Settled (s : State) (core a : Nat) : Prop :=
  ∃ x, l1Find s core (a / 128) = some x ∧ x.reg.getLsbD (a % 128) = true ∧ x.poison.getLsbD (a % 128) = false ∧
    x.lost.getLsbD (a % 128) = false ∧ x.pendMask.getLsbD (a % 128) = false

/-- A line put into an L1 shows its bytes there and changes no other line. -/
theorem l1Byte_l1Put (hu : x.used = true) (c a : Nat) :
    l1Byte (l1Put s x) c a = if c = x.core ∧ a / 128 = x.line then lineByte x.view (a % 128) else l1Byte s c a := by
  have hf := l1Find_l1Put s x c (a / 128)
  rw [hu, if_pos rfl] at hf
  split at hf
  next h => rw [if_pos h, l1Byte_of hf]
  next h => rw [if_neg h, l1Byte, l1Byte, hf]

/-- The line with some bytes performed. -/
def performed (x : L1Line) (mask : ByteMask) (d : LineBits) : L1Line :=
  { x with
    data := mergeLine x.data d mask
    reg := x.reg ||| mask
    valid := x.valid &&& ~~~mask
    poison := x.poison &&& ~~~mask
    lost := x.lost &&& ~~~fullMask mask
    pend := dropPend x.pend mask }

theorem performLocal_eq (s : State) (x : L1Line) (mask : ByteMask) (d : LineBits) :
    performLocal s x mask d = dropVisitor (l1Put s (performed x mask d)) (coreDie x.core) x.line := rfl

theorem lineByte_performed (x : L1Line) (mask : ByteMask) (d : LineBits) (i : Nat) :
    lineByte (performed x mask d).view i = if mask.getLsbD i then lineByte d i else lineByte x.view i := by
  have hd : lineByte (performed x mask d).data i = if mask.getLsbD i then lineByte d i else lineByte x.data i := lineByte_mergeLine ..
  rw [lineByte_view, show (performed x mask d).pend = dropPend x.pend mask from rfl, stored_dropPend, hd]
  split
  · rfl
  · rw [lineByte_view]

theorem pendMask_performed (x : L1Line) (mask : ByteMask) (d : LineBits) (i : Nat) :
    (performed x mask d).pendMask.getLsbD i = (x.pendMask.getLsbD i && !mask.getLsbD i) := by
  rw [getLsbD_pendMask, getLsbD_pendMask]
  exact any_dropPend ..

/-- What is settled in a line stays so when bytes are performed. -/
theorem settled_performed {mask : ByteMask} {d : LineBits} {i : Nat} (hr : x.reg.getLsbD i = true) (hp : x.poison.getLsbD i = false)
    (hl : x.lost.getLsbD i = false) (hw : x.pendMask.getLsbD i = false) :
    (performed x mask d).reg.getLsbD i = true ∧ (performed x mask d).poison.getLsbD i = false ∧
      (performed x mask d).lost.getLsbD i = false ∧ (performed x mask d).pendMask.getLsbD i = false := by
  refine ⟨?_, ?_, ?_, ?_⟩
  · simp [performed, hr]
  · simp [performed, hp]
  · simp [performed, hl]
  · rw [pendMask_performed, hw, Bool.false_and]

/-! ## What a core does in its L1 -/

/-- Nothing changes but the core's L1, visitor copies, walks and predictors. -/
structure Local (s t : State) : Prop where
  homes : HomesKept s t
  msgs : t.m.toSlice = s.m.toSlice
  beside : t.beside = s.beside
  rime : ∀ c, (t.d.core c).rime = (s.d.core c).rime

theorem Local.refl (s : State) : Local s s := ⟨.refl s, rfl, rfl, fun _ => rfl⟩

theorem Local.trans (h : Local s t) (h' : Local t u) : Local s u :=
  ⟨h.homes.trans h'.homes, h'.msgs.trans h.msgs, h'.beside.trans h.beside, fun c => (h'.rime c).trans (h.rime c)⟩

theorem Local.window (h : Local s t) (pa : Nat) : windowAt t pa = windowAt s pa := by
  have hw : t.d.windows = s.d.windows := congrArg (·.2.windows) h.beside
  rw [windowAt, windowAt, hw]

theorem Local.stands (h : Local s t) : t.stands = s.stands := congrArg (·.1) h.beside

theorem local_l1Put (s : State) (x : L1Line) : Local s (l1Put s x) := ⟨.of_l1 rfl, rfl, rfl, fun _ => rfl⟩

theorem local_performLocal (s : State) (x : L1Line) (mask : ByteMask) (d : LineBits) : Local s (performLocal s x mask d) :=
  (local_l1Put s (performed x mask d)).trans ⟨homesKept_dropVisitor _ _ _, rfl, rfl, fun _ => rfl⟩

theorem local_dropAsks (s : State) (w : Who) : Local s (dropAsks s w) := ⟨.of_l1 rfl, rfl, rfl, fun _ => rfl⟩

theorem local_preds (s : State) (c : Nat) (f : Core → List (Nat × Nat)) : Local s (s.modCore c (fun k => { k with preds := f k })) := by
  refine ⟨.of_l1 rfl, rfl, rfl, fun q => ?_⟩
  rw [State.core_modCore]
  split
  next h => rw [h.1]
  next => rfl

end Sys2Proof
end

section
/-! # Atomics on settled elements (04 R102) -/

namespace Sys2Proof

open Machine

variable {s t : State} {core a n : Nat}

/-! ## Elements -/

/-- An element of 4 or 8 bytes at a multiple of its size. -/
structure Element (a n : Nat) : Prop where
  size : n = 4 ∨ n = 8
  aligned : a % n = 0

theorem Element.inLine (h : Element a n) : a % 128 + n ≤ 128 ∧ a % 128 % 4 = 0 := by
  obtain ⟨rfl | rfl, h⟩ := h <;> omega

theorem Element.line (h : Element a n) {k : Nat} (hk : k < n) : (a + k) / 128 = a / 128 ∧ (a + k) % 128 = a % 128 + k := by
  obtain ⟨rfl | rfl, h⟩ := h <;> omega

/-- Different elements of one size lie apart. -/
theorem Element.apart {b : Nat} (h : Element a n) (h' : Element b n) (hne : a ≠ b) : a + n ≤ b ∨ b + n ≤ a := by
  obtain ⟨rfl | rfl, h⟩ := h <;> obtain ⟨-, h'⟩ := h' <;> omega

/-- The words of an element are its bytes. -/
theorem Element.words (h : Element a n) : wordsOf (maskRange (a % 128) n) = maskRange (a % 128) n := by
  obtain ⟨hin, hal⟩ := h.inLine
  refine byteMask_ext fun i hi => ?_
  rw [Bool.eq_iff_iff, getLsbD_wordsOf, getLsbD_maskRange hin]
  simp only [getLsbD_maskRange hin]
  constructor
  · rintro ⟨-, j, hj, hlo, hhi⟩
    obtain ⟨rfl | rfl, -⟩ := h <;> omega
  · exact fun hi' => ⟨hi, i, rfl, hi'⟩

/-- The element of a line that holds its bytes settled. -/
theorem Element.settled (h : Element a n) (hs : ∀ k, k < n → Settled s core (a + k)) : ∃ x, l1Find s core (a / 128) = some x ∧
    ∀ k, k < n → x.reg.getLsbD (a % 128 + k) = true ∧ x.poison.getLsbD (a % 128 + k) = false ∧
      x.lost.getLsbD (a % 128 + k) = false ∧ x.pendMask.getLsbD (a % 128 + k) = false := by
  have hpos : 0 < n := by obtain ⟨rfl | rfl, -⟩ := h <;> decide
  obtain ⟨x, hx, -⟩ := hs 0 hpos
  refine ⟨x, hx, fun k hk => ?_⟩
  obtain ⟨y, hy, hrest⟩ := hs k hk
  obtain ⟨hl, hm⟩ := h.line hk
  rw [hl] at hy
  rw [hm] at hrest
  obtain rfl : x = y := Option.some.inj (hx.symm.trans hy)
  exact hrest

theorem Element.l1Byte (h : Element a n) {x : L1Line} (hx : l1Find s core (a / 128) = some x) {k : Nat} (hk : k < n) :
    l1Byte s core (a + k) = lineByte x.view (a % 128 + k) := by
  obtain ⟨hl, hm⟩ := h.line hk
  rw [l1Byte_of (x := x) (by rw [hl]; exact hx), hm]

/-- The old element of a local atomic is what the core's loads see. -/
theorem Element.old (h : Element a n) {x : L1Line} (hx : l1Find s core (a / 128) = some x)
    (hp : ∀ k, k < n → x.pendMask.getLsbD (a % 128 + k) = false) : ofBytes (lineBytes x.data (a % 128) n) = l1Nat s core a n := by
  rw [l1Nat, ← ofBytes_map_range]
  refine congrArg ofBytes (List.map_congr_left fun k hk => ?_)
  have hk := List.mem_range.1 hk
  rw [h.l1Byte hx hk, lineByte_view, stored_none (by rw [← getLsbD_pendMask]; exact hp k hk)]

/-! ## One lane -/

/-- What an atomic in the core's L1 does to its element, of value `v` afterwards, and leaves alone. -/
structure ElementPut (s t : State) (core a n v : Nat) : Prop where
  kept : Local s t
  settled : ∀ y, Settled s core y → Settled t core y
  bytes : ∀ c y, l1Byte t c y = if c = core ∧ a ≤ y ∧ y < a + n then BitVec.ofNat 8 (v / 2 ^ (8 * (y - a))) else l1Byte s c y

/-- A line in place of another of the same core keeps settled what its own bytes keep so. -/
theorem settled_l1Put {x y : L1Line} {line : Nat} (hx : l1Find s core line = some x) (hkey : y.core = x.core ∧ y.line = x.line) (hu : y.used = true)
    (h : ∀ i, x.reg.getLsbD i = true ∧ x.poison.getLsbD i = false ∧ x.lost.getLsbD i = false ∧ x.pendMask.getLsbD i = false →
      y.reg.getLsbD i = true ∧ y.poison.getLsbD i = false ∧ y.lost.getLsbD i = false ∧ y.pendMask.getLsbD i = false) (b : Nat)
    (hb : Settled s core b) : Settled (l1Put s y) core b := by
  obtain ⟨hcore, hline⟩ := l1Find_key hx
  obtain ⟨z, hz, hbits⟩ := hb
  have hf := l1Find_l1Put s y core (b / 128)
  by_cases hl : b / 128 = line
  · rw [hl] at hz
    obtain rfl : x = z := Option.some.inj (hx.symm.trans hz)
    exact ⟨y, hf.trans ((if_pos ⟨hcore.symm.trans hkey.1.symm, (hl.trans hline.symm).trans hkey.2.symm⟩).trans (if_pos hu)), h _ hbits⟩
  · exact ⟨z, (hf.trans (if_neg fun hc => hl (hc.2.trans (hkey.2.trans hline)))).trans hz, hbits⟩

/-- A local atomic on a settled element puts the table's result there. -/
theorem localAtomic_element {x : L1Line} {o : HomeOp} (h : Element o.addr o.size) (hx : l1Find s core (o.addr / 128) = some x)
    (hs : ∀ k, k < o.size → x.reg.getLsbD (o.addr % 128 + k) = true ∧ x.poison.getLsbD (o.addr % 128 + k) = false ∧
      x.lost.getLsbD (o.addr % 128 + k) = false ∧ x.pendMask.getLsbD (o.addr % 128 + k) = false) {old : Nat} (ho : old = l1Nat s core o.addr o.size) :
    (localAtomic s x o old false).1 = (atomicNew o old).2 ∧
      ElementPut s (localAtomic s x o old false).2 core o.addr o.size ((atomicNew o old).1.getD old) := by
  obtain ⟨hcore, hline⟩ := l1Find_key hx
  obtain ⟨hin, -⟩ := h.inLine
  have hpos : 0 < o.size := by obtain ⟨h | h, -⟩ := h <;> rw [h] <;> decide
  let x' : L1Line := { x with pulled := x.pulled &&& ~~~pulledBits o }
  refine ⟨rfl, ?_⟩
  unfold localAtomic
  simp only [Bool.false_eq_true, if_false]
  cases hv : (atomicNew o old).1 with
  | none =>
    have hu : x'.used = true := used_of_reg (i := o.addr % 128 + 0) (hs 0 hpos).1
    refine ⟨local_l1Put s x', settled_l1Put hx ⟨rfl, rfl⟩ hu fun i h => h, fun c y => ?_⟩
    · have hsame : l1Byte (l1Put s x') c y = l1Byte s c y := by
        rw [l1Byte_l1Put hu]
        split
        next hc => rw [l1Byte_of (x := x) (by rw [hc.1, hc.2]; exact hcore ▸ hline ▸ hx)]; rfl
        next => rfl
      refine hsame.trans ?_
      split
      next hc =>
        obtain ⟨rfl, hlo, hhi⟩ := hc
        have hb := byte_of_ofBytes (fun k => l1Byte s c (o.addr + k)) (show y - o.addr < o.size by omega)
        rw [ofBytes_map_range] at hb
        rw [Option.getD_none, ho, l1Nat, hb, show o.addr + (y - o.addr) = y by omega]
      next => rfl
  | some v =>
    let m := maskRange (o.addr % 128) o.size
    let d := bytesAsLine (o.addr % 128) (toBytes o.size v)
    have hu : (performed x' m d).used = true := used_of_reg (i := o.addr % 128 + 0) (by
      rw [show (performed x' m d).reg = x.reg ||| m from rfl, BitVec.getLsbD_or, (hs 0 hpos).1, Bool.true_or])
    refine ⟨local_performLocal s x' m d, settled_l1Put hx ⟨rfl, rfl⟩ hu fun i ⟨hr, hp, hl, hw⟩ => settled_performed (x := x') hr hp hl hw, fun c y => ?_⟩
    · refine (l1Byte_l1Put hu c y).trans ?_
      rw [Option.getD_some]
      by_cases hc : c = core ∧ y / 128 = o.addr / 128
      · obtain ⟨rfl, hb⟩ := hc
        rw [if_pos ⟨hcore.symm, by rw [hb]; exact hline.symm⟩, lineByte_performed]
        have hm : m.getLsbD (y % 128) = true ↔ o.addr ≤ y ∧ y < o.addr + o.size := by
          rw [getLsbD_maskRange hin]
          omega
        by_cases hy : o.addr ≤ y ∧ y < o.addr + o.size
        · rw [if_pos (hm.2 hy), if_pos ⟨rfl, hy⟩, lineByte_bytesAsLine (by rwa [length_toBytes]) (by omega), getD_toBytes v (by omega),
            show y % 128 - o.addr % 128 = y - o.addr by omega]
        · rw [if_neg (fun h => hy (hm.1 h)), if_neg fun h => hy h.2, l1Byte_of (x := x) (by rw [hb]; exact hx)]
          rfl
      · rw [if_neg fun h => hc ⟨h.1.trans hcore, h.2.trans hline⟩, if_neg fun h => hc ⟨h.1, by omega⟩]

end Sys2Proof
end

section
/-! # An atomic's lanes on settled elements (13 R286; 04 R102, R103) -/

namespace Sys2Proof

open Machine

variable {x : Gx} {op : Nat} {b : BitVec 8} {l pa n : Nat}

/-- The predictors do not matter to what a lane does. -/
theorem ElementPut.preds {s t : State} {core a n v : Nat} (h : ElementPut s t core a n v) (f : Core → List (Nat × Nat)) :
    ElementPut s (t.modCore core (fun c => { c with preds := f c })) core a n v :=
  ⟨h.kept.trans (local_preds t core f), h.settled, h.bytes⟩

/-- A lane acts in L1 when its element is settled there. -/
theorem laneCoherent_settled {o : HomeOp} (h : Element o.addr o.size) (hr : Hbm o.addr) (hdone : x.g.prog.done = 0)
    (hs : ∀ k, k < o.size → Settled x.s x.st.core (o.addr + k)) {old : Nat} (ho : old = l1Nat x.s x.st.core o.addr o.size) :
    ∃ t, laneCoherent x o = x.replied t o.lane old (atomicNew o old).2 ∧
      ElementPut x.s t x.st.core o.addr o.size ((atomicNew o old).1.getD old) := by
  obtain ⟨hin, -⟩ := h.inLine
  obtain ⟨y, hy, hbits⟩ := h.settled hs
  obtain ⟨hfl, hput⟩ := localAtomic_element h hy hbits ho
  have hm {i : Nat} (hi : (maskRange (o.addr % 128) o.size).getLsbD i = true) : ∃ k, k < o.size ∧ i = o.addr % 128 + k := by
    rw [getLsbD_maskRange hin] at hi
    exact ⟨i - o.addr % 128, by omega, by omega⟩
  have hpend : y.pendMask &&& maskRange (o.addr % 128) o.size = 0#128 := by
    rw [BitVec.and_comm, and_eq_zero_iff]
    intro i hi
    obtain ⟨k, hk, rfl⟩ := hm hi
    exact (hbits k hk).2.2.2
  have hreg : maskSub (maskRange (o.addr % 128) o.size) y.reg = true := by
    rw [maskSub_iff]
    intro i hi
    obtain ⟨k, hk, rfl⟩ := hm hi
    exact (hbits k hk).1
  have hold : ofBytes (lineBytes y.data (o.addr % 128) o.size) = old := (h.old hy fun k hk => (hbits k hk).2.2.2).trans ho.symm
  have hgood : dataFault o.lane 0 ((List.range o.size).map (fun k => ((0 : Byte), y.poison.getLsbD (o.addr % 128 + k) || removedAt x.s o.addr,
      y.lost.getLsbD (o.addr % 128 + k)))) = none := by
    have hnone (f : Byte × Bool × Bool → Bool) (hf : ∀ k, k < o.size → f (0, y.poison.getLsbD (o.addr % 128 + k) || removedAt x.s o.addr,
        y.lost.getLsbD (o.addr % 128 + k)) = false) : ((List.range o.size).map (fun k => ((0 : Byte), y.poison.getLsbD (o.addr % 128 + k) ||
          removedAt x.s o.addr, y.lost.getLsbD (o.addr % 128 + k)))).findIdx? f = none := by
      rw [List.findIdx?_eq_none_iff]
      intro z hz
      obtain ⟨k, hk, rfl⟩ := List.mem_map.1 hz
      exact hf k (List.mem_range.1 hk)
    rw [dataFault, hnone _ fun k hk => ?_, hnone _ fun k hk => ?_]
    · rfl
    · exact (hbits k hk).2.2.1
    · simp [(hbits k hk).2.1, Hbm.removed hr]
  have hpulled : x.g.prog.done.getLsbD o.lane = false := by rw [hdone]; exact BitVec.getLsbD_zero
  refine ⟨_, ?_, hput.preds (fun c => spSet 0 c.preds (predIndex o.addr) (spGet 0 c.preds (predIndex o.addr) - 1))⟩
  unfold laneCoherent
  simp only [h.words, hy, Option.getD_some, hpend, hreg]
  unfold laneLocal
  simp only [hgood, hold, hpulled, hfl]
  rfl

/-- One lane of an atomic whose element is settled in the core's L1. -/
theorem atomLane_settled (hp : x.g.prog = { Prog.none with phase := p, segs := segs, replies := rs }) (hl : ∀ r ∈ rs, r.1 ≠ l)
    (h : Element pa (typeBits x.g.type / 8)) (hr : Hbm pa) (hw : windowAt x.s pa = none)
    (hs : ∀ k, k < typeBits x.g.type / 8 → Settled x.s x.st.core (pa + k)) {old : Nat} (ho : old = l1Nat x.s x.st.core pa (typeBits x.g.type / 8)) :
    ∃ t, atomLane op b x ⟨l, [⟨pa, n, 0⟩]⟩ = x.replied t l old (atomicNew (laneOp x op b l pa) old).2 ∧
      ElementPut x.s t x.st.core pa (typeBits x.g.type / 8) ((atomicNew (laneOp x op b l pa) old).1.getD old) := by
  obtain ⟨t, ht, hput⟩ := laneCoherent_settled (x := x) (o := laneOp x op b l pa) h hr (by rw [hp]; rfl) hs ho
  refine ⟨t, ?_, hput⟩
  have hskip : (x.g.prog.sent.getLsbD l || x.g.prog.watched.getLsbD l || x.g.prog.replies.any (fun r => r.1 == l) ||
      x.g.prog.faults.any (fun f => f.lane == l)) = false := by
    rw [hp]
    simpa [Prog.none] using fun a b c h => hl (a, b, c) h
  have hrem : isRemote pa = false := decide_eq_false (by have : pa < 0x00B2D05E0000 := hr; omega)
  unfold atomLane
  simp only [hskip, hrem, hw]
  exact ht

/-- The grove of an atomic under way, whose lanes of `rs` have replied. -/
def Gx.replies (x : Gx) (s : State) (p : Nat) (segs : List LaneSegs) (rs : List (Nat × Word × BitVec 5)) : Gx :=
  { x with s := s, g := { x.g with prog := { Prog.none with phase := p, segs := segs, replies := rs } } }

/-- What an atomic's lanes need of the core's L1. -/
structure LaneReady (s : State) (core pa n : Nat) : Prop where
  element : Element pa n
  hbm : Hbm pa
  window : windowAt s pa = none
  settled : ∀ k, k < n → Settled s core (pa + k)

theorem LaneReady.put {s t : State} {core pa n a m v : Nat} (h : LaneReady s core pa n) (hp : ElementPut s t core a m v) : LaneReady t core pa n :=
  ⟨h.element, h.hbm, (hp.kept.window pa).trans h.window, fun k hk => hp.settled _ (h.settled k hk)⟩

/-- An element apart from the one written keeps its value. -/
theorem ElementPut.l1Nat_apart {s t : State} {core a n v pa m : Nat} (h : ElementPut s t core a n v) (hd : a + n ≤ pa ∨ pa + m ≤ a) :
    l1Nat t core pa m = l1Nat s core pa m := by
  refine congrArg List.sum (List.map_congr_left fun k hk => ?_)
  have := List.mem_range.1 hk
  rw [h.bytes, if_neg (by omega)]

/-- The lanes of an atomic act one after another, each on its own element. -/
theorem atomLanes_settled {g : Grove} {st : Stand} {i : Instr} {en : LaneMask} {p : Nat} {segs : List LaneSegs} {n m : Nat} {pa : Nat → Nat} {old : Nat → Nat}
    {o : Nat → HomeOp} (hn : n = typeBits g.type / 8) {s : State} (ho : ∀ l, laneOp ⟨s, st, g, en, i⟩ op b l (pa l) = o l)
    {ls : List Nat} (hd : ls.Nodup) (hinj : ∀ l ∈ ls, ∀ k ∈ ls, pa l = pa k → l = k) {rs : List (Nat × Word × BitVec 5)} (hrs : ∀ r ∈ rs, r.1 ∉ ls)
    (hready : ∀ l ∈ ls, LaneReady s st.core (pa l) n) (hold : ∀ l ∈ ls, old l = l1Nat s st.core (pa l) n) :
    ∃ t, (plainSegs pa m ls).foldl (atomLane op b) (Gx.replies ⟨s, st, g, en, i⟩ s p segs rs) =
        Gx.replies ⟨s, st, g, en, i⟩ t p segs (rs ++ ls.map (fun l => (l, BitVec.ofNat 64 (old l), (atomicNew (o l) (old l)).2))) ∧ Local s t ∧
      (∀ l ∈ ls, ∀ k, k < n → l1Byte t st.core (pa l + k) = BitVec.ofNat 8 ((atomicNew (o l) (old l)).1.getD (old l) / 2 ^ (8 * k))) ∧
      ∀ c y, c ≠ st.core ∨ (∀ l ∈ ls, y < pa l ∨ pa l + n ≤ y) → l1Byte t c y = l1Byte s c y := by
  subst hn
  induction ls generalizing s rs with
  | nil => exact ⟨s, by rw [List.map_nil, List.append_nil]; rfl, .refl s, fun _ h => absurd h List.not_mem_nil, fun _ _ _ => rfl⟩
  | cons l ls ih =>
    obtain ⟨hl, hd⟩ := List.nodup_cons.1 hd
    have hlane := hready l List.mem_cons_self
    obtain ⟨u, hu, hput⟩ := atomLane_settled (x := Gx.replies ⟨s, st, g, en, i⟩ s p segs rs) (op := op) (b := b) (n := m) (l := l) rfl
      (fun r hr e => hrs r hr (e ▸ List.mem_cons_self)) hlane.element hlane.hbm hlane.window hlane.settled (hold l List.mem_cons_self)
    have hapart (k : Nat) (hk : k ∈ ls) : pa l + typeBits g.type / 8 ≤ pa k ∨ pa k + typeBits g.type / 8 ≤ pa l :=
      hlane.element.apart (hready k (List.mem_cons_of_mem l hk)).element fun e =>
        hl (hinj l List.mem_cons_self k (List.mem_cons_of_mem l hk) e ▸ hk)
    obtain ⟨t, ht, hlocal, hnew, hrest⟩ := ih (s := u) (rs := rs ++ [(l, BitVec.ofNat 64 (old l), (atomicNew (o l) (old l)).2)]) ho hd
      (fun a ha c hc => hinj a (List.mem_cons_of_mem l ha) c (List.mem_cons_of_mem l hc))
      (fun r hr hm => by
        obtain hr | hr := List.mem_append.1 hr
        · exact hrs r hr (List.mem_cons_of_mem l hm)
        · rw [List.mem_singleton.1 hr] at hm
          exact hl hm)
      (fun k hk => (hready k (List.mem_cons_of_mem l hk)).put hput)
      (fun k hk => (hold k (List.mem_cons_of_mem l hk)).trans (hput.l1Nat_apart (hapart k hk)).symm)
    rw [show laneOp (Gx.replies ⟨s, st, g, en, i⟩ s p segs rs) op b l (pa l) = o l from ho l] at hu hput
    replace hput : ElementPut s u st.core (pa l) (typeBits g.type / 8) ((atomicNew (o l) (old l)).1.getD (old l)) := hput
    refine ⟨t, ?_, hput.kept.trans hlocal, fun k hk j hj => ?_, fun c y hy => ?_⟩
    · rw [show plainSegs pa m (l :: ls) = ⟨l, [⟨pa l, m, 0⟩]⟩ :: plainSegs pa m ls from rfl, List.foldl_cons, hu, List.map_cons, ← List.singleton_append,
        ← List.append_assoc]
      exact ht
    · obtain rfl | hk := List.mem_cons.1 hk
      · have hout : ∀ a ∈ ls, pa k + j < pa a ∨ pa a + typeBits g.type / 8 ≤ pa k + j := fun a ha => by
          have := hapart a ha
          omega
        rw [hrest _ _ (.inr hout), hput.bytes, if_pos ⟨rfl, by omega, by omega⟩, Nat.add_sub_cancel_left]
      · exact hnew k hk j hj
    · have htail : c ≠ st.core ∨ ∀ a ∈ ls, y < pa a ∨ pa a + typeBits g.type / 8 ≤ y :=
        hy.imp id fun h a ha => h a (List.mem_cons_of_mem l ha)
      rw [hrest c y htail, hput.bytes, if_neg]
      rintro ⟨hc, hlo, hhi⟩
      obtain h | h := hy
      · exact h hc
      · have := h l List.mem_cons_self
        omega

end Sys2Proof
end

section
/-! # Results of floating-point sums fit their format (06 R131, R133, R136) -/

namespace Sys2Proof.Machine

/-- A format of IEEE 754: a sign, `eb` bits of exponent and `mb` of fraction. -/
structure Fmt.Ieee (f : Fmt) : Prop where
  plain : f.e4 = false
  bias : 2 * f.bias + 2 = 2 ^ f.eb
  frac : 1 ≤ f.mb

/-- The bits below the sign. -/
def Fmt.span (f : Fmt) : Nat := 2 ^ (f.mb + f.eb)

section
variable {f : Fmt} (h : f.Ieee)
include h

theorem span_eq : f.span = (2 * f.bias + 2) * 2 ^ f.mb := by
  rw [Fmt.span, h.bias, Nat.pow_add, Nat.mul_comm]

omit h in
theorem two_pow_width : 2 ^ (f.mb + f.eb + 1) = f.span + f.span := by
  rw [Fmt.span, Nat.pow_succ]
  omega

omit h in
/-- A magnitude with a sign. -/
theorem signBit_add_lt {v : Nat} (neg : Bool) (hv : v < f.span) : f.signBit neg + v < 2 ^ (f.mb + f.eb + 1) := by
  have hs : f.signBit neg ≤ f.span := by
    unfold Fmt.signBit
    split
    · exact Nat.le_refl _
    · exact Nat.zero_le _
  have := two_pow_width (f := f)
  omega

theorem frac_lt_span {v : Nat} (hv : v ≤ 2 ^ f.mb) : v < f.span := by
  rw [span_eq h]
  have := Nat.two_pow_pos f.mb
  nlinarith

theorem span_top : (2 ^ f.eb - 1) * 2 ^ f.mb + 2 ^ f.mb = f.span := by
  rw [span_eq h, ← h.bias, ← Nat.succ_mul]
  congr 1

/-- Magnitudes under the highest exponent. -/
theorem top_lt_span {v : Nat} (hv : v < 2 ^ f.mb) : (2 ^ f.eb - 1) * 2 ^ f.mb + v < f.span := by
  have := span_top h
  omega

theorem infBits_lt (neg : Bool) : f.infBits neg < 2 ^ (f.mb + f.eb + 1) := by
  rw [Fmt.infBits, h.plain, if_neg Bool.false_ne_true]
  exact signBit_add_lt neg (top_lt_span h (Nat.two_pow_pos _))

theorem maxBits_lt (neg : Bool) : f.maxBits neg < 2 ^ (f.mb + f.eb + 1) := by
  rw [Fmt.maxBits, h.plain, if_neg Bool.false_ne_true]
  refine signBit_add_lt neg ?_
  have := top_lt_span h (Nat.two_pow_pos _)
  omega

theorem overflow_lt (mode : Nat) (sat neg : Bool) : f.overflow mode sat neg < 2 ^ (f.mb + f.eb + 1) := by
  unfold Fmt.overflow
  split
  · exact maxBits_lt h neg
  · split
    · exact maxBits_lt h neg
    · split
      · exact maxBits_lt h neg
      · exact infBits_lt h neg
    · split
      · exact infBits_lt h neg
      · exact maxBits_lt h neg
    · exact infBits_lt h neg

theorem half_lt : 2 ^ (f.mb - 1) < 2 ^ f.mb := Nat.pow_lt_pow_right (by decide) (by have := h.frac; omega)

theorem canonNaN_lt (neg : Bool) : f.canonNaN neg < 2 ^ (f.mb + f.eb + 1) := by
  rw [Fmt.canonNaN, h.plain, if_neg Bool.false_ne_true]
  exact signBit_add_lt neg (top_lt_span h (half_lt h))

/-- A NaN of the format itself, quieted. -/
theorem nanFrom_lt (neg : Bool) {frac : Nat} (hf : frac < 2 ^ f.mb) : f.nanFrom f neg frac < 2 ^ (f.mb + f.eb + 1) := by
  unfold Fmt.nanFrom
  split
  · exact canonNaN_lt h neg
  · simp only [Nat.le_refl, if_true, Nat.sub_self, Nat.pow_zero, Nat.mul_one]
    rw [Nat.add_assoc]
    exact signBit_add_lt neg (top_lt_span h (Nat.or_lt_two_pow hf (half_lt h)))

end

/-! ## Rounding -/

theorem lt_two_pow_bitLen (m : Nat) : m < 2 ^ bitLen m := by
  unfold bitLen
  split
  next h => rw [h]; decide
  next => exact Nat.lt_log2_self

theorem roundShift_le {m sh k : Nat} (h : m < 2 ^ (sh + k)) (mode : Nat) (neg st : Bool) : (roundShift mode neg m sh st).1 ≤ 2 ^ k := by
  have hq : m / 2 ^ sh < 2 ^ k := Nat.div_lt_of_lt_mul (by rwa [← Nat.pow_add])
  have hr : (roundShift mode neg m sh st).1 = m / 2 ^ sh ∨ (roundShift mode neg m sh st).1 = m / 2 ^ sh + 1 := by
    unfold roundShift
    extract_lets
    exact (ite_eq_or_eq _ _ _).symm
  omega

theorem roundVal_lt {f : Fmt} (h : f.Ieee) (mode : Nat) (sat neg : Bool) (m : Nat) (e : Int) (st : Bool) :
    (f.roundVal mode sat neg m e st).1 < 2 ^ (f.mb + f.eb + 1) := by
  have hm := lt_two_pow_bitLen m
  have hmin : f.emin = 1 - f.bias := rfl
  have hmax : f.emax = f.bias := by rw [Fmt.emax, h.plain, if_neg Bool.false_ne_true]
  have hr1 : (roundShift mode neg m (bitLen m - (f.mb + 1)) st).1 ≤ 2 ^ (f.mb + 1) :=
    roundShift_le (Nat.lt_of_lt_of_le hm (Nat.pow_le_pow_right (by decide) (by omega))) mode neg st
  unfold Fmt.roundVal
  split
  · exact signBit_add_lt (v := 0) neg (frac_lt_span h (Nat.zero_le _))
  extract_lets len sh r1 top0 top unit r2 sig
  have htop : top0 ≤ top := by
    have : top = top0 ∨ top = top0 + 1 := by
      simp only [top]
      split
      · exact .inl rfl
      · split
        · exact .inr rfl
        · exact .inl rfl
    omega
  split
  next hsub =>
    split
    next hunit =>
      refine signBit_add_lt neg (frac_lt_span h (Nat.le_of_lt ?_))
      calc m * 2 ^ (e - unit).toNat < 2 ^ len * 2 ^ (e - unit).toNat := Nat.mul_lt_mul_of_pos_right hm (Nat.two_pow_pos _)
        _ = 2 ^ (len + (e - unit).toNat) := (Nat.pow_add ..).symm
        _ ≤ 2 ^ f.mb := Nat.pow_le_pow_right (by decide) (by omega)
    next hunit =>
      exact signBit_add_lt neg (frac_lt_span h (roundShift_le (Nat.lt_of_lt_of_le hm (Nat.pow_le_pow_right (by decide) (by omega))) mode neg st))
  next hsub =>
    split
    · exact overflow_lt h mode sat neg
    next hover =>
      have hsig : sig < 2 ^ (f.mb + 1) := by
        simp only [sig]
        split
        next hlen =>
          calc m * 2 ^ (f.mb + 1 - len) < 2 ^ len * 2 ^ (f.mb + 1 - len) := Nat.mul_lt_mul_of_pos_right hm (Nat.two_pow_pos _)
            _ = 2 ^ (f.mb + 1) := by rw [← Nat.pow_add, Nat.add_sub_cancel' hlen]
        next =>
          split
          · exact Nat.pow_lt_pow_right (by decide) (by omega)
          · exact Nat.lt_of_le_of_ne hr1 ‹_›
      have hexp : (top + f.bias).toNat ≤ 2 * f.bias := by
        have : top ≤ f.emax := by
          by_contra hc
          exact hover (.inl (by omega))
        omega
      rw [Nat.add_assoc]
      refine signBit_add_lt neg ?_
      rw [span_eq h]
      have hpow : 2 ^ (f.mb + 1) = 2 ^ f.mb + 2 ^ f.mb := by rw [Nat.pow_succ]; omega
      have hmul := Nat.mul_le_mul_right (2 ^ f.mb) hexp
      have hpos := Nat.two_pow_pos f.mb
      rw [Nat.add_mul]
      omega

/-- A sum in a format fits it. -/
theorem fAdd_lt {f : Fmt} (h : f.Ieee) (mode a b : Nat) : (fAdd f mode a b).1 < 2 ^ (f.mb + f.eb + 1) := by
  have hdec (w : Nat) {n q : Bool} {fr : Nat} (hd : f.decode w = .nan n q fr) : fr < 2 ^ f.mb := by
    unfold Fmt.decode at hd
    extract_lets frac ex neg at hd
    have hfr : frac < 2 ^ f.mb := Nat.mod_lt _ (Nat.two_pow_pos _)
    simp only [h.plain] at hd
    split at hd
    next hc => exact absurd hc.1 Bool.false_ne_true
    · split at hd
      · split at hd
        · cases hd
        · exact (FVal.nan.inj hd).2.2 ▸ hfr
      · split at hd <;> cases hd
  have hsum (ts : List FVal) : (sumRound f mode ts).1 < 2 ^ (f.mb + f.eb + 1) := by
    unfold sumRound
    simp only
    split
    · exact canonNaN_lt h false
    · split
      · exact infBits_lt h _
      · split
        · exact signBit_add_lt (v := 0) _ (frac_lt_span h (Nat.zero_le _))
        · exact roundVal_lt h ..
  unfold fAdd
  simp only
  cases hn : nanResult f [f.decode a, f.decode b] with
  | none => exact hsum _
  | some r =>
    unfold nanResult at hn
    split at hn
    next n q fr hfind =>
      have hmem := List.mem_of_find?_eq_some hfind
      have hfr : fr < 2 ^ f.mb := by
        obtain hd | hd := List.mem_pair.1 hmem
        · exact hdec a hd.symm
        · exact hdec b hd.symm
      cases hn
      exact nanFrom_lt h n hfr
    · cases hn

end Sys2Proof.Machine
end

section
/-! # The statement on atomics of registered words (13 R286; 04 R102) -/

namespace Sys2Proof

open Machine

/-! ## What an atomic makes of an element -/

/-- The number of each atomic's operation (13 R286). -/
def atomicCode (i : Instr) : Nat :=
  match i with
  | .atomMin .. => 1
  | .atomMax .. => 2
  | .atomAnd .. => 3
  | .atomOr .. => 4
  | .atomXor .. => 5
  | .atomXchg .. => 6
  | .atomCas .. => 7
  | .atomFadd .. => 8
  | _ => 0

/-- The order of the table is that of the numbers that the elements stand for. -/
theorem intVal_value {t v : Nat} (ht : t ∈ [2, 6, 3, 7]) (hv : v < 2 ^ typeBits t) :
    intVal t v = if t = 2 ∨ t = 3 then (BitVec.ofNat (typeBits t) v).toInt else (v : Int) := by
  have hsigned (w : Nat) (hv : v < 2 ^ (w + 1)) : sextNat (w + 1) v = (BitVec.ofNat (w + 1) v).toInt := by
    have hpow : 2 ^ (w + 1) = 2 * 2 ^ w := by rw [Nat.pow_succ, Nat.mul_comm]
    rw [sextNat, BitVec.toInt_eq_toNat_cond, BitVec.toNat_ofNat, Nat.mod_eq_of_lt hv, Nat.add_sub_cancel, hpow]
    exact if_congr (by omega) rfl rfl
  simp only [List.mem_cons, List.not_mem_nil, or_false] at ht
  obtain rfl | rfl | rfl | rfl := ht
  · exact hsigned 31 hv
  · exact congrArg _ (Nat.mod_eq_of_lt hv)
  · exact hsigned 63 hv
  · exact congrArg _ (Nat.mod_eq_of_lt hv)

/-- The result of an atomic is the table's. -/
theorem atomicNew_table {i : Instr} {t rnd : Nat} {d a b : BitVec 8} {f : Nat → Nat → Nat → Option Nat × FFlags}
    (h : atomicFunction i t rnd = some (d, a, b, f)) (ht : ∀ ts, i.types = some ts → t ∈ ts) {o : HomeOp} (hop : o.op = atomicCode i)
    (hty : o.type = t) (hr : o.rnd = rnd) {old : Nat} (ho : old < 2 ^ typeBits t) :
    atomicNew o old = f (o.x.toNat % 2 ^ typeBits t) (o.y.toNat % 2 ^ typeBits t) old := by
  subst hty hr
  have hx : o.x.toNat % 2 ^ typeBits o.type < 2 ^ typeBits o.type := Nat.mod_lt _ (Nat.two_pow_pos _)
  unfold atomicFunction at h
  extract_lets w value at h
  split at h <;> cases h <;> simp only [atomicNew, hop, atomicCode]
  · rfl
  · exact congrArg (fun v => (some v, (0 : FFlags))) (if_congr (by rw [decide_eq_true_eq, intVal_value (ht _ rfl) hx, intVal_value (ht _ rfl) ho]) rfl rfl)
  · exact congrArg (fun v => (some v, (0 : FFlags))) (if_congr (by rw [decide_eq_true_eq, intVal_value (ht _ rfl) hx, intVal_value (ht _ rfl) ho]) rfl rfl)

/-- Atomics are of 4 or 8 bytes. -/
theorem atomic_size {i : Instr} {t rnd : Nat} {r : BitVec 8 × BitVec 8 × BitVec 8 × (Nat → Nat → Nat → Option Nat × FFlags)}
    (h : atomicFunction i t rnd = some r) (ht : ∀ ts, i.types = some ts → t ∈ ts) :
    (typeBits t / 8 = 4 ∨ typeBits t / 8 = 8) ∧ typeBits t = 8 * (typeBits t / 8) := by
  have hsizes : ∀ t ∈ [2, 6, 3, 7, 10, 11], (typeBits t / 8 = 4 ∨ typeBits t / 8 = 8) ∧ typeBits t = 8 * (typeBits t / 8) := by decide
  refine hsizes t ?_
  unfold atomicFunction at h
  extract_lets w value at h
  split at h <;> cases h
  all_goals have := ht _ rfl
  all_goals simp only [List.mem_cons, List.not_mem_nil, or_false] at this ⊢
  all_goals tauto

/-- The new element fits its type. -/
theorem atomicFunction_lt {i : Instr} {t rnd : Nat} {d a b : BitVec 8} {f : Nat → Nat → Nat → Option Nat × FFlags}
    (h : atomicFunction i t rnd = some (d, a, b, f)) (ht : ∀ ts, i.types = some ts → t ∈ ts) {x y old : Nat}
    (hx : x < 2 ^ typeBits t) (hy : y < 2 ^ typeBits t) (ho : old < 2 ^ typeBits t) : (f x y old).1.getD old < 2 ^ typeBits t := by
  have hite (c : Prop) [Decidable c] : (if c then x else old) < 2 ^ typeBits t := by split <;> assumption
  unfold atomicFunction at h
  extract_lets w value at h
  split at h <;> cases h
  · exact Nat.mod_lt _ (Nat.two_pow_pos _)
  · exact hite _
  · exact hite _
  · exact Nat.and_lt_two_pow _ hx
  · exact Nat.or_lt_two_pow ho hx
  · exact Nat.xor_lt_two_pow ho hx
  · exact hx
  · show (if old = x then some y else none).getD old < _
    split
    · exact hy
    · exact ho
  · have ht := ht _ rfl
    simp only [List.mem_cons, List.not_mem_nil, or_false] at ht
    obtain rfl | rfl := ht
    · exact fAdd_lt (f := fmtOf 10) ⟨rfl, rfl, by decide⟩ rnd old x
    · exact fAdd_lt (f := fmtOf 11) ⟨rfl, rfl, by decide⟩ rnd old x

/-! ## The course of an atomic -/

section
variable {s u : State} {st : Stand} {g : Grove} {en : LaneMask} {i : Instr} {pa : Nat → Nat} {n : Nat} {lanes : List Nat}

theorem oldWatched_unwatched {x : Gx} (h : Unwatched x.s x.st) : oldWatched x = false := by
  have hany : ((x.s.d.core x.st.core).rime.any (fun r => r.watches x.st && r.kind == 2 && r.vdir)) = false := by
    rw [List.any_eq_false]
    intro r hr
    have : r.watches x.st = false := by simpa using List.any_eq_false.1 h r hr
    rw [this]
    exact Bool.false_ne_true
  rw [oldWatched, hany, Bool.and_false]

theorem watchMem_unwatched {x : Gx} (h : Unwatched x.s x.st) (ls : List Nat) (faulty : Bool) (hit : Rime → Nat → Bool) :
    watchMem x ls faulty hit = ⟨x.s, 0, none⟩ := by
  unfold watchMem
  simp only [watchCount_unwatched h]

/-- The start of an atomic whose lanes name different plain elements, watched by nothing. -/
theorem atomStart_plain (hu : Unwatched u st) (hd : lanes.Nodup) (hinj : ∀ l ∈ lanes, ∀ k ∈ lanes, pa l = pa k → l = k)
    (hr : ∀ l ∈ lanes, isRemote (pa l) = false) (op : Nat) (b : BitVec 8) (va : Nat → Nat) :
    atomStart (Gx.replies ⟨s, st, g, en, i⟩ u 1 (plainSegs pa n lanes) []) op b va = Gx.replies ⟨s, st, g, en, i⟩ u 2 (plainSegs pa n lanes) [] := by
  unfold atomStart
  extract_lets p w m ow bad fs r o hit v x olds wd go
  have how : ow = false := oldWatched_unwatched hu
  have hbad : bad = [] := by
    refine List.filterMap_eq_nil_iff.2 fun y hy => ?_
    obtain ⟨l, hl, rfl⟩ := List.mem_map.1 hy
    rw [how]
    simp [atomFault, hr l hl]
  have hr : r = (plainSegs pa n lanes, u) := by
    have hall : p.segs.filter (fun y => !bad.any (fun f => f.lane == y.lane)) = plainSegs pa n lanes :=
      List.filter_eq_self.2 fun _ _ => by rw [hbad]; rfl
    refine (congrArg (atomOrder · u) hall).trans (if_pos ?_)
    rw [plainSegs, List.map_map]
    exact hd.map_on fun l hl k hk h => hinj l hl k hk h
  have hv : v = ([], u) := by rw [show v = if ow = true then _ else ([], r.2) from rfl, how, hr]; rfl
  have hx : x.s = u ∧ x.st = st := ⟨congrArg (·.2) hv, rfl⟩
  have hwd : wd = ⟨u, 0, none⟩ := by
    refine (watchMem_unwatched (x := x) (by rw [hx.1]; exact hu) _ _ _).trans ?_
    rw [hx.1]
  have hgo : go = plainSegs pa n lanes := by
    refine (show go = r.1.filter (fun y => !wd.supp.getLsbD y.lane) from rfl).trans ?_
    rw [hwd, hr]
    exact List.filter_eq_self.2 fun y _ => by simp
  have hfs : fs = [] := (congrArg (p.faults ++ ·) hbad).trans rfl
  rw [hwd, hgo, hfs, how]
  rfl

end

end Sys2Proof
end

section
/-! # The end of an atomic (13 R286) -/

namespace Sys2Proof

open Machine

/-! ## Masks of lanes -/

theorem getLsbD_laneMaskOf (n : Nat) (f : Nat → Bool) (l : Nat) : (laneMaskOf n f).getLsbD l = true ↔ l < n ∧ l < 1024 ∧ f l = true := by
  have hbit (k : Nat) : (1#1024 <<< k).getLsbD l = true ↔ l < 1024 ∧ l = k := by
    simp only [BitVec.getLsbD_shiftLeft, BitVec.getLsbD_one, Bool.and_eq_true, Bool.not_eq_true', decide_eq_true_eq, decide_eq_false_iff_not]
    omega
  rw [laneMaskOf, getLsbD_foldl_or (fun k => f k = true) (fun k => 1#1024 <<< k) (List.range n) 0#1024 l, BitVec.getLsbD_zero, Bool.false_or, List.any_eq_true]
  constructor
  · rintro ⟨k, hk, h⟩
    obtain ⟨hf, hb⟩ := Bool.and_eq_true_iff.1 h
    obtain ⟨hl, rfl⟩ := (hbit k).1 hb
    exact ⟨List.mem_range.1 hk, hl, of_decide_eq_true hf⟩
  · rintro ⟨hn, hl, hf⟩
    exact ⟨l, List.mem_range.2 hn, Bool.and_eq_true_iff.2 ⟨decide_eq_true hf, (hbit l).2 ⟨hl, rfl⟩⟩⟩

/-! ## The grove as it retires -/

/-- What an atomic's lane takes. -/
def replyLane (d : BitVec 8) (rs : List (Nat × Word × BitVec 5)) (l : Nat) (ln : Lane) : Lane :=
  match rs.find? (fun r => r.1 == l) with
  | some r => (ln.setRegs (opNum d) [r.2.1] false).addFlags r.2.2
  | none => ln

/-- The grove with the replies to its lanes. -/
def answered (g : Grove) (d : BitVec 8) (rs : List (Nat × Word × BitVec 5)) : Grove :=
  { g.mapLanes (laneMaskOf g.lam (fun l => (rs.find? (fun r => r.1 == l)).isSome)) (replyLane d rs) with
    fpflags := rs.foldl (fun a r => a ||| r.2.2) g.fpflags }

theorem lane_answered {g : Grove} {d : BitVec 8} {rs : List (Nat × Word × BitVec 5)} {l : Nat} (hl : l < g.lam) (hm : l < 1024) {r : Nat × Word × BitVec 5}
    (hr : rs.find? (fun r => r.1 == l) = some r) :
    (answered g d rs).lane l = ((g.lane l).setRegs (opNum d) [r.2.1] false).addFlags r.2.2 := by
  have hin : (laneMaskOf g.lam (fun l => (rs.find? (fun r => r.1 == l)).isSome)).getLsbD l = true :=
    (getLsbD_laneMaskOf _ _ _).2 ⟨hl, hm, by rw [hr]; rfl⟩
  refine (Grove.lane_mapLanes g _ (replyLane d rs) l).trans ?_
  rw [if_pos ⟨hl, hin⟩, replyLane, hr]

/-- A memory instruction without faults or a fired action retires. -/
theorem endMem_clean (x : Gx) (g : Grove) {w : Watched} (hw : w.fired = none) (addr : Word) : x.endMem g [] w addr Gx.fin = w.s.setGrove x.st.uid g.retire := by
  unfold Gx.endMem
  rw [hw]
  rfl

theorem faddFinish_unwatched {x : Gx} {w : Watched} (hu : Unwatched w.s x.st) (g : Grove) (fs : List LaneFault) (addr : Word) (done : LaneMask)
    (fl : Nat → FFlags) : faddFinish x g fs w addr done fl = x.endMem g fs w addr Gx.fin := by
  unfold faddFinish Gx.flagWatch
  simp only [watchCount_unwatched hu]

/-- An atomic with a reply for each lane retires. -/
theorem atomFinish_replies {s t : State} {st : Stand} {g : Grove} {en : LaneMask} {i : Instr} {segs : List LaneSegs} {rs : List (Nat × Word × BitVec 5)}
    (hs : t.stand? st.uid = some st) (hg : st.grove? g.slot = some g) (hu : Unwatched t st) (op : Nat) (d : BitVec 8) (va : Nat → Nat) :
    atomFinish (Gx.replies ⟨s, st, g, en, i⟩ t 2 segs rs) op d va = t.setGrove st.uid (answered g d rs).retire := by
  have hc (h : Grove) : (Gx.replies ⟨s, st, g, en, i⟩ t 2 segs rs).counts t h = { h with outStores := g.outStores, outWbs := g.outWbs } := by
    show (match (t.stand? st.uid).bind (fun y => y.grove? g.slot) with | some h' => _ | none => _) = _
    rw [hs, Option.bind_some, hg]
  unfold atomFinish
  extract_lets p reply fl m g1 g2 fs fired addr
  have hfs : fs = [] := rfl
  have hfired : fired = none := if_pos (.inl rfl)
  have hg2 : g2 = { answered g d rs with prog := p } := by
    have hg1 : g1 = _ := hc _
    rw [show g2 = { g1 with fpflags := rs.foldl (fun a r => a ||| r.2.2) g1.fpflags } from rfl, hg1]
    rfl
  split
  · rw [faddFinish_unwatched hu, hfs, endMem_clean _ _ hfired, hg2, retire_prog]
    rfl
  · rw [hfs, endMem_clean _ _ hfired, hg2, retire_prog]
    rfl

end Sys2Proof
end

section
/-! # Atomics on settled elements as a whole (13 R286) -/

namespace Sys2Proof

open Machine

variable {s t : State} {st : Stand} {g : Grove} {i : Instr} {op : Nat} {d a b : BitVec 8} {pa old : Nat → Nat}

theorem Local.unwatched (h : Local s t) (hu : Unwatched s st) : Unwatched t st := by
  rw [Unwatched, h.rime]
  exact hu

theorem Local.stand? (h : Local s t) (u : Nat) : t.stand? u = s.stand? u := by rw [State.stand?, State.stand?, h.stands]

theorem lanesOf_nodup (g : Grove) (m : LaneMask) : (lanesOf g m).Nodup := List.nodup_range.filter _

theorem mem_lanesOf {m : LaneMask} {l : Nat} : l ∈ lanesOf g m ↔ l < g.lam ∧ m.getLsbD l = true := by
  rw [lanesOf, List.mem_filter, List.mem_range]

/-- Lanes whose addresses are all aligned: each accesses its bytes, and none faults. -/
theorem wants_aligned {n len : Nat} {va : Nat → Nat} {lanes : List Nat} (h : ∀ l ∈ lanes, va l % n = 0) :
    wants n va len lanes = lanes.map (fun l => ⟨l, [(va l, len)]⟩) ∧ misaligned n va lanes = [] := by
  constructor
  · rw [wants, List.filter_eq_self.2 fun l hl => decide_eq_true (h l hl)]
  · rw [misaligned, List.filter_eq_nil_iff.2 fun l hl => by simp [h l hl], List.map_nil]

/-- The replies to an atomic's lanes. -/
def repliesTo (lanes : List Nat) (o : Nat → HomeOp) (old : Nat → Nat) : List (Nat × Word × BitVec 5) :=
  lanes.map (fun l => (l, BitVec.ofNat 64 (old l), (atomicNew (o l) (old l)).2))

theorem find?_repliesTo {lanes : List Nat} {o : Nat → HomeOp} {l : Nat} (h : l ∈ lanes) :
    (repliesTo lanes o old).find? (fun r => r.1 == l) = some (l, BitVec.ofNat 64 (old l), (atomicNew (o l) (old l)).2) := by
  rw [repliesTo, List.find?_map, show lanes.find? ((fun r : Nat × Word × BitVec 5 => r.1 == l) ∘ fun l => (l, BitVec.ofNat 64 (old l), (atomicNew (o l) (old l)).2)) =
    some l from ?_]
  · rfl
  · cases hf : lanes.find? _ with
    | none => simpa using List.find?_eq_none.1 hf l h
    | some k => rw [show k = l by simpa using List.find?_some hf]

theorem translated_replies {x : Gx} (hp : x.g.prog = Prog.none) {n acc : Nat} (hn : 0 < n) (use : Use) {lanes : List Nat} (hd : lanes.Nodup) {va : Nat → Nat}
    (h : ∀ l ∈ lanes, Plain x.s x.st x.g.slot acc (va l) n (pa l)) (k : Gx → State) :
    x.translated acc use (lanes.map (fun l => ⟨l, [(va l, n)]⟩)) [] k = k (Gx.replies x (dropAsks x.s x.who) 1 (plainSegs pa n lanes) []) :=
  translated_plain hp hn use hd h k

/-- What an atomic on settled elements does. -/
theorem atomOp_settled (hs : s.stand? st.uid = some st) (hg : st.grove? g.slot = some g) (hp : g.prog = Prog.none) (hu : Unwatched s st)
    {n : Nat} (hn : n = typeBits g.type / 8) (hpos : 0 < n) {lanes : List Nat} (hlanes : lanes = lanesOf g g.enabled)
    (hva : ∀ l ∈ lanes, (baseVal g a l).toNat % n = 0) (hplain : ∀ l ∈ lanes, Plain s st g.slot accWrite (baseVal g a l).toNat n (pa l))
    (hinj : ∀ l ∈ lanes, ∀ k ∈ lanes, pa l = pa k → l = k) {o : Nat → HomeOp} (ho : ∀ l, laneOp ⟨s, st, g, g.enabled, i⟩ op b l (pa l) = o l)
    (hready : ∀ l ∈ lanes, LaneReady s st.core (pa l) n) (hold : ∀ l ∈ lanes, old l = l1Nat s st.core (pa l) n) :
    ∃ t, atomOp ⟨s, st, g, g.enabled, i⟩ op d a b = t.setGrove st.uid (answered g d (repliesTo lanes o old)).retire ∧ Local s t ∧
      (∀ l ∈ lanes, ∀ k, k < n → l1Byte t st.core (pa l + k) = BitVec.ofNat 8 ((atomicNew (o l) (old l)).1.getD (old l) / 2 ^ (8 * k))) ∧
      ∀ c y, c ≠ st.core ∨ (∀ l ∈ lanes, y < pa l ∨ pa l + n ≤ y) → l1Byte t c y = l1Byte s c y := by
  subst hn
  let u := dropAsks s ⟨st.uid, g.slot⟩
  have hsu : Local s u := local_dropAsks s _
  have hnd : lanes.Nodup := hlanes ▸ lanesOf_nodup g g.enabled
  obtain ⟨t, hfold, hlocal, hnew, hrest⟩ := atomLanes_settled (i := i) (en := g.enabled) (s := u) (p := 2) (segs := plainSegs pa (typeBits g.type / 8) lanes)
    (m := typeBits g.type / 8) rfl ho hnd hinj (rs := []) (fun _ h => absurd h List.not_mem_nil)
    (fun l hl => ⟨(hready l hl).element, (hready l hl).hbm, (hsu.window _).trans (hready l hl).window, (hready l hl).settled⟩) hold
  refine ⟨t, ?_, hsu.trans hlocal, hnew, hrest⟩
  have hst : t.stand? st.uid = some st := ((hsu.trans hlocal).stand? _).trans hs
  have hw := wants_aligned (len := typeBits g.type / 8) hva
  unfold atomOp
  rw [show laneList (Gx.mk s st g g.enabled i).g.lam (Gx.mk s st g g.enabled i).en = lanes from hlanes.symm]
  refine (congrArg₂ (fun ws bad => Gx.translated _ _ _ ws bad _) hw.1 hw.2).trans ?_
  refine (translated_replies (x := ⟨s, st, g, g.enabled, i⟩) hp hpos .atomic hnd hplain _).trans ?_
  extract_lets first y src z p
  refine (if_neg ?_).trans ?_
  · rw [oldWatched_unwatched (hsu.unwatched hu), Bool.and_false, Bool.false_and]
    exact Bool.false_ne_true
  have hy : y = Gx.replies ⟨s, st, g, g.enabled, i⟩ u 2 (plainSegs pa (typeBits g.type / 8) lanes) [] :=
    (if_pos rfl).trans (atomStart_plain (hsu.unwatched hu) hnd hinj (fun l hl => (hplain l hl).notRemote hpos) op b _)
  refine (if_neg ?_).trans ?_
  · rw [hy]
    simp [atomSkids, Gx.replies, Prog.none]
  have hz : z = Gx.replies ⟨s, st, g, g.enabled, i⟩ t 2 (plainSegs pa (typeBits g.type / 8) lanes) (repliesTo lanes o old) := by
    rw [show z = y.g.prog.segs.foldl (atomLane op b) y from rfl, hy]
    exact hfold
  refine (if_pos ?_).trans ?_
  · rw [show p = z.g.prog from rfl, hz]
    refine List.all_eq_true.2 fun q hq => ?_
    obtain ⟨l, hl, rfl⟩ := List.mem_map.1 hq
    have hin : (repliesTo lanes o old).any (fun r => r.1 == l) = true :=
      List.any_eq_true.2 ⟨_, List.mem_map_of_mem hl, beq_self_eq_true l⟩
    simp [Gx.replies, hin]
  · rw [hz]
    exact atomFinish_replies hst hg ((hsu.trans hlocal).unwatched hu) op d _

end Sys2Proof
end

section
/-! # Atomics act in the core's L1 (13 R286; 04 R102) -/

namespace Sys2Proof

open Machine

variable {i : Instr} {s t : State} {st : Stand} {g : Grove} {d a b : BitVec 8} {f : Nat → Nat → Nat → Option Nat × FFlags} {r : Nat}

theorem Passes.types (h : Passes i st g) : ∀ ts, i.types = some ts → g.type ∈ ts := by
  intro ts hts
  have ht := h.type
  rw [hts] at ht
  exact List.contains_iff_mem.1 ht

/-- What each atomic instruction executes. -/
theorem Runs.atomic (h : Runs i s st g) (hf : atomicFunction i g.type r = some (d, a, b, f)) :
    exec i s = .next (atomOp ⟨s, st, g, g.enabled, i⟩ (atomicCode i) d a b) := by
  unfold atomicFunction at hf
  extract_lets w value at hf
  split at hf <;> cases hf
  all_goals exact h.groveInstr _

/-- The operands of a lane's atomic are its source registers, as elements. -/
theorem laneOp_operand (x : Gx) (op : Nat) (b : BitVec 8) (l pa : Nat) :
    (laneOp x op b l pa).x.toNat % 2 ^ typeBits x.g.type = ((srcRegs x.g b x.g.type (opW b) l).getD 0 0).toNat % 2 ^ typeBits x.g.type ∧
      (laneOp x op b l pa).y.toNat % 2 ^ typeBits x.g.type = ((srcRegs x.g b x.g.type (opW b) l).getD 1 0).toNat % 2 ^ typeBits x.g.type := by
  have hget (rs : List Word) (j m : Nat) : ((rs.map (fun w => BitVec.ofNat 64 (w.toNat % 2 ^ m))).getD j 0).toNat % 2 ^ m = (rs.getD j 0).toNat % 2 ^ m := by
    have hlt (w : Word) : w.toNat % 2 ^ m < 2 ^ 64 := Nat.lt_of_le_of_lt (Nat.mod_le _ _) w.isLt
    have h0 : (0 : Word) = BitVec.ofNat 64 ((0 : Word).toNat % 2 ^ m) := by simp
    conv_lhs => rw [h0, List.getD_map, BitVec.toNat_ofNat, Nat.mod_eq_of_lt (hlt _), Nat.mod_mod]
  exact ⟨hget _ 0 _, hget _ 1 _⟩

/-- Bytes that are an element's digits make the element. -/
theorem l1Nat_digits {core p n v : Nat} (hv : v < 2 ^ (8 * n)) (h : ∀ k, k < n → l1Byte t core (p + k) = BitVec.ofNat 8 (v / 2 ^ (8 * k))) :
    l1Nat t core p n = v := by
  rw [l1Nat, ← ofBytes_map_range, List.map_congr_left fun k hk => h k (List.mem_range.1 hk), ← toBytes_eq_map, ofBytes_toBytes]
  exact Nat.mod_eq_of_lt (by rwa [show (256 : Nat) = 2 ^ 8 from rfl, ← Nat.pow_mul])

theorem l1Nat_lt (s : State) (core p n : Nat) : l1Nat s core p n < 2 ^ (8 * n) := by
  rw [l1Nat, ← ofBytes_map_range, Nat.pow_mul]
  exact (ofBytes_lt _).trans_eq (by rw [List.length_map, List.length_range])

/-- Settles O29: every lane's element is settled in the core's L1, so that the lanes act there one after another, each on
its own element; the replies then go to the lanes as the instruction retires. -/
theorem atomicsOnRegisteredWords : Obligations.AtomicsOnRegisteredWords := by
  unfold Obligations.AtomicsOnRegisteredWords
  intro i s st g d a b f pa hf hr hp hu w n en operand result hlane hinj
  obtain ⟨hsize, hw⟩ := atomic_size hf hr.types
  have hpos : 0 < n := by omega
  have hen {l : Nat} (hl : l ∈ lanesOf g g.enabled) : en l := mem_lanesOf.1 hl
  have hready (l : Nat) (hl : l ∈ lanesOf g g.enabled) : LaneReady s st.core (pa l) n := by
    obtain ⟨-, hal, hplain, x, hx, hbits⟩ := hlane l (hen hl)
    have helem : Element (pa l) n := ⟨hsize, hal⟩
    refine ⟨helem, (hplain.hbm 0 hpos).1, hplain.window hpos, fun k hk => ?_⟩
    obtain ⟨hline, hoff⟩ := helem.line hk
    obtain ⟨hreg, hpoi, hlost, hpend⟩ := hbits k hk
    rw [Settled, hline, hoff]
    refine ⟨x, hx, hreg, hpoi, hlost, Bool.eq_false_iff.2 fun h => ?_⟩
    rw [getLsbD_wordsOf_of h] at hpend
    exact Bool.noConfusion hpend
  let o (l : Nat) : HomeOp := laneOp ⟨s, st, g, g.enabled, i⟩ (atomicCode i) b l (pa l)
  let old (l : Nat) : Nat := l1Nat s st.core (pa l) n
  have hold (l : Nat) : old l < 2 ^ w := (l1Nat_lt s st.core (pa l) n).trans_eq (by rw [show w = 8 * n from hw])
  have hnew (l : Nat) : atomicNew (o l) (old l) = result l := by
    obtain ⟨hx, hy⟩ := laneOp_operand ⟨s, st, g, g.enabled, i⟩ (atomicCode i) b l (pa l)
    refine (atomicNew_table hf hr.types (o := o l) rfl rfl rfl (hold l)).trans ?_
    rw [hx, hy]
  have hlt (l : Nat) : (result l).1.getD (old l) < 2 ^ w :=
    atomicFunction_lt hf hr.types (Nat.mod_lt _ (Nat.two_pow_pos _)) (Nat.mod_lt _ (Nat.two_pow_pos _)) (hold l)
  obtain ⟨t, ht, hlocal, hbytes, hrest⟩ := atomOp_settled (i := i) (op := atomicCode i) (d := d) (a := a) (b := b) (pa := pa) (old := old) (o := o)
    hr.stand hr.grove hp hu rfl hpos rfl (fun l hl => (hlane l (hen hl)).1) (fun l hl => (hlane l (hen hl)).2.2.1)
    (fun l hl k hk => hinj l k (hen hl) (hen hk)) (fun _ => rfl) hready (fun _ _ => rfl)
  refine ⟨t.setGrove st.uid (answered g d (repliesTo (lanesOf g g.enabled) o old)).retire, answered g d (repliesTo (lanesOf g g.enabled) o old),
    (hr.atomic hf).trans (congrArg _ ht), ?_, rfl, hlocal.homes.setGrove _ _, hlocal.msgs, fun l hl => ?_, fun q => ?_, fun c y hy => ?_⟩
  · exact congrArg (List.map _) hlocal.stands
  · have hin := mem_lanesOf.2 hl
    rw [lane_answered hl.1 (getLsbD_lt hl.2) (find?_repliesTo hin)]
    refine ⟨fun h56 => (Lane.reg_setRegs ..).trans ?_, ?_, ?_⟩
    · rw [if_pos ⟨Nat.le_refl _, Nat.lt_succ_self _, h56⟩, Nat.sub_self]
      rfl
    · show ((g.lane l).setRegs _ _ _).flags ||| (atomicNew (o l) (old l)).2 = _
      rw [Lane.setRegs_flags, hnew]
    · refine l1Nat_digits (hw ▸ hlt l) fun k hk => ?_
      rw [← hnew]
      exact hbytes l hin k hk
  · refine (getLsbD_foldl_or_all _ _ _ q).trans ?_
    rw [repliesTo, List.any_map]
    exact congrArg (fun p => _ || List.any _ p) (funext fun l => congrArg (fun z => BitVec.getLsbD z.2 q) (hnew l))
  · exact hrest c y (hy.imp id fun h l hl => h l (hen hl))

end Sys2Proof
end

section
/-! # Units of a store (05 R105) -/

namespace Sys2Proof

open Machine

/-! ## What units write -/

/-- A unit puts a byte at an address. -/
def Puts (u : Unit8) (a : Nat) (b : Byte) : Prop := ∃ j, u.bytes[j]? = some b ∧ u.pa + j = a

/-- Units, each in one line, that write bytes `W`, no byte twice. -/
structure Writes (us : List Unit8) (W : Nat → Byte → Prop) : Prop where
  whole : ∀ u ∈ us, u.kind = 0 ∧ u.bytes ≠ [] ∧ u.pa % 128 + u.bytes.length ≤ 128
  bytes : ∀ a b, W a b ↔ ∃ u ∈ us, Puts u a b
  apart : us.Pairwise (fun u v => ∀ a b c, Puts u a b → ¬ Puts v a c)

theorem Writes.flatMap {α : Type} {ls : List α} {us : α → List Unit8} {W : α → Nat → Byte → Prop} (h : ∀ l ∈ ls, Writes (us l) (W l))
    (hd : ls.Pairwise (fun l k => ∀ a b c, W l a b → ¬ W k a c)) : Writes (ls.flatMap us) (fun a b => ∃ l ∈ ls, W l a b) := by
  refine ⟨fun u hu => ?_, fun a b => ?_, List.pairwise_flatMap.2 ⟨fun l hl => (h l hl).apart, ?_⟩⟩
  · obtain ⟨l, hl, hu⟩ := List.mem_flatMap.1 hu
    exact (h l hl).whole u hu
  · constructor
    · rintro ⟨l, hl, hw⟩
      obtain ⟨u, hu, hp⟩ := ((h l hl).bytes a b).1 hw
      exact ⟨u, List.mem_flatMap.2 ⟨l, hl, hu⟩, hp⟩
    · rintro ⟨u, hu, hp⟩
      obtain ⟨l, hl, hu⟩ := List.mem_flatMap.1 hu
      exact ⟨l, hl, ((h l hl).bytes a b).2 ⟨u, hu, hp⟩⟩
  · refine hd.imp_of_mem fun {l k} hl hk hlk u hu v hv a b c hp hq => ?_
    exact hlk a b c (((h l hl).bytes a b).2 ⟨u, hu, hp⟩) (((h k hk).bytes a c).2 ⟨v, hv, hq⟩)

theorem Writes.congr {us : List Unit8} {W V : Nat → Byte → Prop} (h : Writes us W) (hv : ∀ a b, V a b ↔ W a b) : Writes us V :=
  ⟨h.whole, fun a b => (hv a b).trans (h.bytes a b), h.apart⟩

/-- A byte of a unit. -/
theorem puts_self {u : Unit8} (h : u.bytes ≠ []) : ∃ b, Puts u u.pa b := by
  obtain ⟨b, bs, hb⟩ := List.exists_cons_of_ne_nil h
  exact ⟨b, 0, by rw [hb]; rfl, rfl⟩

/-- A run split at multiples of a size. -/
theorem writes_splitUnits {size : Nat} (hs : size ∣ 128) {fuel : Nat} {pa : Nat} {bs : List Byte} (hf : bs.length < fuel) :
    Writes (splitUnits size fuel pa 0 bs) (fun a b => ∃ i : Nat, bs[i]? = some b ∧ pa + i = a) := by
  have hpos : 0 < size := Nat.pos_of_dvd_of_pos hs (by decide)
  induction fuel generalizing pa bs with
  | zero => omega
  | succ fuel ih =>
    have hmod := Nat.mod_lt pa hpos
    unfold splitUnits
    split
    next he =>
      rw [List.isEmpty_iff.1 he]
      exact ⟨fun _ h => absurd h List.not_mem_nil, fun a b => by simp, List.Pairwise.nil⟩
    next he =>
    have hne : bs ≠ [] := fun h => he (by rw [h]; rfl)
    have hlen : 0 < bs.length := List.length_pos_iff.2 hne
    extract_lets n
    have hn : 0 < n := by omega
    have htail := ih (pa := pa + n) (bs := bs.drop n) (by rw [List.length_drop]; omega)
    have hhead (a : Nat) (b : Byte) : Puts ⟨pa, 0, bs.take n⟩ a b ↔ ∃ i : Nat, i < n ∧ bs[i]? = some b ∧ pa + i = a := by
      simp only [Puts, List.getElem?_take]
      constructor
      · rintro ⟨j, hj, ha⟩
        split at hj
        next hlt => exact ⟨j, hlt, hj, ha⟩
        next => cases hj
      · rintro ⟨j, hlt, hj, ha⟩
        exact ⟨j, by rw [if_pos hlt, hj], ha⟩
    refine ⟨List.forall_mem_cons.2 ⟨⟨rfl, ?_, ?_⟩, htail.whole⟩, fun a b => ?_, List.pairwise_cons.2 ⟨fun v hv a b c hp hq => ?_, htail.apart⟩⟩
    · simpa using ⟨hn.ne', hne⟩
    · have hle : (bs.take n).length ≤ n := List.length_take_le n bs
      have hend : pa % 128 + n ≤ 128 := by
        obtain ⟨k, hk⟩ := hs
        have hq : pa % 128 / size + 1 ≤ k := Nat.div_lt_of_lt_mul (hk ▸ Nat.mod_lt pa (by decide))
        have hdm := Nat.div_add_mod (pa % 128) size
        have hle : size * (pa % 128 / size + 1) ≤ size * k := Nat.mul_le_mul_left size hq
        rw [Nat.mod_mod_of_dvd pa ⟨k, hk⟩] at hdm
        rw [Nat.mul_succ] at hle
        omega
      exact (Nat.add_le_add_left hle _).trans hend
    · rw [List.exists_mem_cons_iff, hhead, ← htail.bytes]
      constructor
      · rintro ⟨i, hi, ha⟩
        by_cases hin : i < n
        · exact .inl ⟨i, hin, hi, ha⟩
        · exact .inr ⟨i - n, by rw [List.getElem?_drop, Nat.add_sub_cancel' (by omega)]; exact hi, by omega⟩
      · rintro (⟨i, -, hi, ha⟩ | ⟨i, hi, ha⟩)
        · exact ⟨i, hi, ha⟩
        · exact ⟨n + i, by rwa [List.getElem?_drop] at hi, by omega⟩
    · obtain ⟨i, hi, -, rfl⟩ := (hhead _ _).1 hp
      obtain ⟨j, -, hj⟩ := (htail.bytes _ _).2 ⟨v, hv, hq⟩
      omega

/-! ## The units of a lane -/

/-- The places of some parts, in order. -/
def places (qs : List (Nat × Nat)) : List Nat := qs.flatMap (fun q => (List.range q.2).map (q.1 + ·))

theorem mem_places {qs : List (Nat × Nat)} {k : Nat} : k ∈ places qs ↔ ∃ q ∈ qs, ∃ i, i < q.2 ∧ q.1 + i = k := by
  simp only [places, List.mem_flatMap, List.mem_map, List.mem_range]

/-- The units of parts of a lane's bytes, which leave byte `f k` for place `k`. -/
theorem laneUnits_parts {s : State} {bw : Bool} {pa : Nat} {f : Nat → Byte} {qs : List (Nat × Nat)} (hr : ∀ q ∈ qs, isRemote (pa + q.1) = false) :
    laneUnits s bw (partSegs pa qs) ((places qs).map f) =
      qs.flatMap (fun q => splitUnits (unitSize s bw (pa + q.1)) (q.2 + 1) (pa + q.1) 0 ((List.range q.2).map (fun i => f (q.1 + i)))) := by
  have hgo (acc : List Unit8) : ((partSegs pa qs).foldl (fun (acc : List Byte × List Unit8) q =>
      (acc.1.drop q.len, acc.2 ++ (if q.cached then
        splitUnits (unitSize s bw q.pa) (q.len + 1) q.pa q.kind (acc.1.take q.len) else []))) ((places qs).map f, acc)).2 =
      acc ++ qs.flatMap (fun q => splitUnits (unitSize s bw (pa + q.1)) (q.2 + 1) (pa + q.1) 0 ((List.range q.2).map (fun i => f (q.1 + i)))) := by
    induction qs generalizing acc with
    | nil => exact (List.append_nil acc).symm
    | cons q qs ih =>
      have hc : Seg.cached ⟨pa + q.1, q.2, 0⟩ = true := by
        rw [Seg.cached, hr q List.mem_cons_self]
        rfl
      have hbytes : (places (q :: qs)).map f = (List.range q.2).map (fun i => f (q.1 + i)) ++ (places qs).map f := by
        rw [places, List.flatMap_cons, List.map_append, List.map_map]
        rfl
      have hlen : ((List.range q.2).map (fun i => f (q.1 + i))).length = q.2 := by rw [List.length_map, List.length_range]
      rw [partSegs, List.map_cons, List.foldl_cons, hbytes]
      simp only [hc, if_true, List.drop_left' hlen, List.take_left' hlen]
      rw [List.flatMap_cons, ← List.append_assoc]
      exact ih (fun q hq => hr q (List.mem_cons_of_mem _ hq)) _
  exact (hgo []).trans (List.nil_append _)

/-- The units of a lane write its selected bytes. -/
theorem writes_laneUnits {s : State} {bw : Bool} {pa : Nat} {f : Nat → Byte} {qs : List (Nat × Nat)}
    (hr : ∀ k ∈ places qs, isRemote (pa + k) = false ∧ windowAt s (pa + k) = none) (hq : ∀ q ∈ qs, 0 < q.2) (hd : (places qs).Nodup) :
    Writes (laneUnits s bw (partSegs pa qs) ((places qs).map f)) (fun a b => ∃ k ∈ places qs, f k = b ∧ pa + k = a) := by
  have hin {q : Nat × Nat} (h : q ∈ qs) : q.1 ∈ places qs := mem_places.2 ⟨q, h, 0, hq q h, rfl⟩
  have hsize (q : Nat × Nat) (h : q ∈ qs) : unitSize s bw (pa + q.1) ∣ 128 := by
    rw [unitSize, (hr _ (hin h)).2]
    cases bw <;> decide
  rw [laneUnits_parts fun q h => (hr _ (hin h)).1]
  refine (Writes.flatMap (W := fun q a b => ∃ i, i < q.2 ∧ f (q.1 + i) = b ∧ pa + q.1 + i = a) (fun q h => ?_) ?_).congr fun a b => ?_
  · refine (writes_splitUnits (hsize q h) (by rw [List.length_map, List.length_range]; exact Nat.lt_succ_self _)).congr fun a b => ?_
    constructor
    · rintro ⟨i, hi, hb, ha⟩
      exact ⟨i, by rw [List.getElem?_map, List.getElem?_range hi, Option.map_some, hb], ha⟩
    · rintro ⟨i, hi, ha⟩
      obtain ⟨k, hk, hb⟩ := List.getElem?_map ▸ hi |> Option.map_eq_some_iff.1
      obtain ⟨hlt, rfl⟩ := List.getElem?_eq_some_iff.1 hk
      rw [List.getElem_range] at hb
      exact ⟨i, by rwa [List.length_range] at hlt, hb, ha⟩
  · refine (List.nodup_flatMap.1 hd).2.imp fun {q r} hqr a b c => ?_
    rintro ⟨i, hi, -, rfl⟩ ⟨j, hj, -, he⟩
    exact hqr (List.mem_map.2 ⟨i, List.mem_range.2 hi, rfl⟩) (List.mem_map.2 ⟨j, List.mem_range.2 hj, by omega⟩)
  · constructor
    · rintro ⟨k, hk, hf, ha⟩
      obtain ⟨q, hm, i, hi, rfl⟩ := mem_places.1 hk
      exact ⟨q, hm, i, hi, hf, by omega⟩
    · rintro ⟨q, hm, i, hi, hf, ha⟩
      exact ⟨q.1 + i, mem_places.2 ⟨q, hm, i, hi, rfl⟩, hf, by omega⟩

/-! ## What is left where lanes meet -/

theorem eraseDups_of_nodup {α : Type} [DecidableEq α] {l : List α} (h : l.Nodup) : l.eraseDups = l := by
  induction l with
  | nil => rfl
  | cons a l ih =>
    obtain ⟨ha, hl⟩ := List.nodup_cons.1 h
    have hf : l.filter (fun b => !b == a) = l := List.filter_eq_self.2 fun b hb => by simpa using fun (e : b = a) => ha (e ▸ hb)
    rw [List.eraseDups_cons, hf, ih hl]

theorem nodup_eraseDups {α : Type} [DecidableEq α] : ∀ l : List α, l.eraseDups.Nodup
  | [] => List.nodup_nil
  | a :: l => by
    rw [List.eraseDups_cons]
    refine List.nodup_cons.2 ⟨fun h => ?_, nodup_eraseDups (l.filter (fun b => !b == a))⟩
    simpa using (List.mem_filter.1 (List.mem_eraseDups.1 h)).2
  termination_by l => l.length
  decreasing_by exact Nat.lt_succ_of_le (List.length_filter_le _ _)

/-- Units that write no byte twice have nothing to choose. -/
theorem chooseUnits_writes {s : State} {us : List Unit8} {W : Nat → Byte → Prop} (h : Writes us W) : chooseUnits s us = (us, s) := by
  have hne : us.Pairwise (fun u v => u.pa ≠ v.pa) := by
    refine h.apart.imp_of_mem fun {u v} hu hv huv he => ?_
    obtain ⟨b, hb⟩ := puts_self (h.whole u hu).2.1
    obtain ⟨c, hc⟩ := puts_self (h.whole v hv).2.1
    exact huv u.pa b c hb (he ▸ hc)
  have hone {u : Unit8} (hu : u ∈ us) : us.filter (fun v => v.pa == u.pa) = [u] := by
    obtain ⟨l, r, rfl⟩ := List.append_of_mem hu
    obtain ⟨-, hr, hl⟩ := List.pairwise_append.1 hne
    have hl0 : l.filter (fun v => v.pa == u.pa) = [] := List.filter_eq_nil_iff.2 fun v hv => by simpa using hl v hv u List.mem_cons_self
    have hr0 : r.filter (fun v => v.pa == u.pa) = [] := List.filter_eq_nil_iff.2 fun v hv => by
      simpa using ((List.pairwise_cons.1 hr).1 v hv).symm
    rw [List.filter_append, hl0, List.filter_cons_of_pos (by simp), hr0, List.nil_append]
  rw [chooseUnits, eraseDups_of_nodup (List.pairwise_map.2 hne), List.foldl_map]
  suffices ∀ (l : List Unit8) (acc : List Unit8), (∀ u ∈ l, u ∈ us) → l.foldl _ (acc, s) = (acc ++ l, s) from
    (this us [] fun _ h => h).trans (by rw [List.nil_append])
  intro l acc hl
  induction l generalizing acc with
  | nil => rw [List.append_nil]; rfl
  | cons u l ih =>
    rw [List.foldl_cons, hone (hl u List.mem_cons_self)]
    refine (ih _ fun v hv => hl v (List.mem_cons_of_mem u hv)).trans ?_
    rw [List.append_assoc]
    rfl

end Sys2Proof
end

section
/-! # Stores into a core's L1 (04 R85) -/

namespace Sys2Proof

open Machine

variable {s t u : State} {core line : Nat} {w : Who} {mask : ByteMask} {d : LineBits} {x : L1Line}

/-! ## What a store changes beside the L1 -/

/-- A stand once a grove has `n` stores under way more. -/
def moreStores (w : Who) (n : Nat) (st : Stand) : Stand :=
  if st.uid = w.uid then { st with groves := st.groves.map (fun g => if g.slot = w.slot then { g with outStores := g.outStores + n } else g) } else st

theorem addOut_stands (s : State) (w : Who) (n : Nat) : (addOut s w n).stands = s.stands.map (moreStores w n) := rfl

theorem moreStores_zero (w : Who) (st : Stand) : moreStores w 0 st = st := by
  have hg : st.groves.map (fun g => if g.slot = w.slot then { g with outStores := g.outStores + 0 } else g) = st.groves :=
    (List.map_congr_left fun g _ => ite_self g).trans (List.map_id st.groves)
  rw [moreStores, hg]
  exact ite_self st

theorem moreStores_add (w : Who) (a b : Nat) (st : Stand) : moreStores w b (moreStores w a st) = moreStores w (a + b) st := by
  have hg : (st.groves.map (fun g => if g.slot = w.slot then { g with outStores := g.outStores + a } else g)).map
      (fun g => if g.slot = w.slot then { g with outStores := g.outStores + b } else g) =
      st.groves.map (fun g => if g.slot = w.slot then { g with outStores := g.outStores + (a + b) } else g) := by
    refine (List.map_map ..).trans (List.map_congr_left fun g _ => ?_)
    by_cases h : g.slot = w.slot <;> simp [h, Nat.add_assoc]
  by_cases h : st.uid = w.uid
  · simp only [moreStores, if_pos h, hg]
  · simp only [moreStores, if_neg h]

theorem stands_moreStores_zero (s : State) (w : Who) : s.stands.map (moreStores w 0) = s.stands :=
  (List.map_congr_left fun st _ => moreStores_zero w st).trans (List.map_id s.stands)

/-- A core's stores: no device register changes and no home; REG messages go out, each counted for the grove. -/
structure StoreStep (core : Nat) (w : Who) (s t : State) (rs : List ToSlice) : Prop where
  dev : t.d = s.d
  homes : HomesKept s t
  msgs : t.m.toSlice = s.m.toSlice ++ rs
  stands : t.stands = s.stands.map (moreStores w rs.length)
  regs : ∀ r ∈ rs, r.core = core ∧ ∃ m, r.req = .reg m w

theorem StoreStep.refl (core : Nat) (w : Who) (s : State) : StoreStep core w s s [] :=
  ⟨rfl, .refl s, (List.append_nil _).symm, (stands_moreStores_zero s w).symm, fun _ h => absurd h List.not_mem_nil⟩

theorem StoreStep.trans {rs rs' : List ToSlice} (h : StoreStep core w s t rs) (h' : StoreStep core w t u rs') : StoreStep core w s u (rs ++ rs') := by
  refine ⟨h'.dev.trans h.dev, h.homes.trans h'.homes, by rw [h'.msgs, h.msgs, List.append_assoc], ?_, fun r hr => ?_⟩
  · rw [h'.stands, h.stands, List.length_append, List.map_map]
    exact List.map_congr_left fun st _ => moreStores_add ..
  · exact (List.mem_append.1 hr).elim (h.regs r) (h'.regs r)

/-! ## A store into one line -/

/-- The line with a store under way more. -/
def waiting (x : L1Line) (mask : ByteMask) (d : LineBits) : L1Line := { x with pend := x.pend ++ [⟨mask, mask, d⟩] }

theorem storeLine_held (hx : l1Find s core line = some x) (hm : mask ≠ 0#128) :
    storeLine s core line mask d w false = if maskSub (wordsOf mask) (wordsOf x.reg) then performLocal s x mask d
      else sendSlice (addOut (l1Put s (waiting x mask d)) w 1) core line (.reg mask w) w.uid := by
  have ht : l1Take s core line w.uid = (x, s) := by rw [l1Take, hx]
  unfold storeLine
  rw [if_neg hm]
  simp only [ht]
  rfl

/-- A line that shows stored bytes as its own. -/
structure Shows (x y : L1Line) (mask : ByteMask) (d : LineBits) : Prop where
  key : y.core = x.core ∧ y.line = x.line
  used : y.used = true
  view : ∀ i, lineByte y.view i = if mask.getLsbD i then lineByte d i else lineByte x.view i
  own : ∀ i, mask.getLsbD i = true → y.own.getLsbD i = true ∧ (y.poison &&& ~~~y.pendMask).getLsbD i = false

theorem shows_performed (hm : mask ≠ 0#128) : Shows x (performed x mask d) mask d := by
  obtain ⟨i, hi⟩ := byteMask_ne_zero_iff.1 hm
  refine ⟨⟨rfl, rfl⟩, used_of_reg (i := i) ?_, fun i => lineByte_performed .., fun i hi => ?_⟩
  · simp [performed, hi]
  · simp [performed, hi]

theorem pendMask_waiting (x : L1Line) (mask : ByteMask) (d : LineBits) (i : Nat) :
    (waiting x mask d).pendMask.getLsbD i = (x.pendMask.getLsbD i || mask.getLsbD i) := by
  rw [getLsbD_pendMask, getLsbD_pendMask, waiting, List.any_append, List.any_cons, List.any_nil, Bool.or_false]

theorem shows_waiting : Shows x (waiting x mask d) mask d := by
  refine ⟨⟨rfl, rfl⟩, used_of_pend (by simp [waiting]), fun i => ?_, fun i hi => ?_⟩
  · rw [lineByte_view, lineByte_view, waiting, stored_append]
    rfl
  · rw [getLsbD_own, BitVec.getLsbD_and, BitVec.getLsbD_not, pendMask_waiting, hi]
    simp

/-- What a store into a line that the core's L1 holds does. -/
theorem storeLine_shows (hx : l1Find s core line = some x) (hm : mask ≠ 0#128) :
    ∃ rs y, StoreStep core w s (storeLine s core line mask d w false) rs ∧ Shows x y mask d ∧
      ∀ c l, l1Find (storeLine s core line mask d w false) c l = if c = core ∧ l = line then some y else l1Find s c l := by
  obtain ⟨hc, hl⟩ := l1Find_key hx
  rw [storeLine_held hx hm]
  have hfind (y : L1Line) (hy : Shows x y mask d) (c l : Nat) : l1Find (l1Put s y) c l = if c = core ∧ l = line then some y else l1Find s c l := by
    rw [l1Find_l1Put, hy.used, if_pos rfl, hy.key.1, hy.key.2, hc, hl]
  split
  · have hloc := local_performLocal s x mask d
    exact ⟨[], performed x mask d, ⟨rfl, hloc.homes, hloc.msgs.trans (List.append_nil _).symm, hloc.stands.trans (stands_moreStores_zero s w).symm,
      fun _ h => absurd h List.not_mem_nil⟩, shows_performed hm, hfind _ (shows_performed hm)⟩
  · exact ⟨[⟨core, line, .reg mask w, w.uid, 0, s.stamp, 0⟩], waiting x mask d, ⟨rfl, .of_l1 rfl, rfl, rfl,
      List.forall_mem_singleton.2 ⟨rfl, mask, rfl⟩⟩, shows_waiting, hfind _ shows_waiting⟩

end Sys2Proof
end

section
/-! # A store's units performed in L1 (04 R85) -/

namespace Sys2Proof

open Machine

variable {s : State} {core line : Nat} {w : Who} {us : List Unit8} {W : Nat → Byte → Prop}

/-! ## The bytes of a line -/

/-- Below where they were placed, bytes in a line are 0. -/
theorem lineByte_bytesAsLine_below {off i : Nat} (bs : List Byte) (h : i < off) : lineByte (bytesAsLine off bs) i = 0 := by
  refine lineByte_ext fun j hj => ?_
  have hbit : (ofBytes bs * 2 ^ (8 * off)).testBit (8 * i + j) = false := by
    rw [Nat.testBit_mul_two_pow, decide_eq_false (by omega), Bool.false_and]
  rw [lineByte, BitVec.getLsbD_extractLsb', bytesAsLine, BitVec.getLsbD_ofNat, hbit, Bool.and_false, Bool.and_false]
  exact BitVec.getLsbD_zero.symm

/-- Lines laid over each other, of which those that have a byte have the same. -/
theorem lineByte_foldl_or {α : Type} {l : List α} {f : α → LineBits} {i : Nat} {b : Byte} (h : ∀ u ∈ l, lineByte (f u) i = b ∨ lineByte (f u) i = 0)
    (hb : ∃ u ∈ l, lineByte (f u) i = b) : lineByte (l.foldl (fun a u => a ||| f u) 0#1024) i = b := by
  refine lineByte_ext fun j hj => ?_
  have hget (x : LineBits) : (lineByte x i).getLsbD j = x.getLsbD (8 * i + j) := by
    rw [lineByte, BitVec.getLsbD_extractLsb', decide_eq_true hj, Bool.true_and]
  rw [hget, getLsbD_foldl_or_all, BitVec.getLsbD_zero, Bool.false_or, Bool.eq_iff_iff, List.any_eq_true]
  simp only [← hget]
  constructor
  · rintro ⟨u, hu, hbit⟩
    obtain h | h := h u hu
    · rwa [h] at hbit
    · rw [h] at hbit
      simp at hbit
  · rintro hbit
    obtain ⟨u, hu, hub⟩ := hb
    exact ⟨u, hu, by rwa [hub]⟩

/-- Which bytes of a line some units write, and what they put there. -/
def unitMask (us : List Unit8) : ByteMask := us.foldl (fun m u => m ||| maskRange (u.pa % 128) u.bytes.length) 0#128

def unitData (us : List Unit8) : LineBits := us.foldl (fun a u => a ||| bytesAsLine (u.pa % 128) u.bytes) 0#1024

def unitsIn (us : List Unit8) (line : Nat) : List Unit8 := us.filter (fun u => u.pa / 128 == line)

theorem mem_unitsIn {u : Unit8} : u ∈ unitsIn us line ↔ u ∈ us ∧ u.pa / 128 = line := by
  rw [unitsIn, List.mem_filter, beq_iff_eq]

/-- What a unit in a line puts at a byte of it. -/
theorem puts_iff {u : Unit8} (hu : u.pa % 128 + u.bytes.length ≤ 128) {a : Nat} {b : Byte} :
    Puts u a b ↔ u.pa / 128 = a / 128 ∧ u.pa % 128 ≤ a % 128 ∧ u.bytes[a % 128 - u.pa % 128]? = some b := by
  constructor
  · rintro ⟨j, hj, rfl⟩
    have hlt := (List.getElem?_eq_some_iff.1 hj).1
    have h1 : (u.pa + j) / 128 = u.pa / 128 ∧ (u.pa + j) % 128 = u.pa % 128 + j := by omega
    rw [h1.1, h1.2, Nat.add_sub_cancel_left]
    exact ⟨rfl, by omega, hj⟩
  · rintro ⟨hl, hle, hj⟩
    exact ⟨_, hj, by omega⟩

theorem Writes.functional (h : Writes us W) {a : Nat} {b c : Byte} (hb : W a b) (hc : W a c) : b = c := by
  obtain ⟨u, hu, hub⟩ := (h.bytes a b).1 hb
  obtain ⟨v, hv, hvc⟩ := (h.bytes a c).1 hc
  by_cases e : u = v
  · subst e
    obtain ⟨-, -, h1⟩ := (puts_iff (h.whole u hu).2.2).1 hub
    obtain ⟨-, -, h2⟩ := (puts_iff (h.whole u hu).2.2).1 hvc
    exact Option.some.inj (h1.symm.trans h2)
  · have : Std.Symm (fun u v : Unit8 => ∀ a b c, Puts u a b → ¬ Puts v a c) := ⟨fun u v huv a b c hp hq => huv a c b hq hp⟩
    exact absurd hvc (h.apart.forall hu hv e a b c hub)

theorem getLsbD_unitMask (h : Writes us W) {i : Nat} (hi : i < 128) :
    (unitMask (unitsIn us line)).getLsbD i = true ↔ ∃ b, W (128 * line + i) b := by
  have ha : (128 * line + i) / 128 = line ∧ (128 * line + i) % 128 = i := by omega
  rw [unitMask, getLsbD_foldl_or_all, BitVec.getLsbD_zero, Bool.false_or, List.any_eq_true]
  simp only [h.bytes, mem_unitsIn]
  constructor
  · rintro ⟨u, ⟨hu, hl⟩, hm⟩
    have hin := (h.whole u hu).2.2
    obtain ⟨hlo, hhi⟩ := (getLsbD_maskRange hin).1 hm
    refine ⟨u.bytes[i - u.pa % 128]'(by omega), u, hu, (puts_iff hin).2 ?_⟩
    rw [ha.1, ha.2]
    exact ⟨hl, hlo, List.getElem?_eq_getElem _⟩
  · rintro ⟨b, u, hu, hp⟩
    have hin := (h.whole u hu).2.2
    obtain ⟨hl, hlo, hb⟩ := (puts_iff hin).1 hp
    rw [ha.1] at hl
    rw [ha.2] at hlo hb
    have := (List.getElem?_eq_some_iff.1 hb).1
    exact ⟨u, ⟨hu, hl⟩, (getLsbD_maskRange hin).2 ⟨hlo, by omega⟩⟩

theorem lineByte_unitData (h : Writes us W) {i : Nat} (hi : i < 128) {b : Byte} (hb : W (128 * line + i) b) :
    lineByte (unitData (unitsIn us line)) i = b := by
  have ha : (128 * line + i) / 128 = line ∧ (128 * line + i) % 128 = i := by omega
  have hbyte {u : Unit8} (hu : u ∈ us) (hlo : u.pa % 128 ≤ i) : lineByte (bytesAsLine (u.pa % 128) u.bytes) i = u.bytes.getD (i - u.pa % 128) 0 :=
    lineByte_bytesAsLine (h.whole u hu).2.2 hlo
  refine lineByte_foldl_or (fun u hu => ?_) ?_
  · obtain ⟨hu, hl⟩ := mem_unitsIn.1 hu
    by_cases hlo : u.pa % 128 ≤ i
    · rw [hbyte hu hlo, List.getD_eq_getElem?_getD]
      cases hc : u.bytes[i - u.pa % 128]? with
      | none => exact .inr rfl
      | some c =>
        refine .inl (h.functional ((h.bytes _ _).2 ⟨u, hu, (puts_iff (h.whole u hu).2.2).2 ?_⟩) hb)
        rw [ha.1, ha.2]
        exact ⟨hl, hlo, hc⟩
    · exact .inr (lineByte_bytesAsLine_below _ (by omega))
  · obtain ⟨u, hu, hp⟩ := (h.bytes _ _).1 hb
    obtain ⟨hl, hlo, hc⟩ := (puts_iff (h.whole u hu).2.2).1 hp
    rw [ha.1] at hl
    rw [ha.2] at hlo hc
    exact ⟨u, mem_unitsIn.2 ⟨hu, hl⟩, by rw [hbyte hu hlo, List.getD_eq_getElem?_getD, hc]; rfl⟩

/-! ## The lines of a store -/

/-- What a store of some lines leaves in the L1s: the written bytes of those lines are the core's own, and nothing else changes. -/
structure LinesWritten (core : Nat) (W : Nat → Byte → Prop) (ls : List Nat) (s t : State) : Prop where
  owns : ∀ a b, a / 128 ∈ ls → W a b → L1Owns t core a ∧ l1Byte t core a = b
  others : ∀ c a, c ≠ core ∨ a / 128 ∉ ls ∨ (∀ b, ¬ W a b) → l1Byte t c a = l1Byte s c a
  find : ∀ l, l ∉ ls → l1Find t core l = l1Find s core l

theorem storeLine_writes (h : Writes us W) (hu : ∃ u ∈ us, u.pa / 128 = line) (hheld : (l1Find s core line).isSome) :
    ∃ rs, StoreStep core w s (storeLine s core line (unitMask (unitsIn us line)) (unitData (unitsIn us line)) w false) rs ∧
      LinesWritten core W [line] s (storeLine s core line (unitMask (unitsIn us line)) (unitData (unitsIn us line)) w false) := by
  obtain ⟨x, hx⟩ := Option.isSome_iff_exists.1 hheld
  obtain ⟨u, hu, hul⟩ := hu
  obtain ⟨c, hc⟩ := puts_self (h.whole u hu).2.1
  have hm : unitMask (unitsIn us line) ≠ 0#128 := byteMask_ne_zero_iff.2 ⟨u.pa % 128, (getLsbD_unitMask h (Nat.mod_lt _ (by decide))).2
    ⟨c, (h.bytes _ _).2 ⟨u, hu, by rwa [← hul, Nat.div_add_mod]⟩⟩⟩
  obtain ⟨rs, y, hstep, hy, hfind⟩ := storeLine_shows (w := w) (d := unitData (unitsIn us line)) hx hm
  generalize storeLine s core line (unitMask (unitsIn us line)) (unitData (unitsIn us line)) w false = t at hstep hfind
  have hmask {a : Nat} (hl : a / 128 = line) : (unitMask (unitsIn us line)).getLsbD (a % 128) = true ↔ ∃ b, W a b := by
    rw [getLsbD_unitMask h (Nat.mod_lt _ (by decide)), ← hl, Nat.div_add_mod]
  refine ⟨rs, hstep, fun a b hl hw => ?_, fun c a ho => ?_, fun l hl => ?_⟩
  · obtain rfl : line = a / 128 := (List.mem_singleton.1 hl).symm
    have hf : l1Find t core (a / 128) = some y := by rw [hfind, if_pos ⟨rfl, rfl⟩]
    have hbit := (hmask rfl).2 ⟨b, hw⟩
    refine ⟨⟨y, hf, hy.own _ hbit⟩, ?_⟩
    rw [l1Byte_of hf, hy.view, if_pos hbit]
    exact lineByte_unitData h (Nat.mod_lt _ (by decide)) (by rwa [Nat.div_add_mod])
  · by_cases hhere : c = core ∧ a / 128 = line
    · obtain ⟨rfl, rfl⟩ := hhere
      have hno : (unitMask (unitsIn us (a / 128))).getLsbD (a % 128) = false := by
        refine Bool.eq_false_iff.2 fun hb => ?_
        obtain ⟨b, hb⟩ := (hmask rfl).1 hb
        simp only [ne_eq, not_true_eq_false, List.mem_singleton, false_or] at ho
        exact ho b hb
      rw [l1Byte_of (x := y) (by rw [hfind, if_pos ⟨rfl, rfl⟩]), hy.view, hno, l1Byte_of hx]
      rfl
    · rw [l1Byte, l1Byte, hfind, if_neg hhere]
  · rw [hfind, if_neg fun e => hl (List.mem_singleton.2 e.2)]

theorem LinesWritten.trans {t u : State} {ls ks : List Nat} (h : LinesWritten core W ls s t) (h' : LinesWritten core W ks t u) (hd : ∀ l ∈ ls, l ∉ ks) :
    LinesWritten core W (ls ++ ks) s u := by
  have hkept {a : Nat} (ha : a / 128 ∈ ls) : l1Find u core (a / 128) = l1Find t core (a / 128) := h'.find _ (hd _ ha)
  refine ⟨fun a b hl hw => ?_, fun c a ho => ?_, fun l hl => ?_⟩
  · obtain ha | ha := List.mem_append.1 hl
    · have := h.owns a b ha hw
      rwa [L1Owns, l1Byte, hkept ha]
    · exact h'.owns a b ha hw
  · rw [List.mem_append, not_or] at ho
    rw [h'.others c a (ho.imp_right (Or.imp_left And.right)), h.others c a (ho.imp_right (Or.imp_left And.left))]
  · rw [List.mem_append, not_or] at hl
    rw [h'.find l hl.2, h.find l hl.1]

/-- The lines of a store are performed one after another. -/
theorem storeLines_writes (h : Writes us W) {ls : List Nat} (hd : ls.Nodup) (hls : ∀ l ∈ ls, ∃ u ∈ us, u.pa / 128 = l)
    (hheld : ∀ l ∈ ls, (l1Find s core l).isSome) :
    ∃ rs, StoreStep core w s (ls.foldl (fun s l => storeLine s core l (unitMask (unitsIn us l)) (unitData (unitsIn us l)) w false) s) rs ∧
      LinesWritten core W ls s (ls.foldl (fun s l => storeLine s core l (unitMask (unitsIn us l)) (unitData (unitsIn us l)) w false) s) := by
  induction ls generalizing s with
  | nil => exact ⟨[], .refl core w s, fun _ _ h => absurd h List.not_mem_nil, fun _ _ _ => rfl, fun _ _ => rfl⟩
  | cons l ls ih =>
    obtain ⟨hl, hd⟩ := List.nodup_cons.1 hd
    obtain ⟨rs, hstep, hw⟩ := storeLine_writes (w := w) h (hls l List.mem_cons_self) (hheld l List.mem_cons_self)
    obtain ⟨rs', hstep', hw'⟩ := ih (s := storeLine s core l (unitMask (unitsIn us l)) (unitData (unitsIn us l)) w false) hd
      (fun k hk => hls k (List.mem_cons_of_mem l hk)) fun k hk => by
        rw [hw.find k fun e => hl (List.mem_singleton.1 e ▸ hk)]
        exact hheld k (List.mem_cons_of_mem l hk)
    exact ⟨rs ++ rs', hstep.trans hstep', hw.trans hw' fun k hk => List.mem_singleton.1 hk ▸ hl⟩

/-- The units of a store outside windows, in lines that the core's L1 holds. -/
theorem performUnits_writes (h : Writes us W) (hwin : ∀ u ∈ us, homeStoreWin s u.pa = none) (hheld : ∀ u ∈ us, (l1Find s core (u.pa / 128)).isSome) :
    ∃ rs, StoreStep core w s (performUnits s core w us) rs ∧ (∀ a b, W a b → L1Owns (performUnits s core w us) core a ∧
      l1Byte (performUnits s core w us) core a = b) ∧
      ∀ c a, c ≠ core ∨ (∀ b, ¬ W a b) → l1Byte (performUnits s core w us) c a = l1Byte s c a := by
  have hmem (l : Nat) : l ∈ (us.map (fun u => u.pa / 128)).eraseDups ↔ ∃ u ∈ us, u.pa / 128 = l := by
    rw [List.mem_eraseDups, List.mem_map]
  have heq : performUnits s core w us = (us.map (fun u => u.pa / 128)).eraseDups.foldl
      (fun s l => storeLine s core l (unitMask (unitsIn us l)) (unitData (unitsIn us l)) w false) s := by
    have hhome : us.filter (fun u => (homeStoreWin s u.pa).isSome) = [] := List.filter_eq_nil_iff.2 fun u hu => by rw [hwin u hu]; exact Bool.false_ne_true
    have hl1 : us.filter (fun u => (homeStoreWin s u.pa).isNone) = us := List.filter_eq_self.2 fun u hu => by rw [hwin u hu]; rfl
    have hkind (l : Nat) : (us.filter (fun u => u.pa / 128 == l)).any (fun u => u.kind == 1) = false :=
      List.any_eq_false.2 fun u hu => by rw [(h.whole u (List.mem_filter.1 hu).1).1]; decide
    unfold performUnits
    simp only [hhome, hl1, hkind]
    rfl
  obtain ⟨rs, hstep, hw⟩ := storeLines_writes (s := s) (core := core) (w := w) h (nodup_eraseDups _) (fun l hl => (hmem l).1 hl) fun l hl => by
    obtain ⟨u, hu, rfl⟩ := (hmem l).1 hl
    exact hheld u hu
  rw [heq]
  refine ⟨rs, hstep, fun a b hb => hw.owns a b ?_ hb, fun c a ho => hw.others c a (ho.imp_right .inr)⟩
  obtain ⟨u, hu, hp⟩ := (h.bytes a b).1 hb
  exact (hmem _).2 ⟨u, hu, ((puts_iff (h.whole u hu).2.2).1 hp).1⟩

end Sys2Proof
end

section
/-! # The end of a store (13 R279, R281) -/

namespace Sys2Proof

open Machine

variable {s t u : State} {st : Stand} {g : Grove} {n : Nat} {w : Who}

/-! ## A grove with stores more under way -/

theorem endPaths_outStores (fuel : Nat) (g : Grove) (n : Nat) :
    Grove.endPaths fuel { g with outStores := n } = { Grove.endPaths fuel g with outStores := n } := by
  induction fuel generalizing g with
  | zero => rfl
  | succ fuel ih =>
    have hj (e : DivEntry) (r : List DivEntry) : Grove.reachJoin { g with outStores := n } e r = { g.reachJoin e r with outStores := n } := by
      unfold Grove.reachJoin
      split <;> rfl
    have hp : Grove.pathParked { g with outStores := n } = g.pathParked := rfl
    unfold Grove.endPaths
    simp only [hp, hj, ih]
    repeat' split
    all_goals rfl

theorem resumed_outStores (g : Grove) (n : Nat) : Grove.resumed { g with outStores := n } = { g.resumed with outStores := n } := by
  obtain h | ⟨r, h⟩ := Option.eq_none_or_eq_some g.redo
  · rw [Grove.resumed_none (g := { g with outStores := n }) h, Grove.resumed_none h]
  · rw [resumed_some (g := { g with outStores := n }) h, resumed_some h]
    exact endPaths_outStores _ { g with active := r.resume &&& g.live &&& ~~~g.parked, supp := if r.supp then 0 else g.supp } n

/-- Where a retiring grove goes on does not hang on its stores under way. -/
theorem retire_outStores (g : Grove) (n : Nat) : Grove.retire { g with outStores := n } = { g.retire with outStores := n } := by
  rw [Grove.retire, Grove.retire, retireTo_eq, retireTo_eq,
    show (endedAt { g with outStores := n } (Grove.wordAddr { g with outStores := n } + 4)).resumed =
      { (endedAt g (g.wordAddr + 4)).resumed with outStores := n } from resumed_outStores (endedAt g (g.wordAddr + 4)) n]
  rfl

/-! ## Storing the grove back -/

/-- A grove stored back carries its own count. -/
theorem setGrove_moreStores (G : Grove) (hG : G.slot = w.slot) (n : Nat) (h : t.stands = s.stands.map (moreStores w n)) :
    (t.setGrove w.uid G).stands = (s.setGrove w.uid G).stands := by
  refine (congrArg (List.map _) h).trans ((List.map_map ..).trans (List.map_congr_left fun st _ => ?_))
  by_cases hu : st.uid = w.uid
  · have hgs : (st.groves.map (fun g => if g.slot = w.slot then { g with outStores := g.outStores + n } else g)).map
        (fun h => if h.slot = G.slot then G else h) = st.groves.map (fun h => if h.slot = G.slot then G else h) := by
      refine (List.map_map ..).trans (List.map_congr_left fun g _ => ?_)
      rw [hG]
      by_cases hs : g.slot = w.slot <;> simp [hs]
    simp only [Function.comp_apply, moreStores, if_pos hu, Stand.setGrove, hgs]
  · simp only [Function.comp_apply, moreStores, if_neg hu]

theorem grove?_moreStores (hu : st.uid = w.uid) (hg : st.grove? w.slot = some g) (n : Nat) :
    (moreStores w n st).grove? w.slot = some { g with outStores := g.outStores + n } := by
  have hf : (fun y : Grove => y.slot == w.slot) ∘ (fun g : Grove => if g.slot = w.slot then { g with outStores := g.outStores + n } else g) =
      fun y => y.slot == w.slot := funext fun y => by
    rw [Function.comp_apply]
    split <;> rfl
  rw [moreStores, if_pos hu]
  refine (List.find?_map ..).trans ?_
  rw [hf, show st.groves.find? (fun y => y.slot == w.slot) = some g from hg, Option.map_some, if_pos (Stand.grove?_slot hg)]

theorem stand?_moreStores (h : t.stands = s.stands.map (moreStores w n)) (hs : s.stand? w.uid = some st) : t.stand? w.uid = some (moreStores w n st) := by
  have hf : (fun y : Stand => y.uid == w.uid) ∘ moreStores w n = fun y => y.uid == w.uid := funext fun y => by
    rw [Function.comp_apply, moreStores]
    split <;> rfl
  rw [State.stand?, h, List.find?_map, hf]
  exact congrArg (Option.map _) hs

/-- The counts of a grove after its stores. -/
theorem counts_moreStores {x : Gx} (hs : s.stand? x.st.uid = some x.st) (hg : x.st.grove? x.g.slot = some g) {n : Nat}
    (h : t.stands = s.stands.map (moreStores x.who n)) (G : Grove) :
    x.counts t G = { G with outStores := g.outStores + n, outWbs := g.outWbs } := by
  have hst : t.stand? x.st.uid = some (moreStores x.who n x.st) := stand?_moreStores (w := x.who) h hs
  have hgr : (moreStores x.who n x.st).grove? x.g.slot = some { g with outStores := g.outStores + n } := grove?_moreStores (w := x.who) rfl hg n
  rw [Gx.counts, hst, Option.bind_some, hgr]

end Sys2Proof
end

section
/-! # A store after its translation (13 R279, R281; 04 R85) -/

namespace Sys2Proof

open Machine

variable {s t : State} {st : Stand} {g : Grove} {core : Nat}

/-! ## Room in L1 -/

theorem segPieces_line {p : Piece} {fuel pa len kind pos : Nat} (h : p ∈ segPieces fuel pa len kind pos) : ∃ k, k < len ∧ p.line = (pa + k) / 128 := by
  induction fuel generalizing pa len pos with
  | zero => exact absurd h List.not_mem_nil
  | succ fuel ih =>
    unfold segPieces at h
    split at h
    next => exact absurd h List.not_mem_nil
    next hlen =>
      obtain rfl | h := List.mem_cons.1 h
      · exact ⟨0, Nat.pos_of_ne_zero hlen, rfl⟩
      · obtain ⟨k, hk, hl⟩ := ih h
        exact ⟨min (128 - pa % 128) len + k, by omega, by rw [hl, Nat.add_assoc]⟩

theorem lanePieces_line {p : Piece} {qs : List Seg} (h : p ∈ lanePieces qs) : ∃ q ∈ qs, ∃ k, k < q.len ∧ p.line = (q.pa + k) / 128 := by
  have hgo (acc : Nat × List Piece) : p ∈ (qs.foldl (fun (acc : Nat × List Piece) q =>
      (acc.1 + q.len, acc.2 ++ (if q.cached then segPieces (q.len / 128 + 2) q.pa q.len q.kind acc.1 else []))) acc).2 →
      p ∈ acc.2 ∨ ∃ q ∈ qs, ∃ k, k < q.len ∧ p.line = (q.pa + k) / 128 := by
    clear h
    induction qs generalizing acc with
    | nil => exact .inl
    | cons q qs ih =>
      intro h
      obtain h | ⟨r, hr, hk⟩ := ih _ h
      · obtain h | h := List.mem_append.1 h
        · exact .inl h
        · split at h
          · exact .inr ⟨q, List.mem_cons_self, segPieces_line h⟩
          · exact absurd h List.not_mem_nil
      · exact .inr ⟨r, List.mem_cons_of_mem q hr, hk⟩
  exact (hgo (0, []) h).resolve_left List.not_mem_nil

theorem storeRoom_held {lines : List Nat} (h : ∀ l ∈ lines, (l1Find s core l).isSome) : storeRoom s core lines = true := by
  have hnew : lines.filter (fun l => (l1Find s core l).isNone) = [] := List.filter_eq_nil_iff.2 fun l hl => by
    rw [← Option.not_isSome, h l hl]
    decide
  unfold storeRoom
  rw [hnew]
  exact decide_eq_true (Nat.zero_le _)

/-! ## The lanes of a store -/

/-- What a lane of a store needs: its selected bytes, none twice, lie outside windows in lines that the core's L1 holds. -/
structure StoreLane (s : State) (core pa : Nat) (qs : List (Nat × Nat)) : Prop where
  parts : ∀ q ∈ qs, 0 < q.2
  once : (places qs).Nodup
  here : ∀ k ∈ places qs, isRemote (pa + k) = false ∧ windowAt s (pa + k) = none
  held : ∀ k ∈ places qs, (l1Find s core ((pa + k) / 128)).isSome

section
variable {pa : Nat → Nat} {qs : Nat → List (Nat × Nat)} {lanes : List Nat} {f : Nat → Nat → Byte} {data : Nat → List Byte} {bw : Bool}

/-- The bytes that the lanes write. -/
def LaneBytes (pa : Nat → Nat) (qs : Nat → List (Nat × Nat)) (f : Nat → Nat → Byte) (lanes : List Nat) (a : Nat) (b : Byte) : Prop :=
  ∃ l ∈ lanes, ∃ k ∈ places (qs l), f l k = b ∧ pa l + k = a

theorem writes_lanes (h : ∀ l ∈ lanes, StoreLane s core (pa l) (qs l))
    (hapart : lanes.Pairwise (fun l l' => ∀ k ∈ places (qs l), ∀ k' ∈ places (qs l'), pa l + k ≠ pa l' + k'))
    (hdata : ∀ l ∈ lanes, data l = (places (qs l)).map (f l)) :
    Writes ((partLanes pa qs lanes).flatMap (fun y => laneUnits s bw y.segs (data y.lane))) (LaneBytes pa qs f lanes) := by
  rw [partLanes, List.flatMap_map]
  refine Writes.flatMap (W := fun l a b => ∃ k ∈ places (qs l), f l k = b ∧ pa l + k = a) (fun l hl => ?_) (hapart.imp fun {l l'} hll a b c => ?_)
  · rw [hdata l hl]
    exact writes_laneUnits (h l hl).here (h l hl).parts (h l hl).once
  · rintro ⟨k, hk, -, rfl⟩ ⟨k', hk', -, he⟩
    exact hll k hk k' hk' he.symm

theorem storeLines_held (h : ∀ l ∈ lanes, StoreLane s core (pa l) (qs l)) {line : Nat} (hl : line ∈ storeLines s (partLanes pa qs lanes)) :
    (l1Find s core line).isSome := by
  obtain ⟨y, hy, hp⟩ := List.mem_flatMap.1 (List.mem_eraseDups.1 (List.mem_filter.1 hl).1)
  obtain ⟨l, hlane, rfl⟩ := List.mem_map.1 hy
  obtain ⟨p, hpiece, rfl⟩ := List.mem_map.1 hp
  obtain ⟨q, hq, k, hk, hline⟩ := lanePieces_line hpiece
  obtain ⟨r, hr, rfl⟩ := List.mem_map.1 hq
  rw [hline, Nat.add_assoc]
  exact (h l hlane).held _ (mem_places.2 ⟨r, hr, k, hk, rfl⟩)

/-- What the lanes of a store do. -/
theorem storeLanes_parts {x : Gx} (h : ∀ l ∈ lanes, StoreLane x.s x.st.core (pa l) (qs l))
    (hapart : lanes.Pairwise (fun l l' => ∀ k ∈ places (qs l), ∀ k' ∈ places (qs l'), pa l + k ≠ pa l' + k'))
    (hdata : ∀ l ∈ lanes, data l = (places (qs l)).map (f l)) :
    ∃ rs t, storeLanes x bw (partLanes pa qs lanes) data = t ∧ StoreStep x.st.core x.who x.s t rs ∧
      (∀ a b, LaneBytes pa qs f lanes a b → L1Owns t x.st.core a ∧ l1Byte t x.st.core a = b) ∧
      ∀ c a, c ≠ x.st.core ∨ (∀ b, ¬ LaneBytes pa qs f lanes a b) → l1Byte t c a = l1Byte x.s c a := by
  have hw : Writes ((partLanes pa qs lanes).flatMap (fun y => laneUnits x.s bw y.segs (data y.lane))) (LaneBytes pa qs f lanes) := writes_lanes h hapart hdata
  have hunit {u : Unit8} (hu : u ∈ (partLanes pa qs lanes).flatMap (fun y => laneUnits x.s bw y.segs (data y.lane))) :
      windowAt x.s u.pa = none ∧ (l1Find x.s x.st.core (u.pa / 128)).isSome := by
    obtain ⟨b, hb⟩ := puts_self (hw.whole u hu).2.1
    obtain ⟨l, hl, k, hk, -, ha⟩ := (hw.bytes u.pa b).2 ⟨u, hu, hb⟩
    rw [← ha]
    exact ⟨((h l hl).here k hk).2, (h l hl).held k hk⟩
  obtain ⟨rs, hstep, howns, hrest⟩ := performUnits_writes (w := x.who) hw (fun u hu => by rw [homeStoreWin, (hunit hu).1]) fun u hu => (hunit hu).2
  refine ⟨rs, _, ?_, hstep, howns, hrest⟩
  unfold storeLanes
  simp only [chooseUnits_writes hw]
  refine List.foldlRecOn (motive := fun t => t = performUnits x.s x.st.core x.who _) (partLanes pa qs lanes) _ rfl fun t ht y hy => ?_
  obtain ⟨l, hl, rfl⟩ := List.mem_map.1 hy
  refine List.foldlRecOn (motive := fun t => t = performUnits x.s x.st.core x.who _) (partSegs (pa l) (qs l)) _ ht fun t ht q hq => ?_
  obtain ⟨r, hr, rfl⟩ := List.mem_map.1 hq
  have hrem : isRemote (pa l + r.1) = false := ((h l hl).here r.1 (mem_places.2 ⟨r, hr, 0, (h l hl).parts r hr, rfl⟩)).1
  have hdown : peerDown t (pa l + r.1) = false := by rw [peerDown, hrem, Bool.false_and]
  rw [if_neg (by simp), hdown]
  exact ht

/-- A store of parts of its lanes' bytes retires when they are performed or asked for. -/
theorem storeFinish_parts {x : Gx} {k : Nat} (hs : x.s.stand? x.st.uid = some x.st) (hg : x.st.grove? x.g.slot = some g)
    (hx : x.g = { g with prog := { Prog.none with phase := 1, segs := partLanes pa qs lanes, aux := k } }) (hu : Unwatched x.s x.st)
    (h : ∀ l ∈ lanes, StoreLane x.s x.st.core (pa l) (qs l))
    (hapart : lanes.Pairwise (fun l l' => ∀ k ∈ places (qs l), ∀ k' ∈ places (qs l'), pa l + k ≠ pa l' + k'))
    (hdata : ∀ l ∈ lanes, data l = (places (qs l)).map (f l)) (runs : Nat → List (Nat × Nat)) (hit : Rime → Nat → Bool) :
    ∃ rs t, storeFinish x bw runs data hit = t.setGrove x.st.uid { g.retire with outStores := g.outStores + rs.length } ∧
      StoreStep x.st.core x.who x.s t rs ∧ (∀ a b, LaneBytes pa qs f lanes a b → L1Owns t x.st.core a ∧ l1Byte t x.st.core a = b) ∧
      ∀ c a, c ≠ x.st.core ∨ (∀ b, ¬ LaneBytes pa qs f lanes a b) → l1Byte t c a = l1Byte x.s c a := by
  obtain ⟨rs, t, ht, hstep, howns, hrest⟩ := storeLanes_parts (x := x) (bw := bw) h hapart hdata
  refine ⟨rs, t, ?_, hstep, howns, hrest⟩
  have hsegs : x.g.prog.segs = partLanes pa qs lanes := by rw [hx]
  have hfaults : x.g.prog.faults = [] := by rw [hx]; rfl
  have hroom : storeRoom x.s x.st.core (storeLines x.s (partLanes pa qs lanes)) = true := storeRoom_held fun l hl => storeLines_held h hl
  have hall : (partLanes pa qs lanes).filter (fun y => !(0 : LaneMask).getLsbD y.lane) = partLanes pa qs lanes :=
    List.filter_eq_self.2 fun y _ => by simp
  unfold storeFinish
  simp only [hsegs, hfaults, hroom, watchMem_unwatched hu, hall, ht, counts_moreStores hs hg hstep.stands]
  rw [if_neg (by decide), endMem_clean _ _ rfl, ← retire_outStores, hx]
  exact congrArg (t.setGrove x.st.uid) (retire_prog { g with outStores := g.outStores + rs.length } _)

end

end Sys2Proof
end

section
/-! # The data and the mask of a store (13 R279, R281) -/

namespace Sys2Proof

open Machine

/-! ## The bytes of registers -/

theorem toBytes_register (w : Word) : toBytes 8 w.toNat = (List.range 8).map (fun k => w.extractLsb' (8 * k) 8) := by
  rw [toBytes_eq_map]
  refine List.map_congr_left fun k _ => BitVec.eq_of_toNat_eq ?_
  rw [BitVec.toNat_ofNat, BitVec.extractLsb'_toNat, Nat.shiftRight_eq_div_pow]

/-- Byte `k` of a group of registers, the lowest register first (01 R24). -/
theorem regsBytes_eq_map (ws : List Word) : regsBytes ws = (List.range (8 * ws.length)).map (fun k => (ws.getD (k / 8) 0).extractLsb' (8 * (k % 8)) 8) := by
  induction ws with
  | nil => rfl
  | cons w ws ih =>
    rw [regsBytes, List.flatMap_cons, ← regsBytes, ih, List.length_cons, Nat.mul_succ, Nat.add_comm (8 * ws.length), List.range_add, List.map_append,
      List.map_map, toBytes_register]
    refine congrArg₂ (· ++ ·) (List.map_congr_left fun k hk => ?_) (List.map_congr_left fun k _ => ?_)
    · have hk := List.mem_range.1 hk
      rw [Nat.div_eq_of_lt hk, Nat.mod_eq_of_lt hk, List.getD_cons_zero]
    · rw [Function.comp_apply, Nat.add_div_left k (by decide), Nat.add_mod_left, List.getD_cons_succ]

/-- The bytes that a lane's store takes from its registers. -/
theorem regsBytes_storeRegs (g : Grove) (d : BitVec 8) (l : Nat) : regsBytes (storeRegs g d l) = (List.range (8 * opW d)).map (storeByte g d l) := by
  rw [regsBytes_eq_map, storeRegs, srcRegs_length]
  rfl

/-! ## The selected bytes -/

theorem zipIdx_map_range {α : Type} (f : Nat → α) (n : Nat) : ((List.range n).map f).zipIdx = (List.range n).map (fun k => (f k, k)) := by
  refine List.ext_getElem (by simp) fun k h h' => ?_
  simp

/-- The bytes of the selected places. -/
theorem filter_zipIdx_map_range {α : Type} (f : Nat → α) (n : Nat) (c : Nat → Bool) :
    ((((List.range n).map f).zipIdx.filter (fun q => c q.2)).map (·.1)) = ((List.range n).filter c).map f := by
  rw [zipIdx_map_range, List.filter_map, List.map_map]
  rfl

/-- The runs of a mask's bits as they are gathered, the last first. -/
def gatheredRuns (m n : Nat) : List (Nat × Nat) :=
  (List.range n).foldl (fun (acc : List (Nat × Nat)) k =>
    if m.testBit k then
      match acc with
      | (a, c) :: rest => if a + c = k then (a, c + 1) :: rest else (k, 1) :: acc
      | [] => [(k, 1)]
    else acc) []

theorem maskRuns_eq (m n : Nat) : maskRuns m n = (gatheredRuns m n).reverse := rfl

theorem gatheredRuns_succ (m n : Nat) : gatheredRuns m (n + 1) =
    if m.testBit n then
      match gatheredRuns m n with
      | (a, c) :: rest => if a + c = n then (a, c + 1) :: rest else (n, 1) :: gatheredRuns m n
      | [] => [(n, 1)]
    else gatheredRuns m n := by
  rw [gatheredRuns, List.range_succ, List.foldl_append]
  rfl

theorem places_append (qs rs : List (Nat × Nat)) : places (qs ++ rs) = places qs ++ places rs := List.flatMap_append

theorem places_singleton (a c : Nat) : places [(a, c)] = (List.range c).map (a + ·) := List.append_nil _

/-- The runs of a mask are its set bits in order, none empty. -/
theorem places_maskRuns (m n : Nat) : places (maskRuns m n) = (List.range n).filter (fun k => m.testBit k) ∧ ∀ q ∈ maskRuns m n, 0 < q.2 := by
  rw [maskRuns_eq]
  induction n with
  | zero => exact ⟨rfl, fun _ h => absurd h List.not_mem_nil⟩
  | succ n ih =>
    rw [gatheredRuns_succ, List.range_succ, List.filter_append]
    by_cases hb : m.testBit n = true
    · have hone : [n].filter (fun k => m.testBit k) = [n] := by simp [hb]
      rw [if_pos hb, hone, ← ih.1]
      have hpos := ih.2
      generalize gatheredRuns m n = acc at hpos ⊢
      have hnew : places ((n, 1) :: acc).reverse = places acc.reverse ++ [n] ∧ ∀ q ∈ ((n, 1) :: acc).reverse, 0 < q.2 := by
        rw [List.reverse_cons, places_append]
        refine ⟨rfl, fun q hq => ?_⟩
        obtain hq | hq := List.mem_append.1 hq
        · exact hpos q hq
        · rw [List.mem_singleton.1 hq]
          exact Nat.one_pos
      obtain _ | ⟨⟨a, c⟩, rest⟩ := acc
      · exact hnew
      · dsimp only
        split
        next he =>
          rw [List.reverse_cons, List.reverse_cons, places_append, places_append, places_singleton, places_singleton, List.range_succ, List.map_append,
            List.map_singleton, he, List.append_assoc]
          refine ⟨rfl, fun q hq => ?_⟩
          obtain hq | hq := List.mem_append.1 hq
          · exact hpos q (by rw [List.reverse_cons]; exact List.mem_append_left _ hq)
          · rw [List.mem_singleton.1 hq]
            exact Nat.succ_pos c
        next => exact hnew
    · rw [if_neg hb]
      simpa [hb] using ih

end Sys2Proof
end

section
/-! # Stores put registers into L1 (13 R276, R279 to R281; 04 R85) -/

namespace Sys2Proof

open Machine

variable {i : Instr} {s : State} {st : Stand} {g : Grove} {d a b o : BitVec 8} {W : Nat → Byte → Prop} {n k : Nat}

/-! ## The outcome of a store -/

/-- A store that writes bytes `W` has retired: they stand in the core's L1 as its own, and nothing else there or at any home changes. -/
def StoresDone (s : State) (st : Stand) (g : Grove) (W : Nat → Byte → Prop) (v : State) : Prop :=
  ∃ rs t, v = t.setGrove st.uid { g.retire with outStores := g.outStores + rs.length } ∧ StoreStep st.core ⟨st.uid, g.slot⟩ s t rs ∧
    (∀ a b, W a b → L1Owns t st.core a ∧ l1Byte t st.core a = b) ∧
    ∀ c a, c ≠ st.core ∨ (∀ b, ¬ W a b) → l1Byte t c a = l1Byte s c a

theorem storeStep_dropAsks (core : Nat) (w w' : Who) (s : State) : StoreStep core w s (dropAsks s w') [] :=
  ⟨rfl, (local_dropAsks s w').homes, (List.append_nil _).symm, (stands_moreStores_zero s w).symm, fun _ h => absurd h List.not_mem_nil⟩

section
variable {va pa : Nat → Nat} {qs : Nat → List (Nat × Nat)} {lanes : List Nat} {f : Nat → Nat → Byte} {data : Gx → Nat → List Byte} {bw : Bool}

theorem mem_places_lt {qs : List (Nat × Nat)} (h : Parts n qs) {k : Nat} (hk : k ∈ places qs) : k < n := by
  obtain ⟨q, hq, i, hi, rfl⟩ := mem_places.1 hk
  have := (h q hq).2
  omega

/-- A lane whose store touches parts of `n` plain bytes, each at most once, in lines that the core's L1 holds. -/
structure PlainStore (s : State) (st : Stand) (slot va n pa : Nat) (qs : List (Nat × Nat)) : Prop where
  plain : Plain s st slot accWrite va n pa
  parts : Parts n qs
  once : (places qs).Nodup
  held : ∀ k, k < n → (l1Find s st.core ((pa + k) / 128)).isSome

theorem PlainStore.lane {va pa : Nat} {qs : List (Nat × Nat)} (h : PlainStore s st g.slot va n pa qs) (w : Who) : StoreLane (dropAsks s w) st.core pa qs := by
  refine ⟨fun q hq => (h.parts q hq).1, h.once, fun k hk => ?_, fun k hk => h.held k (mem_places_lt h.parts hk)⟩
  have hp := h.plain.part Nat.one_pos (mem_places_lt h.parts hk)
  exact ⟨hp.notRemote Nat.one_pos, hp.window Nat.one_pos⟩

/-- A store of parts of plain bytes in lines that the core's L1 holds. -/
theorem translated_store {x : Gx} (hx : x = ⟨s, st, { g with prog := { Prog.none with aux := k } }, g.enabled, i⟩) (hs : s.stand? st.uid = some st)
    (hg : st.grove? g.slot = some g) (hu : Unwatched s st) (hd : lanes.Nodup) (h : ∀ l ∈ lanes, PlainStore s st g.slot (va l) n (pa l) (qs l))
    (hapart : ∀ l ∈ lanes, ∀ l' ∈ lanes, ∀ k ∈ places (qs l), ∀ k' ∈ places (qs l'), pa l + k = pa l' + k' → l = l')
    (hdata : ∀ p : Prog, ∀ l ∈ lanes, data ⟨dropAsks s ⟨st.uid, g.slot⟩, st, { g with prog := p }, g.enabled, i⟩ l = (places (qs l)).map (f l))
    (runs : Gx → Nat → List (Nat × Nat)) (hit : Gx → Rime → Nat → Bool) :
    StoresDone s st g (LaneBytes pa qs f lanes) (x.translated accWrite .store (partWants va qs lanes) [] (fun x => storeFinish x bw (runs x) (data x) (hit x))) := by
  subst hx
  rw [translated_parts rfl .store hd (fun l hl => (h l hl).plain) fun l hl => (h l hl).parts]
  have hpair : lanes.Pairwise (fun l l' => ∀ k ∈ places (qs l), ∀ k' ∈ places (qs l'), pa l + k ≠ pa l' + k') :=
    hd.imp_of_mem fun {l l'} hl hl' hne k hk k' hk' e => hne (hapart l hl l' hl' k hk k' hk' e)
  obtain ⟨rs, t, ht, hstep, howns, hrest⟩ := storeFinish_parts (g := g) (bw := bw) (k := k) (pa := pa) (qs := qs) (f := f)
    (x := ⟨dropAsks s ⟨st.uid, g.slot⟩, st, { g with prog := { Prog.none with phase := 1, segs := partLanes pa qs lanes, aux := k } }, g.enabled, i⟩)
    hs hg rfl hu (fun l hl => (h l hl).lane _) hpair (hdata _) (runs _) (hit _)
  exact ⟨rs, t, ht, (storeStep_dropAsks ..).trans hstep, howns, hrest⟩

end

end Sys2Proof
end

section
/-! # The statement on stores (13 R276, R279 to R281; 04 R85) -/

namespace Sys2Proof

open Machine

variable {i : Instr} {s : State} {st : Stand} {g : Grove} {d a b o : BitVec 8} {W : Nat → Byte → Prop} {k : Nat} {pa : Nat → Nat}

theorem StoresDone.congr {V : Nat → Byte → Prop} {v : State} (h : StoresDone s st g W v) (hV : ∀ a b, V a b ↔ W a b) : StoresDone s st g V v := by
  obtain rfl : V = W := funext fun a => funext fun b => propext (hV a b)
  exact h

theorem opW_pos (d : BitVec 8) : 0 < 8 * opW d := Nat.mul_pos (by decide) (Nat.two_pow_pos _)

/-- A store whose lanes are all aligned. -/
theorem storeOp_aligned {x : Gx} (h : ∀ l ∈ laneList x.g.lam x.en, globalAddr x.g b o l % 8 = 0) :
    storeOp x d b o = x.translated accWrite .store (partWants (globalAddr x.g b o) (fun _ => [(0, 8 * opW d)]) (laneList x.g.lam x.en)) []
      (fun y => storeFinish y false (fun l => [(globalAddr x.g b o l, 8 * opW d)]) (fun l => regsBytes (storeRegs y.g d l))
        (storeHits false (fun l => [(globalAddr x.g b o l, 8 * opW d)]) (storeRegs y.g d))) := by
  obtain ⟨hw, hm⟩ := wants_aligned (len := 8 * opW d) h
  unfold storeOp
  simp only [hw, hm]
  rfl

/-- A store of whole registers. -/
theorem storeOp_done (hs : s.stand? st.uid = some st) (hg : st.grove? g.slot = some g) (hu : Unwatched s st)
    (hva : ∀ l ∈ lanesOf g g.enabled, globalAddr g b o l % 8 = 0)
    (h : ∀ l ∈ lanesOf g g.enabled, Plain s st g.slot accWrite (globalAddr g b o l) (8 * opW d) (pa l))
    (hheld : ∀ l ∈ lanesOf g g.enabled, ∀ k, k < 8 * opW d → (l1Find s st.core ((pa l + k) / 128)).isSome)
    (hapart : ∀ l ∈ lanesOf g g.enabled, ∀ l' ∈ lanesOf g g.enabled, ∀ k, k < 8 * opW d → ∀ k', k' < 8 * opW d → pa l + k = pa l' + k' → l = l') :
    StoresDone s st g (fun a v => ∃ l ∈ lanesOf g g.enabled, ∃ k, k < 8 * opW d ∧ storeByte g d l k = v ∧ pa l + k = a)
      (storeOp ⟨s, st, { g with prog := { Prog.none with aux := k } }, g.enabled, i⟩ d b o) := by
  have hplaces : places [(0, 8 * opW d)] = List.range (8 * opW d) := by
    rw [places_singleton]
    exact (List.map_congr_left fun k _ => Nat.zero_add k).trans (List.map_id _)
  have hmem {k : Nat} : k ∈ places [(0, 8 * opW d)] ↔ k < 8 * opW d := by rw [hplaces, List.mem_range]
  refine StoresDone.congr (W := LaneBytes pa (fun _ => [(0, 8 * opW d)]) (storeByte g d) (lanesOf g g.enabled)) ?_ fun a v => ?_
  · rw [storeOp_aligned (x := ⟨s, st, { g with prog := { Prog.none with aux := k } }, g.enabled, i⟩) hva]
    exact translated_store (data := fun x l => regsBytes (storeRegs x.g d l)) rfl hs hg hu (lanesOf_nodup g _)
      (fun l hl => ⟨h l hl, List.forall_mem_singleton.2 ⟨opW_pos d, (Nat.zero_add _).le⟩, hplaces ▸ List.nodup_range, hheld l hl⟩)
      (fun l hl l' hl' k hk k' hk' => hapart l hl l' hl' k (hmem.1 hk) k' (hmem.1 hk'))
      (fun p l _ => by rw [hplaces]; exact regsBytes_storeRegs g d l) _ _
  · simp only [LaneBytes, hmem]

/-- The bytes that a masked store selects in a lane. -/
def storeMask (g : Grove) (d b : BitVec 8) (l : Nat) : Nat := (srcWhole g b false l).toNat % 2 ^ (8 * opW d)

theorem testBit_storeMask {l k : Nat} : (storeMask g d b l).testBit k = true ↔ k < 8 * opW d ∧ (srcWhole g b false l).getLsbD k = true := by
  rw [storeMask, Nat.testBit_mod_two_pow, Bool.and_eq_true, decide_eq_true_eq]
  rfl

/-- The runs of a masked store's lane. -/
def selectedRuns (g : Grove) (d a b : BitVec 8) (l : Nat) : List (Nat × Nat) :=
  (maskRuns (storeMask g d b l) (8 * opW d)).map (fun q => (((baseVal g a l).toNat + q.1) % 2 ^ 64, q.2))

theorem mem_selected {l k : Nat} : k ∈ places (maskRuns (storeMask g d b l) (8 * opW d)) ↔ (storeMask g d b l).testBit k = true := by
  rw [(places_maskRuns _ _).1, List.mem_filter, List.mem_range]
  exact and_iff_right_of_imp fun hb => (testBit_storeMask.1 hb).1

theorem parts_selected (g : Grove) (d b : BitVec 8) (l : Nat) : Parts (8 * opW d) (maskRuns (storeMask g d b l) (8 * opW d)) := fun q hq => by
  have hpos := (places_maskRuns _ _).2 q hq
  have hlast := (testBit_storeMask.1 (mem_selected.1 (mem_places.2 ⟨q, hq, q.2 - 1, by omega, rfl⟩))).1
  exact ⟨hpos, by omega⟩

/-- The lanes of a masked store that select a byte. -/
def selecting (x : Gx) (d b : BitVec 8) : List Nat := (laneList x.g.lam x.en).filter (fun l => storeMask x.g d b l ≠ 0)

/-- A masked store of lanes that stay inside a page. -/
theorem stmOp_parts {x : Gx} (h : ∀ l ∈ selecting x d b, (baseVal x.g a l).toNat % 4096 + 8 * opW d ≤ 4096) : stmOp x d a b =
    x.translated accWrite .store
      (partWants (fun l => (baseVal x.g a l).toNat) (fun l => maskRuns (storeMask x.g d b l) (8 * opW d)) (selecting x d b)) []
      (fun y => storeFinish y true (selectedRuns x.g d a b)
        (fun l => ((regsBytes (storeRegs y.g d l)).zipIdx.filter (fun q => (storeMask x.g d b l).testBit q.2)).map (·.1))
        (fun r l => addrHits r 1 false (selectedRuns x.g d a b l) || maskedHits r (storeMask x.g d b l) (storeRegs y.g d l))) := by
  have hwants : (selecting x d b).map (fun l => (⟨l, selectedRuns x.g d a b l⟩ : Want)) =
      partWants (fun l => (baseVal x.g a l).toNat) (fun l => maskRuns (storeMask x.g d b l) (8 * opW d)) (selecting x d b) := by
    refine List.map_congr_left fun l hl => congrArg (Want.mk l) (List.map_congr_left fun q hq => ?_)
    have hpage := h l hl
    obtain ⟨hpos, hend⟩ := parts_selected x.g d b l q hq
    have hlt := (baseVal x.g a l).isLt
    rw [Nat.mod_eq_of_lt (by omega)]
  rw [← hwants]
  rfl

/-- A masked store. -/
theorem stmOp_done (hs : s.stand? st.uid = some st) (hg : st.grove? g.slot = some g) (hp : g.prog = Prog.none) (hu : Unwatched s st)
    (h : ∀ l ∈ lanesOf g g.enabled, Plain s st g.slot accWrite (baseVal g a l).toNat (8 * opW d) (pa l))
    (hheld : ∀ l ∈ lanesOf g g.enabled, ∀ k, k < 8 * opW d → (l1Find s st.core ((pa l + k) / 128)).isSome)
    (hapart : ∀ l ∈ lanesOf g g.enabled, ∀ l' ∈ lanesOf g g.enabled, ∀ k, (storeMask g d b l).testBit k = true →
      ∀ k', (storeMask g d b l').testBit k' = true → pa l + k = pa l' + k' → l = l') :
    StoresDone s st g (fun a v => ∃ l ∈ lanesOf g g.enabled, ∃ k, (storeMask g d b l).testBit k = true ∧ storeByte g d l k = v ∧ pa l + k = a)
      (stmOp ⟨s, st, g, g.enabled, i⟩ d a b) := by
  have hlane {l : Nat} (hl : l ∈ selecting ⟨s, st, g, g.enabled, i⟩ d b) : l ∈ lanesOf g g.enabled := (List.mem_filter.1 hl).1
  have hplaces (l : Nat) : places (maskRuns (storeMask g d b l) (8 * opW d)) = (List.range (8 * opW d)).filter (fun k => (storeMask g d b l).testBit k) :=
    (places_maskRuns _ _).1
  refine StoresDone.congr (W := LaneBytes pa (fun l => maskRuns (storeMask g d b l) (8 * opW d)) (storeByte g d)
    (selecting ⟨s, st, g, g.enabled, i⟩ d b)) ?_ fun v c => ?_
  · rw [stmOp_parts (x := ⟨s, st, g, g.enabled, i⟩) fun l hl => (h l (hlane hl)).inPage]
    have hx : (⟨s, st, g, g.enabled, i⟩ : Gx) = ⟨s, st, { g with prog := { Prog.none with aux := 0 } }, g.enabled, i⟩ := by
      rw [show ({ Prog.none with aux := 0 } : Prog) = Prog.none from rfl, ← hp]
    have hnd : (selecting ⟨s, st, g, g.enabled, i⟩ d b).Nodup := (lanesOf_nodup g _).filter _
    have honce (l : Nat) : (places (maskRuns (storeMask g d b l) (8 * opW d))).Nodup := by
      rw [hplaces]
      exact List.nodup_range.filter _
    have hdata (p : Prog) (l : Nat) : ((regsBytes (storeRegs { g with prog := p } d l)).zipIdx.filter (fun q => (storeMask g d b l).testBit q.2)).map (·.1) =
        (places (maskRuns (storeMask g d b l) (8 * opW d))).map (storeByte g d l) := by
      rw [hplaces, show regsBytes (storeRegs { g with prog := p } d l) = regsBytes (storeRegs g d l) from rfl, regsBytes_storeRegs]
      exact filter_zipIdx_map_range _ _ _
    have hstore := translated_store (n := 8 * opW d) (va := fun l => (baseVal g a l).toNat) (bw := true) (f := storeByte g d)
      (pa := pa) (qs := fun l => maskRuns (storeMask g d b l) (8 * opW d))
      (data := fun y l => ((regsBytes (storeRegs y.g d l)).zipIdx.filter (fun q => (storeMask g d b l).testBit q.2)).map (·.1))
      hx hs hg hu hnd (fun l hl => ⟨h l (hlane hl), parts_selected g d b l, honce l, hheld l (hlane hl)⟩)
      (fun l hl l' hl' k hk k' hk' => hapart l (hlane hl) l' (hlane hl') k (mem_selected.1 hk) k' (mem_selected.1 hk')) (fun p l _ => hdata p l)
      (fun _ => selectedRuns g d a b)
      (fun y r l => addrHits r 1 false (selectedRuns g d a b l) || maskedHits r (storeMask g d b l) (storeRegs y.g d l))
    exact hstore
  · simp only [LaneBytes, mem_selected, selecting, List.mem_filter]
    constructor
    · rintro ⟨l, hl, k, hk, hv⟩
      refine ⟨l, ⟨hl, decide_eq_true fun h0 => ?_⟩, k, hk, hv⟩
      rw [h0, Nat.zero_testBit] at hk
      cases hk
    · rintro ⟨l, ⟨hl, -⟩, k, hk, hv⟩
      exact ⟨l, hl, k, hk, hv⟩

end Sys2Proof
end

section
/-! # Stores put registers into L1: the statement (13 R276, R279 to R281; 04 R85) -/

namespace Sys2Proof

open Machine

variable {i : Instr} {s : State} {st : Stand} {g : Grove} {d b o : BitVec 8} {mask : Option (BitVec 8)} {scope : Nat} {W : Nat → Byte → Prop}

/-- What each store instruction executes. -/
theorem Runs.store (h : Runs i s st g) (hf : storeForm i = some (d, b, o, mask, scope)) :
    (mask = none ∧ exec i s = .next (if isStl i then stlOp ⟨s, st, g, g.enabled, i⟩ d b o scope else storeOp ⟨s, st, g, g.enabled, i⟩ d b o)) ∨
      ∃ m, mask = some m ∧ o = 0 ∧ exec i s = .next (stmOp ⟨s, st, g, g.enabled, i⟩ d b m) := by
  unfold storeForm at hf
  split at hf <;> cases hf
  case h_2 => exact .inr ⟨_, rfl, rfl, h.groveInstr _⟩
  all_goals exact .inl ⟨rfl, h.groveInstr _⟩

/-- A release with nothing to wait for goes on at once; it notes at most its steps. -/
theorem released_ready {x : Gx} {sc : Nat} (h : ReleaseReady x.s x.st x.g sc) (hp : x.g.prog = Prog.none) (hs : x.s.stand? x.st.uid = some x.st)
    (hg : x.st.grove? x.g.slot = some x.g) (k : Gx → State) :
    ∃ n, x.released sc k = k { x with g := { x.g with prog := { Prog.none with aux := n } } } := by
  unfold Gx.released Gx.releasedWith
  rw [releaseQuiet_of_ready h]
  by_cases h6 : sc = 6
  · obtain ⟨hown, hout, hq⟩ := h.pushes h6
    have hpush : pushHost x.s x.who x.who = x.s := pushHost_of_noPush hown
    have hready : pushReady x.s x.who = true := pushReady_of_noPush hown
    exact ⟨1, by simp [h6, hp, hready, hpush, counts_self hs hg, h.writeBacks, hout, hq, Prog.none]⟩
  · refine ⟨0, ?_⟩
    rw [show ({ Prog.none with aux := 0 } : Prog) = x.g.prog from hp.symm]
    simp [h6]

/-- An `stl` whose release has nothing to wait for stores as `st` does. -/
theorem stlOp_ready {x : Gx} {sc : Nat} (h : ReleaseReady x.s x.st x.g sc) (hsc : sc = 6 → (x.s.d.part x.st.part).scopeOn = false)
    (hp : x.g.prog = Prog.none) (hs : x.s.stand? x.st.uid = some x.st) (hg : x.st.grove? x.g.slot = some x.g) :
    stlOp x d b o sc = storeOp { x with g := { x.g with prog := { Prog.none with aux := 2 } } } d b o := by
  have hfirst : ¬ (x.g.prog.phase ≠ 0 ∨ x.g.prog.aux = 2) := by
    rw [hp]
    decide
  obtain ⟨n, hn⟩ := released_ready h hp hs hg (fun x => storeOp { x with g := { x.g with prog := { x.g.prog with aux := 2 } } } d b o)
  unfold stlOp
  rw [if_neg hfirst, clipped_same ((Decidable.em (sc = 6)).symm.imp_right hsc), hn]

/-- Settles O26: the lanes' selected bytes are split into units, none of which meet; the units of each line are performed at
once in the core's L1 or wait there for a grant, and a REG asks for the latter. -/
theorem storesPutRegistersIntoL1 : Obligations.StoresPutRegistersIntoL1 := by
  unfold Obligations.StoresPutRegistersIntoL1
  intro i s st g d b o mask scope pa hf hr hp hu hrel va on hlane hapart
  have hen {l : Nat} (hl : l ∈ lanesOf g g.enabled) : l < g.lam ∧ g.enabled.getLsbD l = true := mem_lanesOf.1 hl
  have hplain (l : Nat) (hl : l ∈ lanesOf g g.enabled) : Plain s st g.slot accWrite (va l) (8 * opW d) (pa l) := (hlane l (hen hl).1 (hen hl).2).2.1
  have hheld (l : Nat) (hl : l ∈ lanesOf g g.enabled) : ∀ k, k < 8 * opW d → (l1Find s st.core ((pa l + k) / 128)).isSome :=
    (hlane l (hen hl).1 (hen hl).2).2.2
  have hdone : ∃ v, exec i s = .next v ∧ StoresDone s st g (fun a v => ∃ l k, on l k ∧ storeByte g d l k = v ∧ pa l + k = a) v := by
    obtain ⟨rfl, hex⟩ | ⟨m, rfl, rfl, hex⟩ := hr.store hf
    · have hon {l k : Nat} : on l k ↔ l ∈ lanesOf g g.enabled ∧ k < 8 * opW d :=
        ⟨fun ⟨hl, he, hk, _⟩ => ⟨mem_lanesOf.2 ⟨hl, he⟩, hk⟩, fun ⟨hl, hk⟩ => ⟨(hen hl).1, (hen hl).2, hk, fun _ h => nomatch h⟩⟩
      have hwhole (k : Nat) : StoresDone s st g (fun a v => ∃ l k, on l k ∧ storeByte g d l k = v ∧ pa l + k = a)
          (storeOp ⟨s, st, { g with prog := { Prog.none with aux := k } }, g.enabled, i⟩ d b o) := by
        refine (storeOp_done hr.stand hr.grove hu (fun l hl => (hlane l (hen hl).1 (hen hl).2).1 rfl) hplain hheld
          fun l hl l' hl' k hk k' hk' => hapart l k l' k' (hon.2 ⟨hl, hk⟩) (hon.2 ⟨hl', hk'⟩)).congr fun a v => ?_
        simp only [hon, and_assoc, exists_and_left]
      refine ⟨_, hex, ?_⟩
      split
      next hstl =>
        obtain ⟨hready, hscope⟩ := hrel hstl
        rw [stlOp_ready hready hscope hp hr.stand hr.grove]
        exact hwhole 2
      next =>
        have h0 := hwhole 0
        rwa [show ({ Prog.none with aux := 0 } : Prog) = g.prog from hp.symm] at h0
    · have hon {l k : Nat} : on l k ↔ l ∈ lanesOf g g.enabled ∧ (storeMask g d m l).testBit k = true := by
        rw [testBit_storeMask, mem_lanesOf]
        exact ⟨fun ⟨hl, he, hk, hm⟩ => ⟨⟨hl, he⟩, hk, hm m rfl⟩, fun ⟨⟨hl, he⟩, hk, hm⟩ => ⟨hl, he, hk, fun _ h => Option.some.inj h ▸ hm⟩⟩
      have hva (l : Nat) : va l = (baseVal g b l).toNat := by simp [va, globalAddr]
      refine ⟨_, hex, (stmOp_done hr.stand hr.grove hp hu (fun l hl => hva l ▸ hplain l hl) hheld
        fun l hl l' hl' k hk k' hk' => hapart l k l' k' (hon.2 ⟨hl, hk⟩) (hon.2 ⟨hl', hk'⟩)).congr fun a v => ?_⟩
      simp only [hon, and_assoc, exists_and_left]
  obtain ⟨v, hex, rs, t, rfl, hstep, howns, hrest⟩ := hdone
  refine ⟨_, rs, hex, hstep.dev, hstep.homes.setGrove _ _, hstep.msgs, ?_, hstep.regs,
    fun l k hk => howns _ _ ⟨l, k, hk, rfl, rfl⟩, fun c a ho => hrest c a (ho.imp_right fun h b ⟨l, k, hk, _, ha⟩ => h l k hk ha)⟩
  exact setGrove_moreStores (w := ⟨st.uid, g.slot⟩) _ rfl _ hstep.stands

end Sys2Proof
end
